-- ==== Sys2Proof/Word.lean ====
section
/-! DEFINITION. The words of the device: a 32-bit register word (R13) and a byte of memory (R11). -/

namespace Sys2Proof

/-- A register of the control space is 32 bits wide (R13). -/
abbrev Word := BitVec 32

/-- One byte of device memory, a shelf, host memory, flash or a message. -/
abbrev Byte := BitVec 8

end Sys2Proof
end

