-- ==== Sys2Proof/Syntax/Tile.lean ====
section
/-! DEFINITION. The operands of the tile-interface instructions (R138 to R160) and the tables of a program that
they name: walk descriptors (R173 to R185), chain descriptors (R84, R86), queue bindings (R111), multicast groups
(R130), scale-history slots (R99). The machine encoding of an instruction and the layouts of the container's sections
are not documented (R6, R217), so these are given by their meaning. -/

namespace Sys2Proof

/-- A queue end (R16). `chip = none` names this chip. -/
structure QName where
  chip : Option Nat
  core : Nat
  idx  : Nat
  deriving DecidableEq, Repr, Inhabited

/-- A counting flag (R109): `fC.LLLL` or `sX.LLL`. -/
inductive FlagName where
  | core  (c l : Nat)
  | shelf (x l : Nat)
  deriving DecidableEq, Repr, Inhabited

/-- An extent (R140): an immediate or a shape register. -/
inductive Ext where
  | imm (n : Nat)
  | sh  (r : Nat)
  deriving DecidableEq, Repr, Inhabited

/-- A wait target (R141): an immediate, or a shape register plus an immediate modulo 2^32. -/
structure Target where
  sh  : Option Nat
  imm : Nat
  deriving DecidableEq, Repr, Inhabited

structure WaitClause where
  flag   : FlagName
  target : Target
  deriving DecidableEq, Repr, Inhabited

structure SignalClause where
  flag : FlagName
  inc  : Nat
  deriving DecidableEq, Repr, Inhabited

/-- The wait and the signal clause of an engine instruction (R141). -/
structure Clauses where
  wait   : Option WaitClause
  signal : Option SignalClause
  deriving DecidableEq, Repr, Inhabited

/-- `mx.seat` (R64, R146). -/
structure MxSeatOp where
  bankB : Bool
  wfmt  : Nat
  n     : Ext
  nb    : Ext
  w     : QName
  stats : Option QName
  cl    : Clauses
  deriving DecidableEq, Repr, Inhabited

/-- `mx.tile` (R65, R66, R146). -/
structure MxTileOp where
  bankB : Bool
  afmt  : Nat
  m     : Ext
  n     : Ext
  nb    : Ext
  fused : Bool
  act   : QName
  stats : Option QName
  cl    : Clauses
  deriving DecidableEq, Repr, Inhabited

/-- `mx.bench` (R67 to R70, R146). -/
structure MxBenchOp where
  afmt  : Nat
  wfmt  : Nat
  m     : Ext
  n     : Ext
  nb    : Ext
  fused : Bool
  base  : Nat
  act   : QName
  w     : QName
  stats : Option QName
  cl    : Clauses
  deriving DecidableEq, Repr, Inhabited

/-- `dr.chain` (R83). `ops` gives one queue end for each stage that needs an operand, in stage order. -/
structure DrChainOp where
  chain  : Nat
  result : QName
  ops    : List QName
  scales : Option QName
  maxima : Option QName
  reset  : Option QName
  merged : Option QName
  stats  : Option QName
  cl     : Clauses
  deriving DecidableEq, Repr, Inhabited

/-- Operand b or c of `vx.map` (R149). -/
inductive VOperand where
  | full (q : QName)
  | row  (q : QName)
  | col  (q : QName)
  | imm  (code : Nat)
  deriving DecidableEq, Repr, Inhabited

/-- `vx.map` (R149). `fmt` is the output format; `scales` a supplied-scale queue end (R148). -/
structure VxMapOp where
  unit   : Nat
  code   : Nat
  m      : Ext
  n      : Ext
  a      : QName
  b      : Option VOperand
  c      : Option VOperand
  fmt    : Nat
  scales : Option QName
  out    : QName
  stats  : Option QName
  cl     : Clauses
  deriving DecidableEq, Repr, Inhabited

/-- `vx.dw` (R199, R200). -/
structure VxDwOp where
  unit   : Nat
  oh     : Ext
  ow     : Ext
  c      : Ext
  kh     : Nat
  kw     : Nat
  sh     : Nat
  sw     : Nat
  dh     : Nat
  dw     : Nat
  g      : Nat
  inp    : QName
  w      : QName
  bias   : Option QName
  fmt    : Nat
  scales : Option QName
  out    : QName
  stats  : Option QName
  cl     : Clauses
  deriving DecidableEq, Repr, Inhabited

/-- `vx.pool` (R202). `avg` is the mode bit. -/
structure VxPoolOp where
  unit   : Nat
  oh     : Ext
  ow     : Ext
  c      : Ext
  ph     : Nat
  pw     : Nat
  sh     : Nat
  sw     : Nat
  avg    : Bool
  inp    : QName
  fmt    : Nat
  scales : Option QName
  out    : QName
  stats  : Option QName
  cl     : Clauses
  deriving DecidableEq, Repr, Inhabited

/-- `vx.reduce` (R150). -/
structure VxReduceOp where
  unit   : Nat
  code   : Nat
  axis   : Nat
  e      : Nat
  m      : Ext
  n      : Ext
  inp    : QName
  fmt    : Nat
  scales : Option QName
  out    : QName
  stats  : Option QName
  cl     : Clauses
  deriving DecidableEq, Repr, Inhabited

/-- `vx.boxdec` (R204 to R209). `thr` is an FP24 code. -/
structure VxBoxdecOp where
  unit    : Nat
  formula : Nat
  thr     : Nat
  a       : Ext
  c       : Ext
  inp     : QName
  params  : QName
  out     : QName
  stats   : Option QName
  cl      : Clauses
  deriving DecidableEq, Repr, Inhabited

/-- `vx.nms` (R211 to R213). `iou` is an FP24 code. -/
structure VxNmsOp where
  unit  : Nat
  e     : Nat
  k     : Ext
  iou   : Nat
  aware : Bool
  inp   : QName
  out   : QName
  stats : Option QName
  cl    : Clauses
  deriving DecidableEq, Repr, Inhabited

/-- `vx.sort` (R151). -/
structure VxSortOp where
  unit   : Nat
  m      : Ext
  n      : Ext
  k      : Ext
  asc    : Bool
  inp    : QName
  values : QName
  index  : QName
  stats  : Option QName
  cl     : Clauses
  deriving DecidableEq, Repr, Inhabited

/-- A base of a walk (R153): from the instruction's operand or from a pair of dispatch words. -/
inductive BaseSrc where
  | imm   (a : Nat)
  | words (lo hi : Nat)
  deriving DecidableEq, Repr, Inhabited

/-- The destination of a fetch walk (R153). -/
inductive WalkDest where
  | queue (q : QName)
  | group (g : Nat)
  deriving DecidableEq, Repr, Inhabited

/-- `st.walk` (R153). -/
structure StWalkOp where
  unit  : Nat
  walk  : Nat
  dest  : WalkDest
  bases : List BaseSrc
  cl    : Clauses
  deriving DecidableEq, Repr, Inhabited

/-- `st.store` (R154). `ring` names a result ring 0 to 7 of the suite. -/
structure StStoreOp where
  unit  : Nat
  walk  : Nat
  inp   : QName
  ring  : Option Nat
  bases : List BaseSrc
  cl    : Clauses
  deriving DecidableEq, Repr, Inhabited

structure QWaitOp where
  flag   : FlagName
  target : Target
  deriving DecidableEq, Repr, Inhabited

structure QSignalOp where
  flag : FlagName
  inc  : Nat
  deriving DecidableEq, Repr, Inhabited

structure QBarrierOp where
  flag : FlagName
  p    : Nat
  deriving DecidableEq, Repr, Inhabited

/-- `ctl.loop` (R158). -/
structure CtlLoopOp where
  body  : Nat
  count : Ext
  deriving DecidableEq, Repr, Inhabited

/-- The comparisons of `ctl.guard` (R159). -/
inductive Cmp where
  | eq | ne | lt | ge
  deriving DecidableEq, Repr, Inhabited

structure CtlGuardOp where
  sh  : Nat
  cmp : Cmp
  imm : Nat
  deriving DecidableEq, Repr, Inhabited

/-- The sources of `ctl.shape` (R145). -/
inductive ShapeSrc where
  | word   (w : Nat)
  | extent (q : QName) (e : Nat)
  | popped (q : QName) (w : Nat)
  | reg    (r : Nat)
  deriving DecidableEq, Repr, Inhabited

/-- `ctl.shape` (R145). -/
structure CtlShapeOp where
  sh  : Nat
  src : ShapeSrc
  a   : Nat
  d   : Nat
  c   : Int
  deriving DecidableEq, Repr, Inhabited

/-- One tile-interface instruction, as a core's stream holds it (R139). -/
inductive TInstr where
  | mxSeat   (o : MxSeatOp)
  | mxTile   (o : MxTileOp)
  | mxBench  (o : MxBenchOp)
  | drChain  (o : DrChainOp)
  | vxMap    (o : VxMapOp)
  | vxDw     (o : VxDwOp)
  | vxPool   (o : VxPoolOp)
  | vxReduce (o : VxReduceOp)
  | vxBoxdec (o : VxBoxdecOp)
  | vxNms    (o : VxNmsOp)
  | vxSort   (o : VxSortOp)
  | stWalk   (o : StWalkOp)
  | stStore  (o : StStoreOp)
  | qWait    (o : QWaitOp)
  | qSignal  (o : QSignalOp)
  | qBarrier (o : QBarrierOp)
  | ctlLoop  (o : CtlLoopOp)
  | ctlGuard (o : CtlGuardOp)
  | ctlCommit
  | ctlShape (o : CtlShapeOp)
  | ctlHalt  (fin : Bool)
  deriving DecidableEq, Repr, Inhabited

/-! ## Walk descriptors -/

/-- A bound: an immediate, or a shape register plus a signed immediate (R174, R175). -/
structure Bound where
  sh  : Option Nat
  imm : Int
  deriving DecidableEq, Repr, Inhabited

/-- A dimension record (R175). `coef` holds a_{d,i} for loop i. -/
structure DimRec where
  extent : Bound
  stride : Int
  offset : Int
  offSh  : Option Nat
  lp     : Option (Nat × Int)
  coef   : List Int
  deriving DecidableEq, Repr, Inhabited

/-- A guard record (R181). `terms` holds c_i for loop i. -/
inductive GuardRec where
  | flag  (loop : Nat) (f : FlagName) (t0 : Nat) (sh : Option Nat) (terms : List Int)
  | row   (loop : Nat) (f : FlagName) (dim lo hi : Nat) (t0 : Nat) (sh : Option Nat)
  | entry (loop : Nat) (q : QName)
  deriving DecidableEq, Repr, Inhabited

/-- A signal record of a store walk (R183). -/
structure SignalRec where
  loop : Nat
  flag : FlagName
  inc  : Nat
  deriving DecidableEq, Repr, Inhabited

/-- The fold parameters (R184). -/
structure FoldRec where
  c    : Nat
  kh   : Nat
  kw   : Nat
  dh   : Nat
  dw   : Nat
  hdim : Nat
  wdim : Nat
  cstr : Nat
  deriving DecidableEq, Repr, Inhabited

/-- A walk descriptor (R173). `fmt` is a code of R34, 0x80 for an index walk or 0x83 for a scale walk. -/
structure WalkDesc where
  store      : Bool
  shelf      : Bool
  fmt        : Nat
  run        : Nat
  cls        : Nat
  loops      : List Bound
  dims       : List DimRec
  baseSelect : Bool
  entryLoops : Nat
  rowMask    : Nat
  pad        : Nat
  padScale   : Nat
  fold       : Option FoldRec
  guards     : List GuardRec
  signals    : List SignalRec
  bases      : List BaseSrc
  deriving DecidableEq, Repr, Inhabited

/-! ## Chain descriptors -/

/-- The parameters of a quantise stage (R93). -/
structure QuantRec where
  fmt     : Nat
  mode    : Nat
  reemit  : Bool
  slot    : Nat
  advance : Nat
  deriving DecidableEq, Repr, Inhabited

/-- A stage of a drain chain (R86). -/
inductive Stage where
  | channel
  | row
  | bias
  | residual
  | act   (fn : Nat)
  | clamp (lo hi : Nat)
  | rotate (group : Nat)
  | quant (q : QuantRec)
  deriving DecidableEq, Repr, Inhabited

/-! ## The other sections of a program -/

/-- A producer of a queue binding (R111): chip (`none` for this chip), logical core, share in granules. -/
structure Producer where
  chip  : Option Nat
  core  : Nat
  share : Nat
  deriving DecidableEq, Repr, Inhabited

/-- A queue binding (R111). -/
structure Binding where
  core      : Nat
  idx       : Nat
  base      : Nat
  depth     : Nat
  merge     : Bool
  producers : List Producer
  deriving DecidableEq, Repr, Inhabited

/-- A receiver of a multicast group with its fallback engine (R130). -/
structure Receiver where
  q        : QName
  fallback : Nat
  deriving DecidableEq, Repr, Inhabited

/-- A multicast group descriptor (R130). -/
structure GroupDesc where
  group     : Nat
  core      : Nat
  engine    : Nat
  receivers : List Receiver
  deriving DecidableEq, Repr, Inhabited

/-- Parameters of a scale-history slot (R99): depth k, headroom h and initial maximum P0 as FP24 codes. -/
structure SlotParam where
  core : Nat
  slot : Nat
  k    : Nat
  h    : Nat
  p0   : Nat
  deriving DecidableEq, Repr, Inhabited

/-- The initial value of a flag (R120). -/
structure FlagInit where
  flag  : FlagName
  value : Nat
  deriving DecidableEq, Repr, Inhabited

/-- A verified and relocated program (R217, R218): the meaning of its sections. `place` holds the logical core of each core slot;
`maxima` holds, for each kernel, the planned maxima of sh0 to sh15 (R144). -/
structure Program where
  place      : List Nat
  skipPolicy : Nat
  maxima     : List (List Nat)
  walks      : List WalkDesc
  chains     : List (List Stage)
  bindings   : List Binding
  groups     : List GroupDesc
  flagInit   : List FlagInit
  slots      : List SlotParam
  deriving DecidableEq, Repr, Inhabited

end Sys2Proof
end

