-- ==== Sys2Proof/Syntax/Wire.lean ====
section
/-! DEFINITION. What reaches the device from outside a mailbox: memory requests, pictures, segment frames and the
outcomes of physical checks. A fact that only the physical world decides (a sensor reading, whether a word was found
uncorrectable, which core failed its test) is an operand of the command that reports it. -/

namespace Sys2Proof

/-- Who waits for a read of device memory (R295, R300): a stream engine of a core, a host through BAR2, a camera context, a
decode stream, an encode session, the translation unit at a cache miss (R285), or another unit of the hub die. -/
inductive MemUser where
  | core (n : Nat)
  | host (fn : Nat)
  | context (n : Nat)
  | stream (n : Nat)
  | session (n : Nat)
  | table
  | hub
  deriving DecidableEq, Repr, Inhabited

/-- A register access: its offset and its width in bytes (R13). -/
structure Access where
  off   : Nat
  width : Nat
  deriving DecidableEq, Repr, Inhabited

/-- A rise of PWRGOOD: the attachment mode that HOST_MODE gives (R334) and the link epoch that is drawn (R358). -/
structure PowerOn where
  mode  : Nat
  epoch : Nat
  deriving DecidableEq, Repr, Inhabited

/-- A loss of FEC lock: the lane, and the uncorrectable codewords that led to it (R363, R428). -/
structure FecLoss where
  lane      : Nat
  codewords : Nat
  deriving DecidableEq, Repr, Inhabited

/-- What a context set-up finds: whether the lanes of a port that it enables lock (R305), and the slots of the pipeline that fail
their march test (R426). -/
structure SetupFinds where
  lock : Bool
  bad  : List Nat
  deriving DecidableEq, Repr, Inhabited

/-- A 64-byte sector request before translation (R282, R292). `mask` has one bit for each byte of a write. -/
structure MemReq where
  who   : MemUser
  addr  : Nat
  cls   : Nat
  write : Bool
  mask  : Nat
  data  : List Byte
  spec  : Bool
  deriving DecidableEq, Repr, Inhabited

/-- How the stack answered the request that the controller performed (R295, R296). -/
inductive MemOutcome where
  /-- The access succeeds. -/
  | ok
  /-- On-die ECC corrected the word. -/
  | corrected
  /-- `n` parity repeats (1 to 3) and then success. -/
  | parity (n : Nat)
  /-- Four consecutive repeats of the command failed. -/
  | repeatFail
  /-- Uncorrectable, and good when read again. -/
  | transient
  /-- Uncorrectable again when read again. -/
  | persistent
  deriving DecidableEq, Repr, Inhabited

/-- A host read of `len` bytes, and how the stack answered it (R287, R295). -/
structure HostRead where
  len : Nat
  o   : MemOutcome
  deriving DecidableEq, Repr, Inhabited

/-- A picture as a decoder outputs it (R326): the index of the bitstream entry that holds it, whether it is a random access point (R328),
4:2:0 sample planes in raster order, without chroma in monochrome; `deep` marks 10-bit samples;
`colour` is the colour description of the bitstream as a code of R326, or 0 when it gives none. The samples are those that the bitstream's own standard gives (R325). -/
structure Picture where
  entry  : Nat
  point  : Bool
  width  : Nat
  height : Nat
  deep   : Bool
  colour : Nat
  luma   : List Nat
  cb     : List Nat
  cr     : List Nat
  deriving DecidableEq, Repr, Inhabited

/-- What a decoder made of an entry: how many pictures it decoded from it, and those that it put out in display order (R327). -/
structure Decoded where
  count : Nat
  shown : List Picture
  deriving DecidableEq, Repr, Inhabited

/-- A segment frame as it reaches a core (R227). -/
structure SegFrame where
  segment : Nat
  length  : Nat
  check   : Nat
  payload : List Byte
  deriving DecidableEq, Repr, Inhabited

/-- The outcomes of the physical tests of a bring-up or a reseat (R409 to R412): units that failed (a link whose
crossing does not reach its depth fails its training, R277), the lanes of pseudo-channels that training found bad and repaired
(R281), as pseudo-channel and lane, and the temperatures that the stacks read when they were trained (R294). -/
structure TestResults where
  pcs     : List Nat
  dies    : List Nat
  d2dLanes : List Nat
  lanes   : List Nat
  cores   : List Nat
  shelves : List Nat
  regulators : List Nat
  hbmLanes : List (Nat × Nat)
  stackTemps : List Int
  deriving DecidableEq, Repr, Inhabited

/-- A rescue request: its pair, and the outcomes of the tests that the rescue image runs (R370). -/
structure RescueTry where
  pair  : Nat
  tests : TestResults
  deriving DecidableEq, Repr, Inhabited

/-- What an error found in a protected array names (R423, R427). -/
inductive ScrubTarget where
  | coreStore (phys : Nat)
  | shelf (x : Nat)
  | hubCopy
  deriving DecidableEq, Repr, Inhabited

/-- What reset the host interface (R336). -/
inductive HostReset where
  | flr0 | hotReset | linkDown
  deriving DecidableEq, Repr, Inhabited

/-- Who made the device request to the host that received no completion (R335, R288): a stream engine of a core, the device side of
a ring, a decode stream, an encode session, a packet queue, or another unit of the hub die. -/
inductive HostRequester where
  | walk (core eng : Nat)
  | ring (n : Nat)
  | stream (n : Nat)
  | session (n : Nat)
  | queue (n : Nat)
  | hub
  deriving DecidableEq, Repr, Inhabited

/-- Hottest sensors, in degrees Celsius (R399, R405): compute dies, clusters, hub die. -/
structure Temps where
  die0 : Int
  die1 : Int
  clusters : List Int
  hub  : Int
  deriving DecidableEq, Repr, Inhabited

end Sys2Proof
end

