-- ==== Sys2Proof/Syntax.lean ====
section
/-! DEFINITION. The commands of the block: one constructor for each row of the table of operations and events. A mailbox message
names the pair whose request registers hold it (R377); the firmware reads its bytes from there. `core` is a logical core,
`fn` a function, `idx` an instruction index. -/

namespace Sys2Proof

/-- One command (R<n> is the rule that the table gives for the row). -/
inductive Instr where
  /-- MX_SEAT (R64). Fills seat bank A or B with the weights and scales of up to 32 channels popped from a weight queue end, after earlier readers of that bank have completed. -/
  | mxSeat (core : Nat) (idx : Nat) (o : MxSeatOp)
  /-- MX_TILE (R65). Runs table-mode passes of activation rows against a seated bank and hands the FP24 outputs to the bound drain chain. -/
  | mxTile (core : Nat) (idx : Nat) (o : MxTileOp)
  /-- MX_BENCH (R68). Runs bench-mode K steps, loading bench banks and broadcasting activation blocks to every DPU, then hands the outputs to the bound drain chain. -/
  | mxBench (core : Nat) (idx : Nat) (o : MxBenchOp)
  /-- DR_CHAIN (R83). Binds a chain descriptor to the next matrix instruction, applies its stages to every result and pushes the quantised result, row scales, maxima and record. -/
  | drChain (core : Nat) (idx : Nat) (o : DrChainOp)
  /-- VX_MAP (R149). Applies one element-wise operation to one to three operands and pushes an M by N result. -/
  | vxMap (core : Nat) (idx : Nat) (o : VxMapOp)
  /-- VX_DW (R200). Computes a depth-wise or grouped convolution of an input tile in fixed tap order. -/
  | vxDw (core : Nat) (idx : Nat) (o : VxDwOp)
  /-- VX_POOL (R202). Computes maximum or average pooling over windows of an input tile. -/
  | vxPool (core : Nat) (idx : Nat) (o : VxPoolOp)
  /-- VX_REDUCE (R150). Reduces an entry along rows or columns, or reduces E entries element by element, in a fixed order. -/
  | vxReduce (core : Nat) (idx : Nat) (o : VxReduceOp)
  /-- VX_BOXDEC (R206). Decodes a head tensor into scored, thresholded and clipped candidate detection records. -/
  | vxBoxdec (core : Nat) (idx : Nat) (o : VxBoxdecOp)
  /-- VX_NMS (R213). Orders candidate records and keeps up to k per image by greedy overlap suppression. -/
  | vxNms (core : Nat) (idx : Nat) (o : VxNmsOp)
  /-- VX_SORT (R151). Selects the top or bottom k elements of each row and pushes a values entry and an index entry. -/
  | vxSort (core : Nat) (idx : Nat) (o : VxSortOp)
  /-- ST_WALK (R153). Runs a fetch walk program and pushes the entries it forms to a queue end or a multicast group. -/
  | stWalk (core : Nat) (idx : Nat) (o : StWalkOp)
  /-- ST_STORE (R154). Pops entries and writes them along a store walk to HBM, a shelf, a host window or a result ring. -/
  | stStore (core : Nat) (idx : Nat) (o : StStoreOp)
  /-- Q_WAIT (R155). Holds issue on the core until a flag satisfies its target. -/
  | qWait (core : Nat) (idx : Nat) (o : QWaitOp)
  /-- Q_SIGNAL (R156). Adds an increment to a core flag or a shelf flag of the suite. -/
  | qSignal (core : Nat) (idx : Nat) (o : QSignalOp)
  /-- Q_BARRIER (R157). Increments the core's arrival count, signals a shelf flag and holds issue until the flag reaches the arrival count times P. -/
  | qBarrier (core : Nat) (idx : Nat) (o : QBarrierOp)
  /-- CTL_LOOP (R158). Repeats the next L instructions count times and exposes the loop indices to walk programs. -/
  | ctlLoop (core : Nat) (idx : Nat) (o : CtlLoopOp)
  /-- CTL_GUARD (R159). Opens a guarded region that runs when a comparison on a shape register holds, allowing speculative issue beyond it. -/
  | ctlGuard (core : Nat) (idx : Nat) (o : CtlGuardOp)
  /-- CTL_COMMIT (R159). Marks the end of a guarded region and has no effect of its own. -/
  | ctlCommit (core : Nat) (idx : Nat)
  /-- CTL_SHAPE (R145). Computes ceil(v*a/d)+c from a dispatch word, a queue-head extent, a popped word or another shape register and writes a shape register. -/
  | ctlShape (core : Nat) (idx : Nat) (o : CtlShapeOp)
  /-- CTL_HALT (R160). Ends the present kernel on the executing core, optionally marking the end of the program. -/
  | ctlHalt (core : Nat) (idx : Nat) (fin : Bool)
  /-- GUARD_COMMIT (R161). A resolved guard whose comparison holds commits, making staged speculative effects visible in issue order. -/
  | guardCommit (core : Nat) (g : Nat)
  /-- GUARD_SQUASH (R164). A resolved guard whose comparison fails discards later work, restores speculative pops and resumes issue after the region. -/
  | guardSquash (core : Nat) (g : Nat)
  /-- STALL_WATCHDOG_EXPIRY (R239). The suite's stall count reaches its limit with no handshake and the suite halts with cause 2. -/
  | stallWatchdogExpiry (suite : Nat)
  /-- WAIT_SATISFIED (R121). A flag reaches a waited target, releasing a q.wait, a barrier or an instruction's wait clause. -/
  | waitSatisfied (core : Nat)
  /-- FLAG_SIGNAL_EFFECT (R123). A flag change takes effect once every earlier push has arrived and every earlier store is visible. -/
  | flagSignalEffect (core : Nat) (k : Nat)
  /-- ENTRY_ARRIVAL (R114). The last granule of a pushed entry arrives and the entry becomes poppable at its queue end. -/
  | entryArrival (core : Nat) (qi : Nat) (src : Nat) (rival : Bool)
  /-- CREDIT_RETURN (R116). Credits freed by a pop reach the producer, which may then push again. -/
  | creditReturn (core : Nat) (qi : Nat) (src : Nat)
  /-- WALK_GUARD_SATISFIED (R181). A flag, row or entry guard of a walk loop iteration is met and the walk forms that iteration's items. -/
  | walkGuardSatisfied (core : Nat) (eng : Nat)
  /-- MCAST_LAG_EXPIRY (R132). A receiver's lag timer reaches the lag limit before it accepts the present granule. -/
  | mcastLagExpiry (suite : Nat) (group : Nat) (core : Nat)
  /-- FALLBACK_FETCH (R133). The receiver's fallback engine fetches the remaining granules of the walk and pushes them as space frees. -/
  | fallbackFetch (suite : Nat) (group : Nat) (core : Nat)
  /-- CUSHION_BEAT (R74). When a gap opens, the array runs known-answer beats that draw real-beat current without touching state. -/
  | cushionBeat (core : Nat)
  /-- RAMP_DOWN (R75). A gap reaching 2 us, a halt, program end or release ramps the array down over 16 beat-times. -/
  | rampDown (core : Nat)
  /-- RAMP_UP (R75). Real work arriving at an idle or ramping array ramps it up before the real beat starts. -/
  | rampUp (core : Nat)
  /-- CHECK_TILE_COMPARE (R76). At the end of a completed check tile, the array compares each row's CRC-32C with the stored value. -/
  | checkTileCompare (core : Nat) (row : Option Nat)
  /-- RESEAT_READY (R416). When core tests complete, the firmware classifies outcomes, reassigns logical numbers, draws a new epoch and sends notice 0x4005. -/
  | reseatReady (r : TestResults) (epoch : Nat)
  /-- KERNEL_COMPLETE (R138). Every core has executed the kernel's ctl.halt and every earlier effect has committed. -/
  | kernelComplete (suite : Nat)
  /-- LOAD (R233). Load message: checks the staging buffer and suite state and starts verifying, applying and broadcasting the program image. -/
  | load (pair : Nat) (prog : Program)
  /-- LOAD_DIGEST_DONE (R230). The security block's SHA-384 of the staged image completes and is compared with the trailer. -/
  | loadDigestDone (suite : Nat)
  /-- SEGMENT_FRAME (R227). A core receives a broadcast or unicast segment frame, keeps its bytes or discards it on a failed check. -/
  | segmentFrame (suite : Nat) (core : Nat) (f : SegFrame)
  /-- MISSING_SEGMENT_REPORT (R228). A core reports its missing-segment bitmap, which acknowledges a complete image when all zero. -/
  | missingSegmentReport (suite : Nat) (core : Nat)
  /-- BITMAP_REPORT_TIMEOUT (R228). A core sends no report within 20 us of the round's last segment and counts as missing every segment. -/
  | bitmapReportTimeout (suite : Nat) (core : Nat)
  /-- SUITE_CREATE (R243). Suite-create message: checks and creates a suite with its cores, grants, rings and limits. -/
  | suiteCreate (pair : Nat)
  /-- SUITE_RELEASE (R245). Suite-release message: stops and frees a suite and returns its resources. -/
  | suiteRelease (pair : Nat)
  /-- RING_SETUP (R246). Ring-setup message: checks and sets up a host-visible ring with indices at zero. -/
  | ringSetup (pair : Nat)
  /-- RING_DOORBELL (R248). A doorbell write advances the host's ring index, or is rejected and logged if it would over- or underfill the ring. -/
  | ringDoorbell (fn : Nat) (ring : Nat) (v : Nat)
  /-- DISPATCH_ENTRY (R253). Once an idle suite's next submission entry is covered and its pins and reservations hold, the firmware dispatches its kernels. -/
  | dispatchEntry (suite : Nat)
  /-- COMPLETION_ENTRY_WRITE (R253). A due completion entry is written once its completion ring has a free slot, advancing its index. -/
  | completionEntryWrite (ring : Nat)
  /-- STEP_ASSEMBLY (R258). After a step completes, the firmware removes leaving rows, admits sequences, allots tokens, writes the step buffer and dispatches the step. -/
  | stepAssembly (suite : Nat)
  /-- HEARTBEAT (R264). Heartbeat message: restarts the function's heartbeat time. -/
  | heartbeat (pair : Nat)
  /-- HEARTBEAT_TIMEOUT (R264). A function's last heartbeat lies 300 ms in the past. -/
  | heartbeatTimeout (fn : Nat)
  /-- ADOPT (R266). Adopt message: writes ring and suite records and ends orphan mode. -/
  | adopt (pair : Nat)
  /-- ALLOCATION (R382). Allocation message: replaces a virtual function's core, suite, ring and shelf allocation. -/
  | allocation (pair : Nat)
  /-- LATCHING_READ (R362). A read of a _lo counter register latches the matching upper half for the next read. -/
  | latchingRead (fn : Nat) (a : Access)
  /-- READ_CLEAR (R332). A read of a read-clear error counter returns its value and clears it. -/
  | readClear (fn : Nat) (a : Access)
  /-- REGISTER_WRITE (R13). A write to a register without behaviour of its own, including W1C and probe registers, or to no register. -/
  | registerWrite (fn : Nat) (a : Access) (v : Nat)
  /-- MBX_REPLY_ACK (R377). Writing 1 to reply_valid clears it, letting the firmware deliver the next reply or notice on the pair. -/
  | mbxReplyAck (fn : Nat) (pair : Nat)
  /-- TS_INCR_WRITE (R350). A write of ts.incr_hi applies both halves of the time-base increment. -/
  | tsIncrWrite (fn : Nat) (v : Nat)
  /-- TS_STEP (R351). A write of ts.step adds a positive phase step at the next tick or starts absorbing a negative one. -/
  | tsStep (fn : Nat) (v : Nat)
  /-- TS_STEP_ABSORBED (R351). A negative phase step has been fully absorbed and the increment returns to normal. -/
  | tsStepAbsorbed
  /-- LANE_MODE_WRITE (R344). A write of fab.lane_mode sets pair modes, or is refused if it changes a pair in use. -/
  | laneModeWrite (fn : Nat) (v : Nat)
  /-- CL_BOUNDS_WRITE (R405). A write of pwr.cl_bounds rounds, clamps and sets a cluster's floor and ceiling. -/
  | clBoundsWrite (fn : Nat) (x : Nat) (v : Nat)
  /-- AGE_LIMIT_WRITE (R302). A write of mem.age_limit stores the clamped age limit. -/
  | ageLimitWrite (fn : Nat) (v : Nat)
  /-- PQ_DOORBELL (R346). A packet-queue doorbell write advances the host's index of a transmit or receive queue. -/
  | pqDoorbell (fn : Nat) (q : Nat) (v : Nat)
  /-- MAP (R289). Map message: checks and writes translation entries from a list, or unmaps pages. -/
  | map (pair : Nat)
  /-- TRANSLATION_DRAIN_COMPLETE (R291). Requests translated by old entries have been performed or forwarded and the map message is answered. -/
  | translationDrainComplete (pair : Nat)
  /-- WINDOW_CREATE (R286). Window message operation 0: creates a translation window with an owner and suite mask. -/
  | windowCreate (pair : Nat)
  /-- WINDOW_DELETE (R286). Window message operation 1: deletes a window that holds no set-up ring. -/
  | windowDelete (pair : Nat)
  /-- WINDOW_SET_SUITE_MASK (R286). Window message operation 2: the owner sets the suite mask of its window. -/
  | windowSetSuiteMask (pair : Nat)
  /-- BAR2_READ (R287). A host read through BAR2 reaches a translated device address or returns zeros when disallowed. -/
  | bar2Read (fn : Nat) (addr : Nat) (r : HostRead)
  /-- BAR2_WRITE (R287). A host write through BAR2 reaches a translated device address or is discarded and logged. -/
  | bar2Write (fn : Nat) (addr : Nat) (data : List Byte)
  /-- MEM_REQUEST (R292). A translated 64-byte sector request enters a pseudo-channel controller's read or write queue, merging or forwarding. -/
  | memRequest (r : MemReq)
  /-- MEM_SCHEDULE (R293). The controller chooses and performs its next request by age, class and open row. -/
  | memSchedule (pc : Nat) (o : MemOutcome)
  /-- AGE_PROMOTION (R293). A queued request exceeds the age limit and is promoted ahead of class order. -/
  | agePromotion (pc : Nat)
  /-- REFRESH (R294). The refresh interval expires and the controller issues an all-bank refresh. -/
  | refresh (pc : Nat)
  /-- STACK_TEMP_READ (R294). Every 1 ms the hub die reads a stack's temperature and sets the refresh interval. -/
  | stackTempRead (stack : Nat) (t : Int)
  /-- CONTEXT_SETUP (R307). Context-setup message: checks and arms a camera context on a port and pipeline. -/
  | contextSetup (pair : Nat) (finds : SetupFinds)
  /-- CONTEXT_PARAMETER (R308). Context-parameter message: copies a parameter block into the context's pending set. -/
  | contextParameter (pair : Nat)
  /-- STOP_CONTEXT (R307). Stop message kind 0: returns a camera context to free and discards a frame in progress. -/
  | stopContext (pair : Nat)
  /-- STOP_STREAM (R382). Stop message kind 1: returns a decode stream to free. -/
  | stopStream (pair : Nat)
  /-- STOP_SESSION (R382). Stop message kind 2: returns an encode session to free and releases its job pins. -/
  | stopSession (pair : Nat)
  /-- STOP_LOCK_GROUP (R324). Stop message kind 3: deletes a lock group, refused while it has member contexts. -/
  | stopLockGroup (pair : Nat)
  /-- FRAME_START (R320). A frame-start packet arrives; the context adopts pending parameters and each tap takes a slot, passing pinned slots. -/
  | frameStart (port : Nat) (vc : Nat) (ecc : Bool)
  /-- LINE_ARRIVAL (R310). A CSI-2 line arrives and the pipeline processes it through its stages and taps. -/
  | lineArrival (port : Nat) (vc : Nat) (dt : Nat) (crcOk : Bool) (ecc : Bool) (samples : List Nat)
  /-- FRAME_END (R320). After the last line, the taps and statistics write planes and headers and advance their ring indices. -/
  | frameEnd (port : Nat) (vc : Nat) (ecc : Bool)
  /-- LINE_TIMEOUT (R320). Lines stop for more than twice the line time without frame end and the frame is written with lines missing. -/
  | lineTimeout (ctx : Nat)
  /-- PORT_LOCK_LOSS (R305). A camera port's lanes lose lock and retrain, retiring the port after repeated losses. -/
  | portLockLoss (port : Nat)
  /-- LOCK_GROUP_SETUP (R323). Lock-group setup message: sets epoch, period, pins and window of a trigger group. -/
  | lockGroupSetup (pair : Nat)
  /-- TRIGGER (R323). The time base reaches trigger instant T_k and the group's pins assert for the pulse width. -/
  | trigger (g : Nat)
  /-- TRIGGER_WINDOW_EXPIRY (R324). A trigger's window closes with no frame start and the trigger counts as missed. -/
  | triggerWindowExpiry (ctx : Nat)
  /-- DECODE_SETUP (R326). Decode-setup message: sets up a decode stream with its rings and picture store. -/
  | decodeSetup (pair : Nat)
  /-- BITSTREAM_ENTRY (R327). The firmware dispatches the next bitstream entry of a stream to the decoder. -/
  | bitstreamEntry (st : Nat)
  /-- BITSTREAM_ENTRY_CONSUMED (R327). The decoder consumes an entry; C advances and a completion entry is written when a ring is named. -/
  | bitstreamEntryConsumed (st : Nat) (d : Decoded) (lost : Nat)
  /-- ENCODE_SETUP (R329). Encode-setup message: sets up an encode session. -/
  | encodeSetup (pair : Nat)
  /-- ENCODE_JOB (R330). The firmware dispatches a job entry, pinning its source slot. -/
  | encodeJob (se : Nat)
  /-- ENCODE_JOB_COMPLETE (R330). The encoder finishes a picture, releases its pin and writes a completion entry. -/
  | encodeJobComplete (se : Nat) (out : List Byte)
  /-- CONTEXT_SLOT_ERROR (R426). An uncorrectable error in a pipeline context slot drops the frame and retests or retires the slot. -/
  | contextSlotError (pipe : Nat) (slot : Nat) (pass : Bool)
  /-- FLR_VF (R336). A function level reset of a virtual function releases its suites and frees its rings, units and mailboxes. -/
  | flrVf (n : Nat)
  /-- VF_ENABLE_CLEAR (R336). Clearing VF Enable or lowering NumVFs acts as an FLR of each removed virtual function. -/
  | vfEnableClear (n : Nat)
  /-- HOT_RESET (R336). FLR of function 0, hot reset or link down resets configuration state of every function and stops heartbeats. -/
  | hotReset (k : HostReset)
  /-- COMPLETION_TIMEOUT (R335). A device request to the host receives no completion within 50 ms and fails as an invalid-entry access. -/
  | completionTimeout (fn : Nat) (page : Nat) (who : HostRequester)
  /-- USB_REGISTER_READ (R340). USB operation 1 reads BAR0 registers word by word. -/
  | usbRegisterRead (tag : Nat) (addr : Nat) (len : Nat)
  /-- USB_REGISTER_WRITE (R340). USB operation 2 writes BAR0 registers, refused outside USB mode. -/
  | usbRegisterWrite (tag : Nat) (addr : Nat) (data : List Byte)
  /-- USB_DEVICE_READ (R340). USB operation 3 reads device space as function 0. -/
  | usbDeviceRead (tag : Nat) (addr : Nat) (len : Nat)
  /-- USB_DEVICE_WRITE (R340). USB operation 4 writes device space, refused outside USB mode. -/
  | usbDeviceWrite (tag : Nat) (addr : Nat) (data : List Byte)
  /-- USB_MAILBOX_MESSAGE (R384). USB operation 5 carries a mailbox message to a pair, limited to service types outside USB mode. -/
  | usbMailboxMessage (tag : Nat) (pair : Nat) (data : List Byte)
  /-- HOST_START (R343). Host-start message: starts the host cores at an entry address with a devicetree blob. -/
  | hostStart (pair : Nat)
  /-- FRAME_RECEIVE (R346). A received Ethernet frame is stamped and goes to an Abapex peer, a steered receive queue, or is dropped. -/
  | frameReceive (port : Nat) (fcsOk : Bool) (data : List Byte)
  /-- FRAME_TRANSMIT (R346). The device takes a transmit descriptor, sends the frame and completes the descriptor. -/
  | frameTransmit (q : Nat)
  /-- PACKET_QUEUE_SETUP (R347). Packet-queue message operation 0: sets up a transmit or receive queue. -/
  | packetQueueSetup (pair : Nat)
  /-- PACKET_QUEUE_DELETE (R347). Packet-queue message operation 1: deletes an empty queue and disables rules naming it. -/
  | packetQueueDelete (pair : Nat)
  /-- STEERING_RULE (R347). Steering message: sets a port's receive steering rule. -/
  | steeringRule (pair : Nat)
  /-- FEC_LOCK_LOSS (R428). An Ethernet lane loses FEC lock, taken down after three losses within 1 s. -/
  | fecLockLoss (x : FecLoss)
  /-- LANE_FAR_END_CHECK (R410). After a lane mode is set, a lane trains against its far end and passes or fails the error count. -/
  | laneFarEndCheck (lane : Nat) (errs : Nat)
  /-- PPS_IN_EDGE (R352). A PPS_IN rising edge is measured against the nearest second and corrected by step or rate. -/
  | ppsInEdge
  /-- PPS_HOLDOVER (R352). No pulse arrives within 1.1 s and the servo enters holdover. -/
  | ppsHoldover
  /-- PPS_OUT (R352). The count reaches a whole second and PPS_OUT rises for 100 us. -/
  | ppsOut
  /-- CHIP (R354). Chip message: sets the device's chip number while no suite and no peer exists. -/
  | chip (pair : Nat)
  /-- PEER_SETUP (R354). Peer-setup message: sets up an Abapex peer on a direct group or UDP. -/
  | peerSetup (pair : Nat)
  /-- DATA_FRAME (R355). A received Abapex data frame delivers granules of an entry to a queue end in sequence order. -/
  | dataFrame (peer : Nat) (data : List Byte)
  /-- CREDIT_FRAME (R356). A received credit frame grants or returns credits to local producers for remote queue ends. -/
  | creditFrame (peer : Nat) (data : List Byte)
  /-- CREDIT_FRAME_SEND (R356). Accumulated credit records for a peer are sent in a credit frame within 2 us. -/
  | creditFrameSend (peer : Nat)
  /-- ACKNOWLEDGE (R357). A received acknowledgement frees acknowledged frames from the replay buffer. -/
  | acknowledge (peer : Nat) (data : List Byte)
  /-- NEGATIVE_ACKNOWLEDGE (R357). A received negative acknowledgement resends frames from the named sequence onward. -/
  | negativeAcknowledge (peer : Nat) (data : List Byte)
  /-- HELLO (R359). A received hello negotiates the Abapex version and restarts sequences when the peer's epoch changed. -/
  | hello (peer : Nat) (data : List Byte)
  /-- ACK_TIMER (R357). After 16 frames or 2 us the receiver sends an acknowledgement. -/
  | ackTimer (peer : Nat)
  /-- REPLAY_TIMEOUT (R357). The replay timeout passes without acknowledgement and the sender resends from the oldest unacknowledged frame. -/
  | replayTimeout (peer : Nat)
  /-- PEER_LOSS_LIMIT (R358). A peer acknowledges nothing for its loss limit and becomes unreachable. -/
  | peerLossLimit (peer : Nat)
  /-- HELLO_TIMER (R358). Every 10 ms the link sends a hello frame to its peers. -/
  | helloTimer
  /-- VERSION_NEGOTIATION (R383). Version negotiation message: chooses the mailbox version and reports supported versions. -/
  | versionNegotiation (pair : Nat)
  /-- IDENTITY (R373). Identity message: writes the certificate chain into a device buffer. -/
  | identity (pair : Nat)
  /-- ATTESTATION (R374). Attestation message: writes a signed report with keys, measurements and suite records. -/
  | attestation (pair : Nat)
  /-- FIRMWARE_STATUS (R381). Firmware status message: answers with boot status, firmware version and update status. -/
  | firmwareStatus (pair : Nat)
  /-- STAGE (R385). Stage message: checks an image, writes it to the inactive slot and loads it for activation. -/
  | stage (pair : Nat) (flashOk : Bool)
  /-- ACTIVATE (R386). Activate message: starts activation at once or defers it while an emergency condition holds. -/
  | activate (pair : Nat)
  /-- ACTIVATION_RECHECK (R386). Every 1 ms during deferral the firmware re-examines emergency conditions, starting or abandoning after 10 s. -/
  | activationRecheck
  /-- ACTIVATION_TAKEOVER (R387). The new image adopts the handoff block, resumes dispatch, updates the directory and answers. -/
  | activationTakeover
  /-- ACTIVATION_ROLLBACK (R389). The new image finds no readable handoff copy or misses its bound and the old image resumes. -/
  | activationRollback
  /-- REVOKE_KEY_SLOT (R371). Revoke message: burns a key slot's revoke fuse unless refused. -/
  | revokeKeySlot (pair : Nat)
  /-- ADVANCE_SECURITY_VERSION (R371). Advance message: raises the fused minimum security version unless refused. -/
  | advanceSecurityVersion (pair : Nat)
  /-- RECOVERY_WRITE (R382). Recovery-write message: writes a kind-1 image into the recovery region. -/
  | recoveryWrite (pair : Nat) (flashOk : Bool)
  /-- HOST_IMAGE_WRITE (R382). Host-image message: writes the self-hosted host image into flash. -/
  | hostImageWrite (pair : Nat) (flashOk : Bool)
  /-- RESCUE (R370). Rescue message to the boot ROM: checks the rescue area as a recovery image and runs it from memory. -/
  | rescue (x : RescueTry)
  /-- NOTICE_DELIVERY (R380). A queued notice is delivered on the function's notice pair once it holds no unread reply. -/
  | noticeDelivery (fn : Nat)
  /-- POWER_GOOD (R406). PWRGOOD rises and the cold bring-up phases begin with time base at 0. -/
  | powerGood (on : PowerOn) (r : TestResults)
  /-- READY (R415). When bring-up phases complete, the firmware checks the stool set and declares ready or not ready. -/
  | ready (host : Bool)
  /-- POWER_GOOD_FALL (R446). PWRGOOD falls, holding the device in reset and losing all state except fuses and flash. -/
  | powerGoodFall
  /-- THERMTRIP (R402). A hub-die sensor at 125 C asserts THERMTRIP_N until power-good falls. -/
  | thermtrip (t : Int)
  /-- REGULATOR_WINDOW (R396). At each 10 us window end a cluster regulator re-evaluates its target point from the busy fraction. -/
  | regulatorWindow (x : Nat) (busy : Nat)
  /-- POWER_SENSE (R399). Every 10 us the package power is sensed and the current ceiling acts or releases. -/
  | powerSense (p : Nat)
  /-- THERMAL_SENSE (R399). Every 10 us the compute-die sensors are read and the throttle acts or releases. -/
  | thermalSense (t : Temps)
  /-- TRIP_COOLDOWN (R401). Every compute-die sensor reads 95 C or below and the reseat's bring-up of the compute dies proceeds. -/
  | tripCooldown (t : Temps)
  /-- REGULATOR_FAULT (R421). A cluster regulator's output stays more than 50 mV from its point for 10 us, raising cause 0x07. -/
  | regulatorFault (x : Nat)
  /-- D2D_REPLAY_LIMIT (R421). More than 1,000 replays on a die-to-die link within 1 ms raise cause 0x06. -/
  | d2dReplayLimit (die : Nat)
  /-- SCRUB (R423). The scrubber reads and corrects protected array words, raising a fault on an uncorrectable one. -/
  | scrub (t : ScrubTarget) (uncorr : Bool)
  /-- HUB_FAULT (R427). Both copies of a hub-die word are uncorrectable; dispatch stops and the compute dies power off until power-good. -/
  | hubFault (array : Nat) (word : Nat)
  /-- REFCLK_EDGE (R349). At each rising edge of REFCLK the time base adds its increment, and a positive step or a SyncE-derived increment is applied. -/
  | refclkEdge (synce : Option (Nat × Nat))
  /-- PCIE_LINK_TRAINED (R336). The PCIe link trains again after a hot reset or link down, realigning its crossing and releasing pending MSI-X messages. -/
  | pcieLinkTrained
  /-- POWER_STATE_CHANGE (R335). A function enters D3hot, where it makes no requests and raises no interrupt, or returns to D0. -/
  | powerStateChange (fn : Nat) (d3 : Bool)
  /-- UNDEFINED_TYPE_REQUEST (R378). A mailbox request whose check fails or whose type is undefined is answered with 0xf0 or 0xf2 and has no effect. -/
  | undefinedTypeRequest (pair : Nat)
  deriving DecidableEq, Repr

end Sys2Proof
end

