-- ==== Sys2Proof/Decode.lean ====
section
/-! DEFINITION. Commands that a word spells. The table of operations and events gives no row any bits (the machine encoding of an
instruction and of the container's sections is not documented: R6, R217), so no word spells a command. -/

namespace Sys2Proof

/-- The command that the `nbits` bits of `w` spell: none, for no row of the table has bits. -/
def decodeTableWord (_nbits _w : Nat) : Option Instr := none

end Sys2Proof
end

