-- ==== Sys2Proof/Machine/State.lean ====
section
/-! DEFINITION. The state of the block: everything the spec gives the device, as plain data, and its reset value. A
register of the control space is a view of these fields (Machine/Regs.lean); each field has one home. -/

namespace Sys2Proof.Machine

/-- A finite map from numbers, kept as pairs of rising key. -/
abbrev AMap (α : Type) := List (Nat × α)

/-- Bytes by address in canonical form: addresses strictly rising, no byte equal to the default. -/
abbrev Mem := List Host.Cell

/-! ## Cores -/

/-- The kind that an entry carries (R113, R140). -/
inductive EntryKind where
  | tensor | index | record | fixed | scale
  deriving DecidableEq, Repr, Inhabited

/-- An entry of a queue end (R113): `data` holds element codes (or words, bytes, E8M0 codes) row by row, an MX row
padded to whole blocks; `scales` one code a block. `chip` and `core` name the producer (R150). -/
structure Entry where
  kind   : EntryKind
  fmt    : Nat
  rows   : Nat
  cols   : Nat
  data   : List Nat
  scales : List Nat
  chip   : Option Nat
  core   : Nat
  deriving DecidableEq, Repr, Inhabited

/-- Credits that a producer of this chip holds for a queue end (R116, R117). -/
structure Credit where
  core : Nat
  n    : Nat
  deriving DecidableEq, Repr, Inhabited

/-- A bound queue end (R111, R114 to R117). `used` counts occupied granules; `back` credits on their way to a producer. -/
structure QueueEnd where
  base      : Nat
  depth     : Nat
  merge     : Bool
  producers : List Producer
  entries   : List Entry
  used      : Nat
  credits   : List Credit
  back      : List Credit
  deriving DecidableEq, Repr, Inhabited

/-- The value of a shape register as issue order sees it: known, or to be written by the `ctl.shape` of that issue number. -/
inductive ShVal where
  | known (v : Nat)
  | pending (no : Nat)
  deriving DecidableEq, Repr, Inhabited

/-- An open loop (R158): body at stream positions start to start + len - 1. -/
structure LoopFrame where
  start : Nat
  len   : Nat
  count : Nat
  iter  : Nat
  deriving DecidableEq, Repr, Inhabited

/-- An issued instruction with the values that stood at its point in issue order (R177). `met`: its wait clause has been
satisfied (R121, R141). -/
structure Issued where
  no    : Nat
  idx   : Nat
  instr : TInstr
  sh    : List ShVal
  lp    : List Nat
  met   : Bool
  deriving DecidableEq, Repr, Inhabited

/-- An unresolved guard with the sequencer's state at its issue (R161 to R164). `opens` are the regions that it stands in. -/
structure GuardMark where
  no     : Nat
  idx    : Nat
  reg    : ShVal
  cmp    : Cmp
  imm    : Nat
  pc     : Nat
  frames : List LoopFrame
  sh     : List ShVal
  opens  : List Nat
  deriving DecidableEq, Repr, Inhabited

/-- What stands in a core's issue order: an instruction that has not completed, an unresolved guard, the end of the region of
the unresolved guard with that issue number, or squashes that are counted once no guard before them is unresolved (R162, R164). -/
inductive Flow where
  | work  (i : Issued)
  | guard (g : GuardMark)
  | endRegion (no : Nat)
  | squashed (n : Nat)
  deriving DecidableEq, Repr, Inhabited

/-- A flag change that waits for the pushes and stores issued before it (R123). -/
structure PendFlag where
  no   : Nat
  flag : FlagName
  inc  : Nat
  deriving DecidableEq, Repr, Inhabited

/-- The sequencer of a core (R138, R155 to R165). `hold` is the wait at which issue holds: its
issue number, instruction index, flag and target. -/
structure Seq where
  running  : Bool
  ended    : Bool
  fin      : Bool
  code     : List (Nat × TInstr)
  pc       : Nat
  frames   : List LoopFrame
  /-- Issue numbers of the guards whose regions are open, innermost first (R159). -/
  opens    : List Nat
  sh       : List ShVal
  nextNo   : Nat
  flow     : List Flow
  hold     : Option (Nat × Nat × FlagName × Nat)
  skipping : Option Nat
  flags    : List PendFlag
  barriers : AMap Nat
  issues   : AMap Nat
  /-- Index of the instruction that raised the halt, or that `core.seq_index` shows in state 4 (R172). -/
  haltIdx  : Nat
  deriving DecidableEq, Repr, Inhabited

/-- One K block of 32 element codes with its scale (R38). -/
structure Block where
  codes : List Nat
  scale : Nat
  deriving DecidableEq, Repr, Inhabited

/-- A seated bank (R64): blocks of channel n in K order at `chans[n]`. -/
structure SeatBank where
  fmt   : Nat
  n     : Nat
  nb    : Nat
  chans : List (List Block)
  deriving DecidableEq, Repr, Inhabited

/-- A row of a scale-history slot (R99): recorded maxima, newest first, and the pending maximum, as FP24 codes. -/
structure SlotRow where
  recs    : List Nat
  pending : Nat
  deriving DecidableEq, Repr, Inhabited

/-- Events of one operation (R52): saturations and flushes. -/
structure Ev where
  sat : Nat
  flush : Nat
  deriving DecidableEq, Repr, Inhabited

/-- An `mx.bench` in progress (R67, R68): its activation entry, the K steps that are done, the two bench banks with the weight
entries that they hold, and the accumulator region, row by row, with the events that its elements have counted. -/
structure BenchRun where
  i     : Issued
  act   : Entry
  step  : Nat
  bank0 : Option Entry
  bank1 : Option Entry
  acc   : List (Nat × Ev)
  deriving DecidableEq, Repr, Inhabited

/-- The matrix engine: banks, bench, slots, main accumulators, and the gap and check-tile state of R74 to R78. `mode` is the
state field of `core.array_status` (3 cushion, 4 ramp-down, 5 ramp-up; 0 idle). `main` holds the main accumulators of R54 as
the last pass left them, row by row from row 0; what a check accumulator holds no rule gives (log entry 4). -/
structure Arr where
  bankA     : Option SeatBank
  bankB     : Option SeatBank
  bench     : Option BenchRun
  slots     : List (AMap SlotRow)
  main      : List (List Nat)
  mode      : Nat
  rows      : Nat
  gapStart  : Option Nat
  tile      : Nat
  tileBeat  : Nat
  tilesDone : Nat
  faultTile : Option (Nat × Nat)
  deriving DecidableEq, Repr, Inhabited

/-- A walk in progress (R178 to R183, R186). `visit` counts visits done; `guardAt` is the guard record it waits at; `items` holds
the present entry's items so far in reverse (element codes and a block scale each); `ready` the entries formed and not yet
pushed, oldest first, and `sent` how many have left; `src` the entry that a store walk is writing, which stays at its queue
end until it is written; `bases` are captured (R177). `spec`: an earlier guard was unresolved when it last went on, and `taken`
lists the queue ends of which it holds the next entries in staging (R162, R186). -/
structure WalkRun where
  i       : Issued
  walk    : Nat
  bases   : List Nat
  visit   : Nat
  guardAt : Nat
  items   : List (List Nat × Nat)
  ready   : List Entry
  sent    : Nat
  src     : Option Entry
  spec    : Bool
  taken   : List Nat
  deriving DecidableEq, Repr, Inhabited

/-- A fallback fetch (R133): its group and engine, the captured walk and the next entry to fetch for the receiver. -/
structure Fallback where
  group : Nat
  engine : Nat
  run   : WalkRun
  next  : Nat
  total : Nat
  src   : Nat
  qi    : Nat
  deriving DecidableEq, Repr, Inhabited

/-- One logical core's registers, queue file, flag file and engines (R17 to R20). -/
structure Core where
  queues     : AMap QueueEnd
  flags      : AMap Nat
  seq        : Seq
  arr        : Arr
  walks      : List (Option WalkRun)
  fallbacks  : List Fallback
  nanSeen    : Bool
  satSeen    : Bool
  flushSeen  : Bool
  overruns   : Nat
  reemits    : Nat
  detaches   : Nat
  squashes   : Nat
  skips      : Nat
  stallWait  : List Nat
  stallChip  : Nat
  queueProbe : Nat
  flagProbe  : Nat
  /-- The segments of an image under load that the core holds (R228). -/
  got        : List Nat
  /-- The program store: bytes of sections of the image, by their offsets (R227). -/
  store      : AMap (List Byte)
  deriving DecidableEq, Repr, Inhabited

/-- A push on its way to a queue end of this chip (R114, R115). -/
structure Push where
  src   : Nat
  no    : Nat
  core  : Nat
  qi    : Nat
  gr    : Nat
  entry : Entry
  deriving DecidableEq, Repr, Inhabited

/-- A physical core (R17, R21, R424, R425): its tests, its transients and its corrected errors. -/
structure Phys where
  bad        : Bool
  retired    : Bool
  transients : List Nat
  corrected  : Nat
  deriving DecidableEq, Repr, Inhabited

/-- A cluster (R22, R23, R396 to R399, R405). Points in mV. `curCeil` and `thrCeil` are the ceilings of the package current
ceiling and of the throttle. `turn` is the core, 0 to 3, that the shelf serves first in the next round. -/
structure Cluster where
  flags     : AMap Nat
  turn      : Nat
  corrected : Nat
  absent    : Bool
  powered   : Bool
  target    : Nat
  point     : Nat
  floor     : Nat
  ceil      : Nat
  curCeil   : Nat
  thrCeil   : Nat
  temp      : Int
  deriving DecidableEq, Repr, Inhabited

/-! ## Suites and rings -/

/-- A shelf grant in one cluster (R242). -/
structure Grant where
  unit0 : Nat
  units : Nat
  flag0 : Nat
  flags : Nat
  hub0  : Nat
  hubs  : Nat
  deriving DecidableEq, Repr, Inhabited

/-- A pinned ingest slot (R255). -/
structure Pin where
  ring  : Nat
  index : Nat
  deriving DecidableEq, Repr, Inhabited

/-- A load in progress (R226 to R233). `phase` 0 digest, 1 broadcast and rounds, 2 acknowledged and held (R232). -/
structure Load where
  pair    : Nat
  addr    : Nat
  len     : Nat
  prog    : Program
  /-- The staged image, as step 2 read it (R214, R226). -/
  image   : List Byte
  phase   : Nat
  round   : Nat
  /-- The segments that a unicast round sends to each core, as the core's last bitmap names them (R229). -/
  sent    : AMap (List Byte)
  /-- Cores whose report for the present round has come. -/
  seen    : List Nat
  /-- Cores that miss segments after the present round, with their bitmaps (R228). -/
  missing : AMap (List Byte)
  deriving DecidableEq, Repr, Inhabited

/-- A dispatched entry or step (R253, R258). `resv` counts reserved slots still unused on result rings 0 to 7. -/
structure Disp where
  isStep : Bool
  index  : Nat
  first  : Nat
  last   : Nat
  kernel : Nat
  words  : List Nat
  notify : Bool
  resv   : List Nat
  pins   : List Pin
  done   : Nat
  deriving DecidableEq, Repr, Inhabited

/-- A sequence in a row of the batch table (R257 to R260). -/
structure BatchRow where
  ident    : Nat
  prompt   : Nat
  left     : Nat
  total    : Nat
  capacity : Nat
  pages    : Nat
  position : Nat
  newTok   : Nat
  joined   : Bool
  yields   : Bool
  made     : Nat
  deriving DecidableEq, Repr, Inhabited

/-- A receiver of a group as the hub sees it (R131 to R133). `lag` is the start of its lag timer. -/
structure RecvRun where
  core     : Nat
  qi       : Nat
  fallback : Nat
  attached : Bool
  accepted : Bool
  lag      : Option Nat
  owes     : Bool
  deriving DecidableEq, Repr, Inhabited

/-- A multicast group (R130): the entry now offered, its number within the walk, and its receivers. `taken`: every attached receiver
has accepted the last entry offered, and the source has not gone on yet. -/
structure GroupRun where
  core    : Nat
  engine  : Nat
  recvs   : List RecvRun
  offered : Option Entry
  taken   : Bool
  number  : Nat
  deriving DecidableEq, Repr, Inhabited

/-- A suite (R242 to R244). `mask` is the core mask; `st` the state of R244. -/
structure Suite where
  st        : Nat
  mode      : Nat
  batching  : Bool
  mask      : Nat
  owner     : Nat
  lag       : Nat
  stall     : Nat
  subRing   : Nat
  compRing  : Nat
  admRing   : Option Nat
  results   : List (Option Nat)
  grants    : List Grant
  stepBuf   : Nat
  firstStep : Nat
  lastStep  : Nat
  rowLimit  : Nat
  chunk     : Nat
  budget    : Nat
  prog      : Option Program
  digest    : List Byte
  load      : Option Load
  disp      : Option Disp
  stallFrom : Nat
  cause     : Nat
  haltCore  : Nat
  haltTime  : Nat
  tdc       : Nat
  merged    : Bool
  joined    : Bool
  detached  : Bool
  rows      : List (Option BatchRow)
  stepNo    : Nat
  started   : Bool
  /-- A step has its tokens and its buffer, and waits for its reservation (R258 step 7). -/
  assembled : Bool
  groups    : AMap GroupRun
  deriving DecidableEq, Repr, Inhabited

/-- A host-visible ring (R246 to R249). `media` names the media unit the
ring is bound to, if any (R307). -/
structure Ring where
  kind     : Nat
  slotLog  : Nat
  cntLog   : Nat
  intr     : Bool
  vector   : Nat
  base     : Nat
  owner    : Nat
  p        : Nat
  c        : Nat
  flagOn   : Bool
  flagSuite : Nat
  flagX    : Nat
  flagIdx  : Nat
  suite    : Option Nat
  media    : Bool
  resv     : Nat
  rejected : Bool
  stopped  : Bool
  deriving DecidableEq, Repr, Inhabited

/-- What follows when a completion entry has been written (R253): nothing, or a submission entry's consumption. -/
inductive After where
  | none
  | consume (suite : Nat)
  deriving DecidableEq, Repr, Inhabited

/-- A completion entry that is due (R250), waiting for a free slot of its ring. -/
structure Comp where
  ring   : Nat
  tag    : Nat
  kind   : Nat
  status : Nat
  cause  : Nat
  suite  : Nat
  count  : Nat
  stamp  : Nat
  after  : After
  deriving DecidableEq, Repr, Inhabited

/-! ## Functions and mailboxes -/

/-- An allocation (R262, R382). -/
structure Alloc where
  suites : Nat
  mask   : Nat
  ring0  : Nat
  rings  : Nat
  grants : List Grant
  deriving DecidableEq, Repr, Inhabited

/-- A notice (R380, R381). -/
structure Notice where
  type  : Nat
  suite : Nat
  body  : List Byte
  deriving DecidableEq, Repr, Inhabited

/-- One function, 0 to 16 (R262, R264). `beat` is the instant of its last accepted heartbeat; `held` the vectors of its
MSI-X messages that are pending (R335, R336); its BAR2 has 2^`bar2` bytes, 30 to 36 (R335). -/
structure Func where
  beat     : Option Nat
  orphan   : Bool
  alloc    : Alloc
  notices  : List Notice
  noticeNo : Nat
  lost     : Nat
  d3       : Bool
  tdcProbe : Nat
  held     : List Nat
  bar2     : Nat
  deriving DecidableEq, Repr, Inhabited

/-- A mailbox pair (R375 to R379, R393). `stored` is the reply kept for a repeat; `busy` marks a request whose answer is
still due, with its bytes in `asked`; `due` holds a reply that waits for `reply_valid` to clear. -/
structure Pair where
  req      : List Byte
  reply    : List Byte
  reqV     : Bool
  replyV   : Bool
  major    : Nat
  minor    : Nat
  lastSeq  : Nat
  stored   : List Byte
  busy     : Bool
  asked    : List Byte
  due      : Option (List Byte)
  deriving DecidableEq, Repr, Inhabited

/-! ## Memory -/

/-- A translation entry (R283). -/
inductive XEntry where
  /-- valid 0, with bits [63:1] of the entry; the lost field stands in bits [5:2] of them. -/
  | invalid (rest : Nat)
  | hbm (frame channel : Nat) (write : Bool)
  | host (page fn : Nat) (write : Bool)
  deriving DecidableEq, Repr, Inhabited

/-- A translation window (R286). -/
structure Window where
  first : Nat
  count : Nat
  owner : Nat
  mask  : Nat
  deriving DecidableEq, Repr, Inhabited

/-- The entry that a page is left with when it is lost for the reason of a lost field (R283). -/
def XEntry.lost (n : Nat) : XEntry := .invalid (4 * n)

/-- A read in a controller's queue (R292): who waits for it, sector number within the pseudo-channel, arrival instant, and whether a
partial write that was queued before it holds it. -/
structure ReadReq where
  who    : MemUser
  sector : Nat
  cls    : Nat
  at_    : Nat
  spec   : Bool
  aged   : Bool
  held   : Bool
  deriving DecidableEq, Repr, Inhabited

structure WriteReq where
  sector : Nat
  cls    : Nat
  at_    : Nat
  mask   : Nat
  data   : List Byte
  aged   : Bool
  deriving DecidableEq, Repr, Inhabited

/-- A request that a full queue holds outside the controller (R292), already translated; `write` says for which queue. -/
structure HeldReq where
  write  : Bool
  who    : MemUser
  sector : Nat
  cls    : Nat
  mask   : Nat
  data   : List Byte
  spec   : Bool
  deriving DecidableEq, Repr, Inhabited

/-- A pseudo-channel and its controller (R280, R281, R292 to R301). `repairs` are its repaired lanes, `depth` the words that its
crossing holds (R277), `waiting` the requests that a full queue holds, oldest first. -/
structure Chan where
  fitted    : Bool
  trained   : Bool
  retired   : Bool
  repairs   : List Nat
  depth     : Nat
  rq        : List ReadReq
  wq        : List WriteReq
  waiting   : List HeldReq
  draining  : Bool
  openRow   : AMap Nat
  corrected : Nat
  promoted  : Nat
  parity    : Nat
  uncorr    : Nat
  frames    : Nat
  nextRef   : Nat
  deriving DecidableEq, Repr, Inhabited

/-- A map message, or a change of a suite mask, whose answer waits for the drain of R291: the instant of the change, and the changed
pages with the entries that they had before it. -/
structure Drain where
  pair  : Nat
  at_   : Nat
  old   : AMap XEntry
  deriving DecidableEq, Repr, Inhabited

/-- Translation and the stacks (R282 to R303). `owners` is the function that last mapped a frame, by frame key; `moved` the
table pages held away from their frames of R285, with their frame keys; `cache` the cached sectors of 8 entries, each with the bits of
the entries that are valid in it; `copies` the pseudo-channels that hold the firmware's two copies of its structures (R299). -/
structure Xlt where
  table      : AMap XEntry
  windows    : AMap Window
  owners     : AMap Nat
  retired    : List Nat
  taken      : List Nat
  moved      : AMap Nat
  cache      : List (Nat × Nat)
  misses     : Nat
  drains     : List Drain
  copies     : List Nat
  pageProbe  : Nat
  winProbe   : Nat
  ageLimit   : Nat
  stackTemp  : List Int
  stackFast  : List Bool
  deriving DecidableEq, Repr, Inhabited

/-! ## Cameras and codecs -/

/-- A camera port (R304, R305, R332). `depth`: the words that its crossings hold (R277). -/
structure Port where
  enabled : Bool
  locked  : Bool
  lanes   : Nat
  deskew  : Bool
  retired : Bool
  rate    : Nat
  ecc     : Nat
  crc     : Nat
  losses  : List Nat
  depth   : Nat
  deriving DecidableEq, Repr, Inhabited

/-- The slot a tap has taken for the frame in progress (R320). -/
structure TapSlot where
  ring  : Nat
  index : Nat
  deriving DecidableEq, Repr, Inhabited

/-- A line as it arrived (R304): exposure, CRC outcome, samples. -/
structure CamLine where
  exp     : Nat
  crcOk   : Bool
  samples : List Nat
  deriving DecidableEq, Repr, Inhabited

/-- A frame in progress (R319, R320): the slots of taps 0 to 2 and of the statistics, the lines so far in reverse, and its
embedded data bytes. -/
structure FrameRun where
  number : Nat
  stamp  : Nat
  slots  : List (Option TapSlot)
  lines  : List CamLine
  emb    : List Nat
  deriving DecidableEq, Repr, Inhabited

/-- A camera context (R306 to R308, R318 to R324, R332). `params` and `pend` hold parameter blocks of 4,096 bytes. -/
structure Ctx where
  st       : Nat
  owner    : Nat
  port     : Nat
  vc       : Nat
  dt       : Nat
  width    : Nat
  height   : Nat
  rate     : Nat
  pipe     : Nat
  exps     : Nat
  group    : Option Nat
  cfa      : Nat
  stat     : Option Nat
  taps     : List (Option Nat)
  params   : List Byte
  pend     : Option (List Byte)
  slot     : Nat
  nextNum  : Nat
  frame    : Option FrameRun
  lastDone : Nat
  dropped  : Nat
  missed   : Nat
  /-- The trigger whose window is open, with its instant, and whether a frame has taken it (R324). -/
  window   : Option (Nat × Nat × Bool)
  deriving DecidableEq, Repr, Inhabited

/-- A lock group (R323). Instants in units of 2^-16 ns; `next` is the next k; `high` the instant its pins fall. -/
structure LockGroup where
  owner    : Nat
  pins     : Nat
  polarity : Nat
  epoch    : Nat
  period   : Nat
  pulse    : Nat
  window   : Nat
  next     : Nat
  high     : Option Nat
  deriving DecidableEq, Repr, Inhabited

/-- A decode stream (R326 to R328, R333). `job` is the entry that the decoder works on, and its flags; `stamps` the presentation stamps of
the entries consumed so far; `gap` says that a discontinuity has cut off what depends on earlier pictures. -/
structure Stream where
  st      : Nat
  owner   : Nat
  codec   : Nat
  width   : Nat
  height  : Nat
  rate    : Nat
  bits    : Nat
  comp    : Option Nat
  taps    : List (Option Nat)
  colour  : Nat
  params  : List Byte
  store   : Nat
  storeLen : Nat
  job     : Option (Nat × Nat)
  stamps  : AMap Nat
  gap     : Bool
  nextNum : Nat
  pics    : Nat
  errors  : Nat
  deriving DecidableEq, Repr, Inhabited

/-- An encode session (R329, R330, R333). `job` is the job in progress: its index, output address and pin; `force` its force-intra flag, and
`since` the pictures since the last intra picture, that one counted. -/
structure Session where
  st      : Nat
  owner   : Nat
  codec   : Nat
  width   : Nat
  height  : Nat
  rate    : Nat
  jobs    : Nat
  comp    : Nat
  rc      : Nat
  qp      : Nat
  target  : Nat
  intra   : Nat
  job     : Option (Nat × Nat × Pin)
  force   : Bool
  since   : Nat
  pics    : Nat
  errors  : Nat
  deriving DecidableEq, Repr, Inhabited

/-- Ports, pipelines, lock groups and codecs. `badSlots` lists retired context slots (R426). -/
structure Media where
  ports    : List Port
  ctxs     : AMap Ctx
  groups   : AMap LockGroup
  streams  : AMap Stream
  sessions : AMap Session
  badSlots : List Nat
  ctxProbe : Nat
  lockProbe : Nat
  streamProbe : Nat
  deriving DecidableEq, Repr, Inhabited

/-! ## Fabric, host interface, time base -/

/-- A lane (R344, R363, R410, R428). `depth`: the words that its crossing holds (R277). -/
structure Lane where
  present : Bool
  up      : Bool
  retired : Bool
  uncorr  : Nat
  fails   : Nat
  losses  : List Nat
  depth   : Nat
  deriving DecidableEq, Repr, Inhabited

/-- A frame in a replay buffer (R357). -/
structure SentFrame where
  sn    : Nat
  bytes : List Byte
  deriving DecidableEq, Repr, Inhabited

/-- Granules of an entry that has not wholly arrived (R355). -/
structure PartEntry where
  qword : Nat
  desc  : List Byte
  data  : List Byte
  deriving DecidableEq, Repr, Inhabited

/-- An Abapex peer (R354 to R359). `path` 3 is UDP. `credOut` are credit records not yet sent (R356). -/
structure Peer where
  st       : Nat
  path     : Nat
  port     : Nat
  grains   : Nat
  chip     : Nat
  dstIp    : List Byte
  srcIp    : List Byte
  mac      : List Byte
  vlan     : Nat
  udp      : Nat
  dscp     : Nat
  bufAddr  : Nat
  bufLen   : Nat
  timeout  : Nat
  loss     : Nat
  major    : Nat
  minor    : Nat
  epoch    : Option Nat
  txSeq    : Nat
  rxSeq    : Nat
  sent     : List SentFrame
  held     : List SentFrame
  partials : List PartEntry
  credOut  : List (Nat × Nat)
  acked    : Nat
  ackedAt  : Nat
  sentAt   : Nat
  rxSince  : Nat
  rxAt     : Nat
  nakAt    : Option Nat
  replays  : Nat
  deriving DecidableEq, Repr, Inhabited

/-- A packet queue (R346, R347). `stopped`: its device side has met a disallowed access (R288). -/
structure PktQ where
  port  : Nat
  rx    : Bool
  owner : Nat
  log   : Nat
  base  : Nat
  p     : Nat
  c     : Nat
  stopped : Bool
  deriving DecidableEq, Repr, Inhabited

/-- A steering rule (R347). -/
structure Steer where
  flags : Nat
  queue : Nat
  mac   : Nat
  vlan  : Nat
  ether : Nat
  udp   : Nat
  deriving DecidableEq, Repr, Inhabited

/-- Credits that a core of this chip holds for a remote queue end (R127, R356): the queue-end word of R355 holds the
destination core and index and the producer core. -/
structure RemCredit where
  chip  : Nat
  qword : Nat
  n     : Nat
  deriving DecidableEq, Repr, Inhabited

/-- Lanes, Ethernet and the Abapex link. `dropped` counts received frames dropped per port (R346). -/
structure Fab where
  mode     : Nat
  refused  : Bool
  lanes    : List Lane
  chip     : Nat
  peers    : AMap Peer
  probe    : Nat
  queues   : AMap PktQ
  rules    : AMap Steer
  credits  : List RemCredit
  epoch    : Nat
  dropped  : List Nat
  deriving DecidableEq, Repr, Inhabited

/-- The time base (R349 to R352, R362). `frac` counts 2^-32 ns; `inc` is the applied increment, `measured` SYNCE_IN's and `shadow` the
written fraction, in 2^-32 ns; `absorb` the rest of a negative step; `ppsAdj` the servo's correction per tick. -/
structure TimeBase where
  count      : Nat
  frac       : Nat
  inc        : Nat
  measured   : Nat
  shadow     : Nat
  incInt     : Nat
  stepAdd    : Nat
  absorb     : Nat
  stepping   : Bool
  synceOut   : Nat
  ppsOutOn   : Bool
  servoOn    : Bool
  source     : Nat
  refused    : Bool
  holdover   : Bool
  locked     : Bool
  synce      : Bool
  ppsError   : Int
  ppsGood    : Nat
  ppsLast    : Option Nat
  ppsAdj     : Int
  ppsHigh    : Option Nat
  deriving DecidableEq, Repr, Inhabited

/-! ## Firmware, trust, power, faults -/

/-- What an accepted image's header says (R367). -/
structure Image where
  key     : Nat
  secVer  : Nat
  version : Nat
  kind    : Nat
  hoW     : Nat
  hoR     : Nat
  meas    : List Byte
  deriving DecidableEq, Repr, Inhabited

/-- The fuses (R5, R269, R270, R368, R372, R408, R405). A row repair is a unit, a failing row and a spare row; `d2dSpares` a link,
a failing lane and a spare lane; `hbmLanes` a pseudo-channel and a failing lane. -/
structure Fuses where
  grade    : Nat
  stepping : Nat
  library  : Nat
  vmax     : Nat
  badCores : List Nat
  badLanes : List Nat
  badPcs   : List Nat
  coreRows : List (Nat × Nat × Nat)
  shelfRows : List (Nat × Nat × Nat)
  hubRows  : List (Nat × Nat × Nat)
  d2dSpares : List (Nat × Nat × Nat)
  hbmLanes : List (Nat × Nat)
  keys     : List (List Byte)
  revoked  : List Bool
  minSec   : Nat
  uds      : List Byte
  deriving DecidableEq, Repr, Inhabited

/-- An alias certificate (R372): what it binds, its DER bytes, and its signature under the DeviceID key. -/
structure AliasCert where
  key     : List Byte
  meas    : List Byte
  version : Nat
  secVer  : Nat
  der     : List Byte
  sig     : List Byte
  deriving DecidableEq, Repr, Inhabited

/-- A handoff block (R388): its header's version, length, generation and instant, what it holds, and where its copies stand as the
pseudo-channels of R299. `seqs` are the pairs' last accepted sequences, `counts` the firmware's counters. -/
structure Handoff where
  major    : Nat
  minor    : Nat
  len      : Nat
  gen      : Nat
  instant  : Nat
  rings    : AMap Ring
  suites   : List Suite
  seqs     : List Nat
  funcs    : List Func
  ctxs     : AMap Ctx
  streams  : AMap Stream
  sessions : AMap Session
  groups   : AMap LockGroup
  peers    : AMap Peer
  counts   : List Nat
  messages : List (List Byte)
  copies   : List Nat
  deriving DecidableEq, Repr, Inhabited

/-- A host core as the firmware starts it (R343): where it runs, its registers a0 and a1, and whether it is in machine mode. What it
executes is its own (log entry 115). -/
structure HostCore where
  pc      : Nat
  a0      : Nat
  a1      : Nat
  machine : Bool
  deriving DecidableEq, Repr, Inhabited

/-- The firmware and the live update (R365 to R392). `update` is the state of `dev.update_status`; `actPair` the pair whose
activate message is unanswered; `pause` the instant of step 1 of R387. -/
structure Fw where
  run       : Option Image
  staged    : Option Image
  bootPath  : Nat
  slotFail  : List Bool
  updated   : Bool
  rolled    : Bool
  update    : Nat
  deferMs   : Nat
  deferAt   : Nat
  actPair   : Option Nat
  pause     : Option Nat
  handoff   : Option Handoff
  handGen   : Nat
  alias_    : Option AliasCert
  boots     : Nat
  hostRun   : Bool
  hostCores : List HostCore
  hostEntry : Nat
  hostBlob  : Nat
  attach    : Nat
  linkUp    : Bool
  deriving DecidableEq, Repr, Inhabited

/-- Power and heat (R394 to R405). `readings` is the sensed package power of the last 1 ms in 0.1 W, newest first; `energy` in µJ;
`overFrom` and `underFrom` the instants of the sensed excess and of the release condition. -/
structure Power where
  readings  : List Nat
  energy    : Nat
  current   : Bool
  thr0      : Bool
  thr1      : Bool
  trip      : Bool
  hubHot    : Bool
  seen      : Nat
  thrEvents : Nat
  curEvents : Nat
  tripEvents : Nat
  overFrom  : Option Nat
  underFrom : Option Nat
  die0      : Int
  die1      : Int
  hub       : Int
  thermPin  : Bool
  deriving DecidableEq, Repr, Inhabited

/-- A unit that a fault of the present reseat named (R417, R422). -/
structure FaultUnit where
  cause : Nat
  unit  : Nat
  frame : Nat
  deriving DecidableEq, Repr, Inhabited

/-- Faults and bring-up (R406 to R439). `cores` gives the physical core behind each logical number; `pcieDepth` and `usbDepth` the
words that the crossings of the host links hold (R277). -/
structure Health where
  powered   : Bool
  phase     : Nat
  reason    : Nat
  readyMs   : Nat
  reseatMs  : Nat
  reseats   : Nat
  present   : Nat
  cores     : List (Option Nat)
  cause     : Nat
  unit      : Nat
  outcome   : Nat
  faults    : Nat
  hubFault  : Bool
  repairs   : Nat
  reseatAt  : Option Nat
  units     : List FaultUnit
  heldFault : List FaultUnit
  pcieDepth : Nat
  usbDepth  : Nat
  deriving DecidableEq, Repr, Inhabited

/-- An entry of the retirement record (R391). -/
structure RetEntry where
  kind  : Nat
  unit  : Nat
  index : Nat
  boot  : Nat
  deriving DecidableEq, Repr, Inhabited

/-- An event-log entry (R431). -/
structure LogEntry where
  stamp  : Nat
  sn     : Nat
  code   : Nat
  class_ : Nat
  fn     : Nat
  suite  : Nat
  kind   : Nat
  unit   : Nat
  a      : Nat
  b      : Nat
  c      : Nat
  deriving DecidableEq, Repr, Inhabited

/-- The event log (R431 to R433): `slots` by slot number. `second` and `inSecond` carry the rate limit of R432. -/
structure EventLog where
  slots    : AMap LogEntry
  next     : Nat
  overflow : Nat
  second   : Nat
  inSecond : Nat
  deriving DecidableEq, Repr, Inhabited

/-- What the block has sent out: nothing in the block reads it. `data` is the answer to the last read. -/
structure Out where
  word    : Word
  data    : List Byte
  abort   : Bool
  irqs    : List (Nat × Nat)
  /-- Interrupt identities that the host cores' interrupt files have received: file and identity (R339, R342). -/
  imsic   : List (Nat × Nat)
  /-- Event records on endpoint IN 2, in USB mode (R340). -/
  events  : List (List Byte)
  usb     : List (List Byte)
  eth     : List (Nat × List Byte)
  link    : List (Nat × List Byte)
  host    : List (Nat × List Byte)
  deriving DecidableEq, Repr, Inhabited

/-- Why a step stops with a fault. No command of this device stops the machine: a hardware fault of R421 is a state in
which the compute complex reseats. The constructor is kept for the interface and nothing raises it, which is safe. -/
inductive Fault where
  | unreachable
  deriving DecidableEq, Repr

/-- Why a step refuses a command. -/
inductive Refusal where
  /-- Not modelled yet; raised by an arm of `exec` only. Safe. -/
  | notModelled (mnemonic : String)
  deriving DecidableEq, Repr

/-- The state of the block. `free` counts the free values drawn so far (Config); it is the model's own field. -/
structure State where
  fuses    : Fuses
  ts       : TimeBase
  health   : Health
  power    : Power
  fw       : Fw
  phys     : List Phys
  cores    : List Core
  clusters : List Cluster
  suites   : List Suite
  flight   : List Push
  rings    : AMap Ring
  ringProbe : Nat
  ringRejects : List Nat
  comps    : List Comp
  funcs    : List Func
  pairs    : List Pair
  xlt      : Xlt
  chans    : List Chan
  hbm      : Mem
  shelf    : Mem
  hostMem  : Mem
  flash    : Mem
  media    : Media
  fab      : Fab
  log      : EventLog
  latch    : AMap Nat
  record   : List RetEntry
  out      : Out
  free     : Nat
  pending  : List Instr
  deriving DecidableEq, Repr

/-! ## Reset -/

/-- The sequencer of a core with no kernel. -/
def Seq.empty : Seq :=
  { running := false, ended := false, fin := false, code := [], pc := 0, frames := [], opens := [], sh := List.replicate 16 (.known 0),
    nextNo := 0, flow := [], hold := none, skipping := none, flags := [], barriers := [], issues := [], haltIdx := 0 }

/-- An idle array with empty banks (R78, R414). -/
def Arr.empty : Arr :=
  { bankA := none, bankB := none, bench := none, slots := List.replicate 8 [], main := [], mode := 0, rows := 0,
    gapStart := none, tile := 0, tileBeat := 0, tilesDone := 0, faultTile := none }

/-- A core in no suite: every field of its window at its reset value. -/
def Core.empty : Core :=
  { queues := [], flags := [], seq := Seq.empty, arr := Arr.empty, walks := List.replicate 4 none,
    fallbacks := [], nanSeen := false, satSeen := false, flushSeen := false, overruns := 0, reemits := 0,
    detaches := 0, squashes := 0, skips := 0, stallWait := [0, 0, 0, 0], stallChip := 0, queueProbe := 0, flagProbe := 0,
    got := [], store := [] }

/-- A free suite (R244). -/
def Suite.free : Suite :=
  { st := 0, mode := 0, batching := false, mask := 0, owner := 0, lag := 0, stall := 0, subRing := 0, compRing := 0,
    admRing := none, results := [], grants := [], stepBuf := 0, firstStep := 0, lastStep := 0, rowLimit := 0, chunk := 0,
    budget := 0, prog := none, digest := [], load := none, disp := none, stallFrom := 0, cause := 0,
    haltCore := 0, haltTime := 0, tdc := 0, merged := false, joined := false, detached := false, rows := [], stepNo := 0,
    started := false, assembled := false, groups := [] }

/-- An allocation that grants nothing. -/
def Alloc.none : Alloc := { suites := 0, mask := 0, ring0 := 0, rings := 0, grants := [] }

/-- A function that nobody has attached. -/
def Func.reset : Func :=
  { beat := none, orphan := false, alloc := Alloc.none, notices := [], noticeNo := 0, lost := 0,
    d3 := false, tdcProbe := 0, held := [], bar2 := 36 }

/-- A mailbox pair before negotiation (R393). -/
def Pair.reset : Pair :=
  { req := List.replicate 256 0, reply := List.replicate 256 0, reqV := false, replyV := false, major := 0, minor := 0,
    lastSeq := 0, stored := [], busy := false, asked := [], due := none }

def Phys.reset : Phys := { bad := false, retired := false, transients := [], corrected := 0 }

/-- A cluster at power-good (R405). -/
def Cluster.reset : Cluster :=
  { flags := [], turn := 0, corrected := 0, absent := false, powered := false, target := 600, point := 0, floor := 600, ceil := 850,
    curCeil := 850, thrCeil := 850, temp := 0 }

def Chan.reset : Chan :=
  { fitted := false, trained := false, retired := false, repairs := [], depth := 0, rq := [], wq := [], waiting := [], draining := false, openRow := [],
    corrected := 0, promoted := 0, parity := 0, uncorr := 0, frames := 0, nextRef := 0 }

def Port.reset : Port :=
  { enabled := false, locked := false, lanes := 0, deskew := false, retired := false, rate := 0, ecc := 0, crc := 0,
    losses := [], depth := 0 }

def Lane.reset : Lane := { present := true, up := false, retired := false, uncorr := 0, fails := 0, losses := [], depth := 0 }

/-- The time base at power-good (R349, R362): increment 6 + 0x6666_6666 × 2^-32 ns. -/
def TimeBase.reset : TimeBase :=
  { count := 0, frac := 0, inc := 6 * 2 ^ 32 + 0x66666666, measured := 6 * 2 ^ 32 + 0x66666666, shadow := 0x66666666,
    incInt := 6, stepAdd := 0, absorb := 0, stepping := false,
    synceOut := 0, ppsOutOn := false, servoOn := false, source := 0, refused := false, holdover := false, locked := false,
    synce := false, ppsError := 0, ppsGood := 0, ppsLast := none, ppsAdj := 0, ppsHigh := none }

def Power.reset : Power :=
  { readings := [], energy := 0, current := false, thr0 := false, thr1 := false, trip := false, hubHot := false, seen := 0,
    thrEvents := 0, curEvents := 0, tripEvents := 0, overFrom := none, underFrom := none, die0 := 0, die1 := 0, hub := 0,
    thermPin := true }

def Health.reset : Health :=
  { powered := false, phase := 0, reason := 0, readyMs := 0, reseatMs := 0, reseats := 0, present := 0,
    cores := List.replicate 32 none, cause := 0, unit := 0, outcome := 0, faults := 0, hubFault := false, repairs := 0,
    reseatAt := none, units := [], heldFault := [], pcieDepth := 0, usbDepth := 0 }

def Fw.reset : Fw :=
  { run := none, staged := none, bootPath := 0, slotFail := [false, false], updated := false, rolled := false, update := 0,
    deferMs := 0, deferAt := 0, actPair := none, pause := none, handoff := none, handGen := 0, alias_ := none, boots := 0, hostRun := false, hostCores := [], hostEntry := 0,
    hostBlob := 0, attach := 0, linkUp := false }

def Xlt.reset : Xlt :=
  { table := [], windows := [], owners := [], retired := [], taken := [], moved := [], cache := [], misses := 0,
    drains := [], copies := [], pageProbe := 0, winProbe := 0, ageLimit := 4, stackTemp := [0, 0], stackFast := [false, false] }

def Media.reset : Media :=
  { ports := List.replicate 4 Port.reset, ctxs := [], groups := [], streams := [], sessions := [], badSlots := [],
    ctxProbe := 0, lockProbe := 0, streamProbe := 0 }

def Fab.reset : Fab :=
  { mode := 0, refused := false, lanes := List.replicate 4 Lane.reset, chip := 0xfffff, peers := [], probe := 0, queues := [],
    rules := [], credits := [], epoch := 0, dropped := [0, 0, 0, 0] }

def EventLog.reset : EventLog := { slots := [], next := 0, overflow := 0, second := 0, inSecond := 0 }

def Out.reset : Out :=
  { word := 0, data := [], abort := false, irqs := [], imsic := [], events := [], usb := [], eth := [], link := [], host := [] }

/-- The fuses of the part that the manual's example of R271 describes: grade P, stepping B0, library 0x0104, no defect, no
key slot programmed and a unique secret of zeros. DESIGN CHOICE, unsafe (log entry 1): every statement is about all fuses. -/
def Fuses.typical : Fuses :=
  { grade := 1, stepping := 0xb0, library := 0x0104, vmax := 850, badCores := [], badLanes := [], badPcs := [],
    coreRows := [], shelfRows := [], hubRows := [], d2dSpares := [], hbmLanes := [],
    keys := List.replicate 4 [], revoked := List.replicate 4 false, minSec := 0, uds := List.replicate 48 0 }

/-- The device held in reset, PWRGOOD low (R404, R445): nothing but fuses and flash holds a value that a run made. -/
def State.reset : State :=
  { fuses := Fuses.typical, ts := TimeBase.reset, health := Health.reset, power := Power.reset, fw := Fw.reset,
    phys := List.replicate 40 Phys.reset, cores := List.replicate 32 Core.empty,
    clusters := List.replicate 8 Cluster.reset, suites := List.replicate 32 Suite.free, flight := [], rings := [],
    ringProbe := 0, ringRejects := [], comps := [], funcs := List.replicate 17 Func.reset, pairs := List.replicate 64 Pair.reset,
    xlt := Xlt.reset, chans := List.replicate 64 Chan.reset, hbm := [], shelf := [], hostMem := [], flash := [],
    media := Media.reset, fab := Fab.reset, log := EventLog.reset, latch := [], record := [], out := Out.reset, free := 0,
    pending := [] }

end Sys2Proof.Machine
end

