-- ==== Sys2Proof/Machine/Num.lean ====
section
/-! DEFINITION. The eight tensor formats and their one rounding (R34 to R49). A value is held exactly, as a signed
fraction; a code is a number below 2^width. -/

namespace Sys2Proof.Machine

/-- An exact value. `fin neg n d` is ± n / d with d > 0; `huge` is a result that IEEE 754 would make infinite from finite
operands, which saturates (R43). -/
inductive Num where
  | nan
  | inf (neg : Bool)
  | huge (neg : Bool)
  | fin (neg : Bool) (n d : Nat)
  deriving DecidableEq, Repr, Inhabited

/-- A format (R34 to R37): width, mantissa bits, the exponent of the least subnormal, the largest finite magnitude code,
and whether the all-ones exponent holds infinities and NaNs. -/
structure Fmt where
  width : Nat
  mant  : Nat
  lsb   : Int
  max   : Nat
  wide  : Bool
  deriving DecidableEq, Repr, Inhabited

def mx4  : Fmt := { width := 4,  mant := 1,  lsb := -1,   max := 0x7,  wide := false }
def mx6a : Fmt := { width := 6,  mant := 3,  lsb := -3,   max := 0x1f, wide := false }
def mx6b : Fmt := { width := 6,  mant := 2,  lsb := -4,   max := 0x1f, wide := false }
def mx8  : Fmt := { width := 8,  mant := 3,  lsb := -9,   max := 0x7e, wide := false }
def bf16 : Fmt := { width := 16, mant := 7,  lsb := -133, max := 0x7f7f, wide := true }
def fp16 : Fmt := { width := 16, mant := 10, lsb := -24,  max := 0x7bff, wide := true }
def fp24 : Fmt := { width := 24, mant := 15, lsb := -141, max := 0x7f7fff, wide := true }
def fp32 : Fmt := { width := 32, mant := 23, lsb := -149, max := 0x7f7fffff, wide := true }

/-- The format of a 4-bit code (R34); any other code names none. -/
def fmtOf : Nat → Option Fmt
  | 0x1 => some mx4
  | 0x2 => some mx6a
  | 0x3 => some mx6b
  | 0x4 => some mx8
  | 0x8 => some bf16
  | 0x9 => some fp16
  | 0xa => some fp24
  | 0xb => some fp32
  | _   => none

/-- MX formats are codes 1 to 4 (R34). -/
def isMx (f : Nat) : Bool := 1 ≤ f && f ≤ 4

/-- Element bytes of one MX block (R39). -/
def mxBytes : Nat → Nat
  | 0x1 => 16
  | 0x4 => 32
  | _   => 24

/-- Bytes of one element in memory (R40): FP24 travels in a 32-bit container. -/
def elemBytes : Nat → Nat
  | 0x8 => 2
  | 0x9 => 2
  | _   => 4

/-- The constant emax of R46. -/
def emaxOf : Nat → Int
  | 0x3 => 4
  | 0x4 => 8
  | _   => 2

/-- n × 2^e as a fraction (numerator, denominator). -/
def pow2Frac (n : Nat) (e : Int) : Nat × Nat :=
  if 0 ≤ e then (n * 2 ^ e.toNat, 1) else (n, 2 ^ (-e).toNat)

/-- n / d rounded to the nearest integer, ties to even (R41). -/
def rneDiv (n d : Nat) : Nat :=
  let q := n / d
  let r := n % d
  if d < 2 * r ∨ (2 * r = d ∧ q % 2 = 1) then q + 1 else q

/-- floor(log2(n / d)) for n, d > 0. -/
def floorLog2 (n d : Nat) : Int :=
  let a : Int := (n.log2 : Int) - (d.log2 : Int)
  let ge := if 0 ≤ a then d * 2 ^ a.toNat ≤ n else d ≤ n * 2 ^ (-a).toNat
  if ge then a else a - 1

/-- The magnitude code of n / d in a format with the exponent unbounded above (R41, steps 1 to 4). -/
def roundMag (f : Fmt) (n d : Nat) : Nat :=
  if n = 0 then 0
  else
    let u : Int := max (floorLog2 n d - f.mant) f.lsb
    let q := if 0 ≤ u then rneDiv n (d * 2 ^ u.toNat) else rneDiv (n * 2 ^ (-u).toNat) d
    (u - f.lsb).toNat * 2 ^ f.mant + q

def Ev.none : Ev := { sat := 0, flush := 0 }

/-- Counts stop at 0xffff_ffff (R52). -/
def satCount (n : Nat) : Nat := min n 0xffffffff

def Ev.add (a b : Ev) : Ev := { sat := satCount (a.sat + b.sat), flush := satCount (a.flush + b.flush) }

def Ev.total (l : List Ev) : Ev := l.foldl Ev.add Ev.none

/-- The sign bit of a code. -/
def signBit (f : Fmt) (neg : Bool) : Nat := if neg then 2 ^ (f.width - 1) else 0

/-- The infinity code of a wide format (R37). -/
def infMag (f : Fmt) : Nat := f.max + 1

/-- The canonical NaN (R44): 0x7fc0, 0x7e00, 0x7f_c000, 0x7fc0_0000; 0x7f in MX8. -/
def nanCode (f : Fmt) : Nat := if f.wide then infMag f + 2 ^ (f.mant - 1) else f.max + 1

/-- A magnitude code is subnormal when its exponent field is 0 and its mantissa is not. -/
def isSubMag (f : Fmt) (m : Nat) : Bool := 0 < m && m < 2 ^ f.mant

/-- The exact value of a code (R36, R37). -/
def decode (f : Fmt) (c : Nat) : Num :=
  let neg := c / 2 ^ (f.width - 1) % 2 = 1
  let m := c % 2 ^ (f.width - 1)
  if f.wide && infMag f < m then .nan
  else if f.wide && m = infMag f then .inf neg
  else if !f.wide && f.max < m then .nan
  else
    let fld := m / 2 ^ f.mant
    let man := m % 2 ^ f.mant
    let p := if fld = 0 then pow2Frac man f.lsb else pow2Frac (2 ^ f.mant + man) (f.lsb + fld - 1)
    .fin neg p.1 p.2

/-- Is the code a subnormal of its own format (R49)? -/
def isSub (f : Fmt) (c : Nat) : Bool := f.wide && isSubMag f (c % 2 ^ (f.width - 1))

/-- An operand as it enters in the suite's subnormal mode (R49): value and flushes. -/
def decodeIn (f : Fmt) (flush : Bool) (c : Nat) : Num × Nat :=
  if flush && isSub f c then (.fin (c / 2 ^ (f.width - 1) % 2 = 1) 0 1, 1) else (decode f c, 0)

/-- Write an exact value into a wide format: round, saturate (R43), flush (R49). -/
def encode (f : Fmt) (flush : Bool) : Num → Nat × Ev
  | .nan => (nanCode f, Ev.none)
  | .inf neg => (signBit f neg + infMag f, Ev.none)
  | .huge neg => (signBit f neg + f.max, { sat := 1, flush := 0 })
  | .fin neg n d =>
    let m := roundMag f n d
    if f.max < m then (signBit f neg + f.max, { sat := 1, flush := 0 })
    else if flush && isSubMag f m then (signBit f neg, { sat := 0, flush := 1 })
    else (signBit f neg + m, Ev.none)

/-- `rne24` of R86: round into FP24, saturate and flush. -/
def rne24 (flush : Bool) (x : Num) : Nat × Ev := encode fp24 flush x

/-- The value of an FP24 lane. -/
def v24 (c : Nat) : Num := decode fp24 c

/-! ## Exact arithmetic, with IEEE 754's special cases (R42 to R44) -/

def Num.neg : Num → Num
  | .nan => .nan
  | .inf s => .inf (!s)
  | .huge s => .huge (!s)
  | .fin s n d => .fin (!s) n d

def Num.abs : Num → Num
  | .nan => .nan
  | .inf _ => .inf false
  | .huge _ => .huge false
  | .fin _ n d => .fin false n d

/-- The exact sum of two finite values: a zero sum is +0 unless both are −0 (R42). -/
def addFin (s1 : Bool) (n1 d1 : Nat) (s2 : Bool) (n2 d2 : Nat) : Num :=
  let a := n1 * d2
  let b := n2 * d1
  let d := d1 * d2
  if s1 = s2 then .fin s1 (a + b) d
  else if b < a then .fin s1 (a - b) d
  else if a < b then .fin s2 (b - a) d
  else .fin false 0 1

def Num.add : Num → Num → Num
  | .nan, _ => .nan
  | _, .nan => .nan
  | .inf s, .inf t => if s = t then .inf s else .nan
  | .inf s, _ => .inf s
  | _, .inf t => .inf t
  | .huge s, _ => .huge s
  | _, .huge t => .huge t
  | .fin s1 n1 d1, .fin s2 n2 d2 => addFin s1 n1 d1 s2 n2 d2

/-- a − b is a + (−b), with the sign of a zero sum as R42 and IEEE 754 give it: (−0) − (+0) is −0 and (−0) − (−0) is +0. DESIGN
CHOICE (log entry 130): of a difference, R42's "unless both operands are −0" and its "This follows IEEE 754" say two things. -/
def Num.sub (a b : Num) : Num := a.add b.neg

/-- Is the value zero? -/
def Num.isZero : Num → Bool
  | .fin _ n _ => n = 0
  | _ => false

def Num.isNeg : Num → Bool
  | .fin s _ _ => s
  | .inf s => s
  | .huge s => s
  | .nan => false

def Num.mul : Num → Num → Num
  | .nan, _ => .nan
  | _, .nan => .nan
  | .fin s1 n1 d1, .fin s2 n2 d2 => .fin (s1 != s2) (n1 * n2) (d1 * d2)
  | a, b =>
    if a.isZero || b.isZero then .nan
    else match a, b with
      | .inf s, b => .inf (s != b.isNeg)
      | a, .inf t => .inf (a.isNeg != t)
      | a, b => .huge (a.isNeg != b.isNeg)

/-- Division: a nonzero finite value by zero is `huge` (R43); 0 / 0 and ∞ / ∞ are NaN. -/
def Num.div : Num → Num → Num
  | .nan, _ => .nan
  | _, .nan => .nan
  | .inf _, .inf _ => .nan
  | .inf s, b => .inf (s != b.isNeg)
  | a, .inf t => .fin (a.isNeg != t) 0 1
  | .fin s1 n1 d1, .fin s2 n2 d2 =>
    if n2 = 0 then (if n1 = 0 then .nan else .huge (s1 != s2)) else .fin (s1 != s2) (n1 * d2) (d1 * n2)
  | a, b => .huge (a.isNeg != b.isNeg)

/-- Multiply by 2^e exactly. -/
def Num.scale2 (e : Int) : Num → Num
  | .fin s n d => if 0 ≤ e then .fin s (n * 2 ^ e.toNat) d else .fin s n (d * 2 ^ (-e).toNat)
  | x => x

/-- a < b in the order of IEEE 754, −0 equal to +0; false on NaN. -/
def Num.lt : Num → Num → Bool
  | .nan, _ => false
  | _, .nan => false
  | .fin s1 n1 d1, .fin s2 n2 d2 =>
    match s1, s2 with
    | false, false => n1 * d2 < n2 * d1
    | true, true => n2 * d1 < n1 * d2
    | true, false => 0 < n1 + n2
    | false, true => false
  | .fin _ _ _, b => !b.isNeg
  | a, .fin _ _ _ => a.isNeg
  | a, b => a.isNeg && !b.isNeg

def Num.le (a b : Num) : Bool := !(b.lt a) && a != .nan && b != .nan

def Num.isNan : Num → Bool
  | .nan => true
  | _ => false

def Num.isFin : Num → Bool
  | .fin _ _ _ => true
  | _ => false

/-- Maximum under R149: NaN when either is NaN, −0 below +0. -/
def Num.maxOp (a b : Num) : Num :=
  if a.isNan || b.isNan then .nan
  else if a.isZero && b.isZero then (if a.isNeg then b else a)
  else if a.lt b then b else a

/-- Minimum under R149. -/
def Num.minOp (a b : Num) : Num :=
  if a.isNan || b.isNan then .nan
  else if a.isZero && b.isZero then (if a.isNeg then a else b)
  else if a.lt b then a else b

/-! ## MX blocks (R38, R44 to R47) -/

/-- The exact value of an MX element under scale code k (R38). -/
def mxValue (f : Fmt) (code k : Nat) : Num :=
  if k = 0xff then .nan else (decode f code).scale2 ((k : Int) - 127)

/-- Write one value into an MX element under 2^x (R43, R44): an infinity and an overflow take the largest element. -/
def mxElem (f : Fmt) (x : Int) (v : Num) : Nat × Nat :=
  match v.scale2 (-x) with
  | .nan => (nanCode f, 0)
  | .inf s => (signBit f s + f.max, 1)
  | .huge s => (signBit f s + f.max, 1)
  | .fin s n d =>
    let m := roundMag f n d
    if f.max < m then (signBit f s + f.max, 1) else (signBit f s + m, 0)

/-- The largest finite magnitude of a list, as a fraction (R46 step 1). -/
def amaxOf (l : List Num) : Nat × Nat :=
  l.foldl (fun m v => match v with
    | .fin _ n d => if m.1 * d < n * m.2 then (n, d) else m
    | _ => m) (0, 1)

/-- The scale code that R46 chooses (steps 1 to 5). A code above 0xfe is written 0xfe (log entry 5). -/
def chooseScale (code : Nat) (f : Fmt) (l : List Num) : Nat :=
  let am := amaxOf l
  if am.1 = 0 then 0x7f
  else
    let x0 := floorLog2 am.1 am.2 - emaxOf code
    let p : Num := (Num.fin false am.1 am.2).scale2 (-x0)
    let big := match p with
      | .fin _ n d => decide (f.max < roundMag f n d)
      | _ => false
    let x := max (if big then x0 + 1 else x0) (-127)
    min (x + 127).toNat 0xfe

/-- What encoding one block gives: scale, element codes, saturations, NaN elements (R44, R46, R47, R51). -/
structure MxOut where
  scale : Nat
  codes : List Nat
  sat   : Nat
  nans  : Nat
  deriving DecidableEq, Repr, Inhabited

/-- Encode a block with a supplied scale (R47). In MX4, MX6a and MX6b a NaN anywhere makes the whole block NaN (R44);
such a block, or one of supplied scale 0xff, counts no saturation. DESIGN CHOICE (log entry 131): R44 does not say whether its
other elements still count. -/
def mxSupplied (code : Nat) (f : Fmt) (k : Nat) (l : List Num) : MxOut :=
  if k = 0xff || (code != 0x4 && l.any Num.isNan) then
    { scale := 0xff, codes := List.replicate l.length 0, sat := 0, nans := 32 }
  else
    let es := l.map (mxElem f ((k : Int) - 127))
    { scale := k, codes := es.map Prod.fst, sat := satCount ((es.map Prod.snd).foldl (· + ·) 0),
      nans := (l.filter Num.isNan).length }

/-- Encode a block with a chosen scale (R46). -/
def mxChosen (code : Nat) (f : Fmt) (l : List Num) : MxOut := mxSupplied code f (chooseScale code f l) l

/-- Split a list into pieces of 32. -/
def chunks (k : Nat) (l : List α) : List (List α) :=
  (List.range ((l.length + k - 1) / k)).map (fun i => (l.drop (i * k)).take k)

/-- Is a code a NaN of its format? -/
def isNanCode (f : Fmt) (c : Nat) : Bool := (decode f c).isNan

end Sys2Proof.Machine
end

