-- ==== Sys2Proof/Config.lean ====
section
/-! DEFINITION. What the spec leaves open: free values. Each is an opaque constant, so that no statement can rest on what
it is. `State.free` counts the draws made so far, and a draw applies the constant to that counter. -/

namespace Sys2Proof

/-- A byte of the part of an alias certificate that the DeviceID key signs, whose layout the spec does not give (R372, R373): draw, the
values that the certificate binds, and place. Log entry 10. -/
opaque Config.certByte : Nat → List Byte → Nat → Byte

/-- A free number: the length of the alias certificate (R373). Log entry 10. -/
opaque Config.certLength : Nat → Nat

/-- The length of what a handoff block holds between its header and its digest, and its bytes (R388 gives no layout): draw, and draw
and place. Log entry 142. -/
opaque Config.handoffLength : Nat → Nat

opaque Config.handoffByte : Nat → Nat → Byte

/-- The secret number of an ECDSA signature, which FIPS 186 leaves to the signer (R374). Log entry 11. -/
opaque Config.nonce : Nat → Nat

/-- The cached sector that a miss replaces (R285 gives no rule). Log entry 12. -/
opaque Config.cacheVictim : Nat → Nat

/-- The bank of a sector of a pseudo-channel (R283: fixed and internal to the controller). Log entry 13. -/
opaque Config.bankOf : Nat → Nat

/-- The row of a sector of a pseudo-channel (R283). Log entry 13. -/
opaque Config.rowOf : Nat → Nat

/-- The rate correction that the pulse servo chooses for a difference (R352 gives no law). Log entry 14. -/
opaque Config.servoRate : Int → Int

/-- The length of the devicetree blob. Log entry 15. -/
opaque Config.blobLength : Nat → Nat

/-- A byte of the devicetree blob that the firmware writes in self-hosted mode (R343 gives no layout): draw, the end of the memory that
the blob describes, and place. Log entry 15. -/
opaque Config.blobByte : Nat → Nat → Nat → Byte

/-- The host core whose interrupt file a vector reaches: its message is routed by a table that no rule gives (R342). Log entry 146. -/
opaque Config.imsicFile : Nat → Nat

/-- The place of a frame in the replay buffer of a UDP peer, whose layout no rule gives (R357): draw. Log entry 106. -/
opaque Config.replayPlace : Nat → Nat

/-- Samples of a line that never arrived, or of a line's missing end (R320 gives none): draw and place. Log entry 24. -/
opaque Config.lostSample : Nat → Nat → Nat

/-- Header fields and bytes of a statistics slot that no rule gives (R318, R322): draw and place. Log entry 25. -/
opaque Config.statByte : Nat → Nat → Byte

/-- What a camera port measures when it is enabled (R304, R332): its lane rate in Mb/s and the code of its lanes. Log entry 26. -/
opaque Config.portRate : Nat → Nat

opaque Config.portLanes : Nat → Nat

/-- Bytes of a decoder's picture store, whose layout no rule gives (R326): draw and place. Log entry 32. -/
opaque Config.storeByte : Nat → Nat → Byte

/-- An Ethernet port's own MAC address (R360 gives no value). Log entry 35. -/
opaque Config.portMac : Nat → Nat

/-- The sequence field of an Abapex frame that takes no sequence of its own (R355, R357): draw. Log entry 36. -/
opaque Config.frameSeq : Nat → Nat

/-- Another producer's entry is complete at the moment at which a remote producer's entry is appended to a merge queue (R117: timing
decides it): draw. Log entry 84. -/
opaque Config.mergeRival : Nat → Bool

/-- The row scale of a row whose Q is NaN (R94, R99: a merged maximum may be NaN and no rule says what follows): Q. Log entry 137. -/
opaque Config.nanScale : Nat → Nat

/-- The array of a core runs the retest of step 5 of a reseat (R78, R416 give its end and not its instants): the reseat's start, the
instant, the core. Log entry 48. -/
opaque Config.retesting : Nat → Nat → Nat → Bool

end Sys2Proof
end

