-- ==== Sys2Proof/Machine/Ops.lean ====
section
/-! DEFINITION. The named operations that every command is built from: maps, bytes, checks, state accessors, interrupts
(R339, R434), the event log (R431 to R433) and notices (R380, R381). -/

namespace Sys2Proof.Machine

/-! ## Maps with rising keys -/

def aGet : AMap α → Nat → Option α
  | [], _ => none
  | (a, v) :: t, k => if a = k then some v else aGet t k

def aSet : AMap α → Nat → α → AMap α
  | [], k, x => [(k, x)]
  | (a, v) :: t, k, x => if k < a then (k, x) :: (a, v) :: t else if a = k then (k, x) :: t else (a, v) :: aSet t k x

def aErase (m : AMap α) (k : Nat) : AMap α := m.filter (fun e => e.1 != k)

/-- Change the value at a key that is present. -/
def aMod (m : AMap α) (k : Nat) (f : α → α) : AMap α := m.map (fun e => if e.1 = k then (e.1, f e.2) else e)

/-- Replace element `i` of a list. -/
def lMod (l : List α) (i : Nat) (f : α → α) : List α :=
  match l, i with
  | [], _ => []
  | a :: t, 0 => f a :: t
  | a :: t, i + 1 => a :: lMod t i f

def lGet (l : List α) (i : Nat) (d : α) : α := l.getD i d

/-! ## Bytes, in little-endian order (R11) -/

def leNat : List Byte → Nat
  | [] => 0
  | b :: t => b.toNat + 256 * leNat t

def toLE : Nat → Nat → List Byte
  | 0, _ => []
  | w + 1, n => BitVec.ofNat 8 n :: toLE w (n / 256)

def beNat (l : List Byte) : Nat := leNat l.reverse

def toBE (w n : Nat) : List Byte := (toLE w n).reverse

/-- The field of `w` bytes at offset `o`. -/
def fld (l : List Byte) (o w : Nat) : Nat := leNat ((l.drop o).take w)

/-- The byte at offset `o`. -/
def byteAt (l : List Byte) (o : Nat) : Nat := (l.getD o 0).toNat

/-- Exactly `n` bytes: cut or padded with zeros. -/
def padTo (n : Nat) (l : List Byte) : List Byte := l.take n ++ List.replicate (n - l.length) 0

def zeros (n : Nat) : List Byte := List.replicate n 0

def allZero (l : List Byte) : Bool := l.all (fun b => b == 0)

/-- Replace the bytes at offset `o`. -/
def putAt (l : List Byte) (o : Nat) (b : List Byte) : List Byte := l.take o ++ b ++ l.drop (o + b.length)

/-- Bit `i` of a number. -/
def bit (n i : Nat) : Bool := n / 2 ^ i % 2 = 1

/-- Bits [hi:lo]. -/
def bits (n hi lo : Nat) : Nat := n / 2 ^ lo % 2 ^ (hi + 1 - lo)

def b2n (b : Bool) : Nat := if b then 1 else 0

def M32 : Nat := 0x100000000

def M48 : Nat := 0x1000000000000

/-- A count that stops at 0xffff_ffff. -/
def inc32 (n : Nat) : Nat := min (n + 1) 0xffffffff

/-- A count that stops at a maximum. -/
def incTo (m n : Nat) : Nat := min (n + 1) m

/-- A two's-complement byte. -/
def s8 (i : Int) : Nat := (i % 256).toNat

def s32 (i : Int) : Nat := (i % 4294967296).toNat

/-- The signed value of a 32-bit word. -/
def signed32 (n : Nat) : Int := if n < 0x80000000 then n else (n : Int) - 0x100000000

/-- a lies before b in serial-number arithmetic of 32 bits (RFC 1982). -/
def serialLt (a b : Nat) : Bool := a != b && (b + M32 - a) % M32 < 0x80000000

/-! ## Checks -/

/-- One bit of CRC-32C, reflected. -/
def crcBit (c : Nat) : Nat := if c % 2 = 1 then (c / 2) ^^^ 0x82f63b78 else c / 2

def crcByte (c : Nat) (b : Byte) : Nat :=
  crcBit (crcBit (crcBit (crcBit (crcBit (crcBit (crcBit (crcBit (c ^^^ b.toNat))))))))

/-- The register after a byte string. The match makes an evaluator work the register out byte by byte. -/
def crcFold : Nat → List Byte → Nat
  | c, [] => c
  | c, b :: t => match crcByte c b with
    | 0 => crcFold 0 t
    | n + 1 => crcFold (n + 1) t

/-- CRC-32C of a byte string. -/
def crc32c (l : List Byte) : Nat := crcFold 0xffffffff l ^^^ 0xffffffff

/-! ## Accessors of the state -/

def State.now (s : State) : Nat := s.ts.count

def State.core (s : State) (n : Nat) : Core := s.cores.getD n Core.empty

def State.setCore (s : State) (n : Nat) (f : Core → Core) : State := { s with cores := lMod s.cores n f }

def State.suite (s : State) (k : Nat) : Suite := s.suites.getD k Suite.free

def State.setSuite (s : State) (k : Nat) (f : Suite → Suite) : State := { s with suites := lMod s.suites k f }

def State.func (s : State) (f : Nat) : Func := s.funcs.getD f Func.reset

def State.setFunc (s : State) (n : Nat) (f : Func → Func) : State := { s with funcs := lMod s.funcs n f }

def State.pair (s : State) (p : Nat) : Pair := s.pairs.getD p Pair.reset

def State.setPair (s : State) (p : Nat) (f : Pair → Pair) : State := { s with pairs := lMod s.pairs p f }

def State.chan (s : State) (p : Nat) : Chan := s.chans.getD p Chan.reset

def State.setChan (s : State) (p : Nat) (f : Chan → Chan) : State := { s with chans := lMod s.chans p f }

def State.cluster (s : State) (x : Nat) : Cluster := s.clusters.getD x Cluster.reset

def State.setCluster (s : State) (x : Nat) (f : Cluster → Cluster) : State := { s with clusters := lMod s.clusters x f }

def State.phy (s : State) (n : Nat) : Phys := s.phys.getD n Phys.reset

def State.setPhys (s : State) (n : Nat) (f : Phys → Phys) : State := { s with phys := lMod s.phys n f }

def State.ring? (s : State) (r : Nat) : Option Ring := aGet s.rings r

def State.setRing (s : State) (r : Nat) (f : Ring → Ring) : State := { s with rings := aMod s.rings r f }

def State.setXlt (s : State) (f : Xlt → Xlt) : State := { s with xlt := f s.xlt }

def State.setFw (s : State) (f : Fw → Fw) : State := { s with fw := f s.fw }

def State.setFab (s : State) (f : Fab → Fab) : State := { s with fab := f s.fab }

def State.setMedia (s : State) (f : Media → Media) : State := { s with media := f s.media }

def State.setHealth (s : State) (f : Health → Health) : State := { s with health := f s.health }

def State.setPower (s : State) (f : Power → Power) : State := { s with power := f s.power }

def State.setTs (s : State) (f : TimeBase → TimeBase) : State := { s with ts := f s.ts }

def State.setOut (s : State) (f : Out → Out) : State := { s with out := f s.out }

/-- One draw of a free value. -/
def State.draw (s : State) : Nat × State := (s.free, { s with free := s.free + 1 })

/-- Physical cluster of logical core n: bits [4:2] (R3). -/
def clusterOf (n : Nat) : Nat := n / 4

/-- Cores of a mask, in ascending order. -/
def coresOf (mask : Nat) : List Nat := (List.range 32).filter (bit mask)

/-- The suite, if any, that holds core n. -/
def State.suiteOf (s : State) (n : Nat) : Option Nat :=
  (List.range 32).find? (fun k => (s.suite k).st != 0 && bit (s.suite k).mask n)

/-- Power-good is high and time runs. -/
def State.on (s : State) : Bool := s.health.powered

/-- Firmware runs an image (not the boot ROM). -/
def State.fwOn (s : State) : Bool := s.on && s.fw.run.isSome

/-- The firmware dispatches nothing during a live-update pause (R387) and after a hub fault (R427). -/
def State.firmwareActs (s : State) : Bool := s.fwOn && s.fw.update != 4 && !s.health.hubFault

/-- A reseat is under way (R416). -/
def State.reseating (s : State) : Bool := s.health.reseatAt.isSome

/-- The device is ready (R415). -/
def State.ready (s : State) : Bool := s.health.phase = 4 || s.health.phase = 5

/-- Is physical cluster x enabled in the grade (R2, R3)? -/
def clusterFitted (grade x : Nat) : Bool :=
  match grade with
  | 1 => x < 8
  | 2 => x % 4 < 3 && x < 8
  | _ => x % 4 < 2 && x < 8

/-! ## Interrupts -/

/-- Does a PCIe message of function f leave now (R335, R336)? In USB and self-hosted mode there is no PCIe. -/
def State.irqOpen (s : State) (f : Nat) : Bool := s.fw.attach != 0 || (s.fw.linkUp && !(s.func f).d3)

/-- An event record of the USB port: vector, function, reserved bytes and stamp (R340). -/
def eventRecord (f v stamp : Nat) : List Byte := toLE 2 v ++ toLE 1 f ++ zeros 5 ++ toLE 8 stamp

/-- Running host cores, which act as function 0, receive its vectors as interrupt identities (R339, R342). -/
def State.hostIrq (s : State) (f v : Nat) : State :=
  s.setOut (fun o => { o with imsic := if f = 0 && s.fw.hostRun then o.imsic ++ [(Config.imsicFile v % 8, v)] else o.imsic })

/-- Raise a vector of a function: sent, or held pending (R336). In USB mode an event record carries it (R339, R340). -/
def State.irq (s : State) (f v : Nat) : State :=
  if s.irqOpen f then
    (s.hostIrq f v).setOut (fun o => { o with
      irqs := o.irqs ++ [(f, v)],
      events := if s.fw.attach = 1 then o.events ++ [eventRecord f v s.now] else o.events })
  else (s.hostIrq f v).setFunc f (fun x => { x with held := if x.held.contains v then x.held else x.held ++ [v] })

/-- A ring or queue interrupt: only vectors 2 to 511 exist (R339). -/
def State.ringIrq (s : State) (f v : Nat) : State := if 2 ≤ v ∧ v ≤ 511 then s.irq f v else s

/-- The eight host cores start (R343): in machine mode, with a0 the core's number and a1 the blob's address. -/
def State.startHost (s : State) (entry blob : Nat) : State :=
  s.setFw (fun f => { f with
    hostRun := true, hostEntry := entry, hostBlob := blob,
    hostCores := (List.range 8).map (fun n => { pc := entry, a0 := n, a1 := blob, machine := true }) })

/-- Send what a function holds pending. -/
def State.flushIrq (s : State) (f : Nat) : State :=
  if s.irqOpen f then
    { s.setOut (fun o => { o with irqs := o.irqs ++ (s.func f).held.map (fun v => (f, v)) }) with
      funcs := lMod s.funcs f (fun x => { x with held := [] }) }
  else s

/-! ## The event log -/

/-- Entries that R432 admits in one second of time base. -/
def logRate : Nat := 1000000

/-- Write an entry: the log takes it, or drops it above the rate (R432). -/
def logPut (l : EventLog) (now : Nat) (e : LogEntry) : EventLog :=
  let sec := now / 1000000000
  let used := if l.second = sec then l.inSecond else 0
  if logRate ≤ used then { l with overflow := inc32 l.overflow, second := sec, inSecond := used }
  else
    let slot := l.next % 4096
    let over1 := if (aGet l.slots slot).isSome then inc32 l.overflow else l.overflow
    { slots := aSet l.slots slot { e with stamp := now, sn := l.next }, next := (l.next + 1) % M32, overflow := over1,
      second := sec, inSecond := used + 1 }

/-- Make an event-log entry and signal it: vector 1 of function 0, and of the entry's virtual function (R434). -/
def State.logE (s : State) (code cls fn suite kind unit a b c : Nat) : State :=
  let e : LogEntry := { stamp := 0, sn := 0, code := code, class_ := cls, fn := fn, suite := suite, kind := kind,
                        unit := unit, a := a % M32, b := b % M32, c := c % M32 }
  let t : State := { s with log := logPut s.log s.now e }
  let t := t.irq 0 1
  if 1 ≤ fn ∧ fn ≤ 16 then t.irq fn 1 else t

/-! ## Notices (R380, R381) -/

/-- The function that owns a pair (R375). -/
def pairOwner (p : Nat) : Nat := if p < 16 then 0 else (p - 16) / 3 + 1

/-- The notice pair of a function (R375). -/
def noticePair (f : Nat) : Nat := if f = 0 then 0 else 16 + 3 * (f - 1)

/-- The pairs of a function. -/
def pairsOf (f : Nat) : List Nat := (List.range 64).filter (fun p => pairOwner p = f)

/-- Has any pair of the function been negotiated (R381)? -/
def State.negotiated (s : State) (f : Nat) : Bool := (pairsOf f).any (fun p => (s.pair p).major != 0)

/-- Queue a notice; a full queue of 256 drops its oldest (R380). Every notice makes a log entry (R433). -/
def State.notice (s : State) (f type suite : Nat) (body : List Byte) : State :=
  let n : Notice := { type := type, suite := suite, body := body }
  let t := s.setFunc f (fun x =>
    if 256 ≤ x.notices.length then { x with notices := x.notices.drop 1 ++ [n], lost := incTo 255 x.lost }
    else { x with notices := x.notices ++ [n] })
  t.logE type 0 f (if suite < 32 then suite else 0xff) 0 0 (fld body 0 4) (fld body 4 4) (fld body 8 4)

/-- A notice to every function whose pairs have been negotiated. -/
def State.noticeAll (s : State) (type : Nat) (body : List Byte) : State :=
  ((List.range 17).filter s.negotiated).foldl (fun t f => t.notice f type 0xffffffff body) s

/-! ## Messages -/

/-- A message of R376 with its check; the check field is 0 while it is computed. -/
def mkMessage (major minor type seq suite : Nat) (body : List Byte) : List Byte :=
  let head := toLE 1 major ++ toLE 1 minor ++ toLE 2 type ++ toLE 2 seq ++ toLE 2 body.length ++ toLE 4 suite
  head ++ toLE 4 (crc32c (head ++ zeros 4 ++ body)) ++ body

/-! ## Outcomes -/

/-- What a command answers. -/
abbrev Res := Host.Outcome State Fault Refusal

/-- The inputs that the outside holds, the PWRGOOD ball and the queue of waiting commands, are after a command as before it. -/
def State.sameInputs (s t : State) : State :=
  { t with health := { t.health with powered := s.health.powered }, pending := s.pending }

/-- A command of a powered device; with PWRGOOD low the device is held in reset and nothing changes (R445; log entry 2). -/
def whenOn (s t : State) : Res := .next (if s.on then s.sameInputs t else s)

/-- A command whose operand names a unit: of a unit that no part has (core 40, pair 64) there is no such event, and nothing changes.
DESIGN CHOICE (log entry 8). -/
def onUnit (ok : Bool) (s t : State) : Res := whenOn s (if ok then t else s)

end Sys2Proof.Machine
end

