-- ==== Sys2Proof/Machine/Bits.lean ====
section
/-! DEFINITION. How element codes lie in bytes (R39, R40), entries and their granules (R113), and the byte arrangement of an
entry on the Abapex link (R355). -/

namespace Sys2Proof.Machine

/-! ## Blocks -/

/-- Width in bits of an MX element. -/
def mxWidth (f : Nat) : Nat :=
  match fmtOf f with
  | some x => x.width
  | none => 8

/-- One MX block's bytes: element i in bits [w·i + w − 1 : w·i] (R39). -/
def packBlock (f : Nat) (codes : List Nat) : List Byte :=
  toLE (mxBytes f) ((codes.mapIdx (fun i c => c % 2 ^ mxWidth f * 2 ^ (mxWidth f * i))).sum)

/-- The 32 element codes of a block's bytes. -/
def unpackBlock (f : Nat) (b : List Byte) : List Nat :=
  (List.range 32).map (fun i => leNat b / 2 ^ (mxWidth f * i) % 2 ^ mxWidth f)

/-- Bytes of one element of a format that is not MX; an FP24 container holds 0 above bit 23 (R40). -/
def packElem (f c : Nat) : List Byte := toLE (elemBytes f) (if f = 0xa then c % 0x1000000 else c)

def unpackElem (f : Nat) (b : List Byte) : Nat := if f = 0xa then leNat b % 0x1000000 else leNat b

/-! ## Entries (R113) -/

/-- Blocks in each row of an MX entry. -/
def blocksOf (cols : Nat) : Nat := (cols + 31) / 32

/-- No element, word, code or record. -/
def Entry.isEmpty (e : Entry) : Bool := e.rows = 0 || e.cols = 0

def ceil512 (n : Nat) : Nat := (n + 511) / 512

/-- Granules that an entry occupies. -/
def Entry.granules (e : Entry) : Nat :=
  if e.isEmpty then 1
  else match e.kind with
    | .tensor =>
      if isMx e.fmt then ceil512 (e.rows * blocksOf e.cols * (mxBytes e.fmt + 1)) else ceil512 (e.rows * e.cols * elemBytes e.fmt)
    | .index => ceil512 (e.rows * e.cols * 4)
    | .record => ceil512 (e.rows * 32)
    | .scale => ceil512 (e.rows * e.cols)
    | .fixed => 1

/-- Granules of a tensor of a format and extent. -/
def tensorGranules (fmt rows cols : Nat) : Nat :=
  Entry.granules { kind := .tensor, fmt := fmt, rows := rows, cols := cols, data := [], scales := [], chip := none, core := 0 }

/-- The empty entry of an instruction (R119, R143). -/
def emptyEntry (kind : EntryKind) (fmt : Nat) : Entry :=
  { kind := kind, fmt := fmt, rows := 0, cols := 0, data := [], scales := [], chip := none, core := 0 }

/-- A tensor entry that is not MX; one without elements is empty. -/
def wideEntry (fmt rows cols : Nat) (data : List Nat) : Entry :=
  if rows = 0 || cols = 0 then emptyEntry .tensor fmt
  else { emptyEntry .tensor fmt with rows := rows, cols := cols, data := data }

/-- An MX tensor entry of element codes padded to whole blocks. -/
def mxEntry (fmt rows cols : Nat) (data scales : List Nat) : Entry :=
  if rows = 0 || cols = 0 then emptyEntry .tensor fmt
  else { emptyEntry .tensor fmt with rows := rows, cols := cols, data := data, scales := scales }

def indexEntry (rows cols : Nat) (words : List Nat) : Entry :=
  if rows = 0 || cols = 0 then emptyEntry .index 0
  else { emptyEntry .index 0 with rows := rows, cols := cols, data := words }

/-- Records of 32 bytes each. -/
def recordEntry (n : Nat) (bytes : List Nat) : Entry :=
  if n = 0 then emptyEntry .record 0 else { emptyEntry .record 0 with rows := n, cols := 1, data := bytes }

def scaleEntry (rows cols : Nat) (codes : List Nat) : Entry :=
  if rows = 0 || cols = 0 then emptyEntry .scale 0
  else { emptyEntry .scale 0 with rows := rows, cols := cols, data := codes }

/-- A fixed block: 1 row and one column for each byte. -/
def fixedEntry (bytes : List Nat) : Entry := { emptyEntry .fixed 0 with rows := 1, cols := bytes.length, data := bytes }

/-- Element at row m, column n of a tensor entry. -/
def Entry.elem (e : Entry) (m n : Nat) : Nat :=
  e.data.getD (if isMx e.fmt then m * (blocksOf e.cols * 32) + n else m * e.cols + n) 0

/-- Scale code of block b of row m. -/
def Entry.scaleAt (e : Entry) (m b : Nat) : Nat := e.scales.getD (m * blocksOf e.cols + b) 0xff

/-- Block b of row m. -/
def Entry.block (e : Entry) (m b : Nat) : Block :=
  { codes := ((e.data.drop ((m * blocksOf e.cols + b) * 32)).take 32), scale := e.scaleAt m b }

/-! ## Entries on the link (R355) -/

/-- Byte 0 of the entry descriptor. -/
def entryCode (e : Entry) : Nat :=
  match e.kind with
  | .tensor => e.fmt
  | .index => 0x80
  | .record => 0x81
  | .fixed => 0x82
  | .scale => 0x83

/-- Contents in their memory arrangement, before padding to whole granules. -/
def entryBytes (e : Entry) : List Byte :=
  match e.kind with
  | .tensor =>
    if isMx e.fmt then
      (chunks 32 e.data).flatMap (packBlock e.fmt) ++ e.scales.map (BitVec.ofNat 8)
    else e.data.flatMap (packElem e.fmt)
  | .index => e.data.flatMap (toLE 4)
  | _ => e.data.map (BitVec.ofNat 8)

/-- The 16-byte descriptor of an entry-start frame. -/
def entryDesc (e : Entry) : List Byte :=
  toLE 1 (entryCode e) ++ toLE 1 (b2n e.isEmpty) ++ [0, 0] ++ toLE 4 e.rows ++ toLE 4 e.cols ++ toLE 4 e.granules

/-- The entry that a descriptor and its contents describe; `chip` and `core` name the producer. -/
def entryFrom (desc data : List Byte) (chip core : Nat) : Entry :=
  let code := byteAt desc 0
  let rows := fld desc 4 4
  let cols := fld desc 8 4
  let e := emptyEntry (if code = 0x80 then .index else if code = 0x81 then .record else if code = 0x82 then .fixed
    else if code = 0x83 then .scale else .tensor) (if code < 0x80 then code else 0)
  let e := { e with rows := rows, cols := cols, chip := some chip, core := core }
  if bit (byteAt desc 1) 0 then { e with rows := 0, cols := 0 }
  else match e.kind with
    | .tensor =>
      if isMx code then
        let n := rows * blocksOf cols
        { e with data := (List.range n).flatMap (fun b => unpackBlock code ((data.drop (b * mxBytes code)).take (mxBytes code))),
                 scales := (List.range n).map (fun b => byteAt data (n * mxBytes code + b)) }
      else
        { e with data := (List.range (rows * cols)).map (fun i =>
          unpackElem code ((data.drop (i * elemBytes code)).take (elemBytes code))) }
    | .index => { e with data := (List.range (rows * cols)).map (fun i => fld data (4 * i) 4) }
    | .record => { e with data := (List.range (rows * 32)).map (byteAt data) }
    | _ => { e with data := (List.range (rows * cols)).map (byteAt data) }

end Sys2Proof.Machine
end

