-- ==== Sys2Proof/Machine/Memory.lean ====
section
/-! DEFINITION. Bytes and addresses: the canonical byte maps, the pseudo-channels' frames (R280, R284), translation and
its cache (R282 to R285), windows (R286), and reads and writes of device space for every requester (R287, R288). -/

namespace Sys2Proof.Machine

/-! ## Canonical byte maps -/

/-- The byte at an address; an unlisted address reads `d`. -/
def memGet (d : Byte) : Mem → Nat → Byte
  | [], _ => d
  | (k, v) :: t, a => if k = a then v else memGet d t a

def memDel : Mem → Nat → Mem
  | [], _ => []
  | (k, v) :: t, a => if a < k then (k, v) :: t else if k = a then t else (k, v) :: memDel t a

def memIns : Mem → Nat → Byte → Mem
  | [], a, b => [(a, b)]
  | (k, v) :: t, a, b =>
    if a < k then (a, b) :: (k, v) :: t else if k = a then (a, b) :: t else (k, v) :: memIns t a b

/-- Write one byte, keeping the canonical form. -/
def memPut (d : Byte) (m : Mem) (a : Nat) (b : Byte) : Mem := if b = d then memDel m a else memIns m a b

def memRead (d : Byte) (m : Mem) (a n : Nat) : List Byte := (List.range n).map (fun i => memGet d m (a + i))

/-- Write bytes at consecutive addresses. -/
def memWrite (d : Byte) : Mem → Nat → List Byte → Mem
  | m, _, [] => m
  | m, a, b :: t => memWrite d (memPut d m a b) (a + 1) t

/-- The canonical form: addresses strictly rising and no byte equal to the default. -/
def Mem.wf (d : Byte) : Mem → Bool
  | [] => true
  | [(_, v)] => v != d
  | (k, v) :: (l, w) :: t => v != d && k < l && Mem.wf d ((l, w) :: t)

/-- HBM before any write: each frame is filled with zeros before its first map (R290, R300). -/
def hbmDefault : Byte := 0

/-- A shelf holds zeros after its march test (R412). -/
def shelfDefault : Byte := 0

/-- Host memory that nobody has written. DESIGN CHOICE (log entry 16). -/
def hostDefault : Byte := 0

/-- A byte of the external flash that nobody has programmed. PRESUMED, an erased NOR device (log entry 17). -/
def flashDefault : Byte := 0xff

/-! ## Shelves, host memory, flash -/

def shelfKey (x off : Nat) : Nat := x * 0x1000000 + off

def State.shelfRead (s : State) (x off n : Nat) : List Byte := memRead shelfDefault s.shelf (shelfKey x off) n

def State.shelfWrite (s : State) (x off : Nat) (b : List Byte) : State :=
  { s with shelf := memWrite shelfDefault s.shelf (shelfKey x off) b }

def State.flashRead (s : State) (a n : Nat) : List Byte := memRead flashDefault s.flash a n

def State.flashWrite (s : State) (a : Nat) (b : List Byte) : State :=
  { s with flash := memWrite flashDefault s.flash a b }

/-! ## Pseudo-channels and frames (R280, R284) -/

def chanPresent (c : Chan) : Bool := c.fitted && !c.retired

def State.present (s : State) (p : Nat) : Bool := p < 64 && chanPresent (s.chan p)

/-- Pseudo-channels of the grade (R2, R280). -/
def State.n0 (s : State) : Nat := if s.fuses.grade = 3 then 32 else 64

/-- Mappable frames of a pseudo-channel (R284). -/
def State.mappable (s : State) : Nat := if s.fuses.grade = 3 then 192256 else 192768

/-- One number for a frame of a pseudo-channel. -/
def frameKey (ch frame : Nat) : Nat := ch * 196608 + frame

/-- Sector number of an HBM byte within its pseudo-channel. -/
def sectorOf (k : Nat) : Nat := k % 805306368 / 64

/-- The queued write to a sector of a pseudo-channel, if any (R292). -/
def queuedWrite (c : Chan) (sector : Nat) : Option WriteReq := c.wq.find? (fun w => w.sector = sector)

/-- A byte of HBM as every later read sees it: a queued write's bytes first (R292). -/
def State.hbmGet (s : State) (k : Nat) : Byte :=
  match queuedWrite (s.chan (k / 805306368)) (sectorOf k) with
  | some w => if bit w.mask (k % 64) then w.data.getD (k % 64) 0 else memGet hbmDefault s.hbm k
  | none => memGet hbmDefault s.hbm k

/-- Put one byte into a queued write (R292: a write to a queued sector merges). -/
def mergeByte (sector off : Nat) (b : Byte) (w : WriteReq) : WriteReq :=
  if w.sector = sector then
    { w with mask := if bit w.mask off then w.mask else w.mask + 2 ^ off, data := (padTo 64 w.data).set off b }
  else w

def State.hbmPut (s : State) (k : Nat) (b : Byte) : State :=
  let p := k / 805306368
  match queuedWrite (s.chan p) (sectorOf k) with
  | some _ => s.setChan p (fun c => { c with wq := c.wq.map (mergeByte (sectorOf k) (k % 64) b) })
  | none => { s with hbm := memPut hbmDefault s.hbm k b }

/-! ## Translation (R282, R283) -/

def pageOf (a : Nat) : Nat := a / 4096

/-- Pages that a range of bytes touches. -/
def pagesOf (a n : Nat) : List Nat :=
  if n = 0 then [] else (List.range (pageOf (a + n - 1) + 1 - pageOf a)).map (· + pageOf a)

def State.xentry (s : State) (v : Nat) : XEntry := (aGet s.xlt.table v).getD (.invalid 0)

/-- Write an entry; an entry of value 0 is not listed. -/
def State.setEntry (s : State) (v : Nat) (e : XEntry) : State :=
  s.setXlt (fun x => { x with table := if e = .invalid 0 then aErase x.table v else aSet x.table v e })

/-- Can function f be reached over PCIe now (R334 to R336)? -/
def State.pcieUp (s : State) (f : Nat) : Bool := s.fw.attach = 0 && s.fw.linkUp && !(s.func f).d3

/-- Does an entry's target answer a read now? -/
def State.entryReads (s : State) : XEntry → Bool
  | .invalid _ => false
  | .hbm f c _ => s.present c && f < 196608
  | .host _ f _ => s.pcieUp f

def State.entryWrites (s : State) : XEntry → Bool
  | .hbm f c w => w && s.present c && f < 196608
  | .host _ _ w => w
  | .invalid _ => false

/-- The frame that an entry maps, by its key. -/
def XEntry.frameKey? : XEntry → Option Nat
  | .hbm f c _ => some (frameKey c f)
  | _ => none

/-- The byte at a device address through an entry. -/
def State.devGet (s : State) (a : Nat) : Byte :=
  match s.xentry (pageOf a) with
  | .hbm f c _ => s.hbmGet (frameKey c f * 4096 + a % 4096)
  | .host p _ _ => memGet hostDefault s.hostMem (p * 4096 + a % 4096)
  | .invalid _ => 0

/-- Write one byte; a posted write to an unreachable host is discarded (R336). -/
def State.devPut (s : State) (a : Nat) (b : Byte) : State :=
  match s.xentry (pageOf a) with
  | .hbm f c _ => s.hbmPut (frameKey c f * 4096 + a % 4096) b
  | .host p f _ => if s.pcieUp f then { s with hostMem := memPut hostDefault s.hostMem (p * 4096 + a % 4096) b } else s
  | .invalid _ => s

def State.devRead (s : State) (a n : Nat) : List Byte := (List.range n).map (fun i => s.devGet (a + i))

/-- Write bytes at consecutive device addresses. -/
def State.devWrite (s : State) : Nat → List Byte → State
  | _, [] => s
  | a, b :: t => (s.devPut a b).devWrite (a + 1) t

/-- Every page of a range can be read, or written. -/
def State.readable (s : State) (a n : Nat) : Bool := (pagesOf a n).all (fun v => s.entryReads (s.xentry v))

def State.writable (s : State) (a n : Nat) : Bool := (pagesOf a n).all (fun v => s.entryWrites (s.xentry v))

/-- One event-log entry for each page of a range whose host request fails while the link is down (R336). -/
def State.logHostFail (s : State) (a n : Nat) : State :=
  (pagesOf a n).foldl (fun t v => match t.xentry v with
    | .host _ f _ => if t.pcieUp f then t else t.logE 0x0023 4 f 0xff 0 0 v 0 0
    | _ => t) s

/-- Is a page's entry in the cache? -/
def State.cached (s : State) (v : Nat) : Bool := s.xlt.cache.any (fun c => c.1 = v / 8 && bit c.2 (v % 8))

/-- Cache the 8 entries of a page's sector (R285): in the place that the sector has, in a free one, or in a victim's. -/
def State.fillCache (s : State) (v : Nat) : State :=
  let c := s.xlt.cache
  if c.any (fun c => c.1 = v / 8) then s.setXlt (fun x => { x with cache := x.cache.map (fun c => if c.1 = v / 8 then (c.1, 255) else c) })
  else if c.length < 2048 then s.setXlt (fun x => { x with cache := x.cache ++ [(v / 8, 255)] })
  else
    let d := s.draw
    d.2.setXlt (fun x => { x with cache := x.cache.set (Config.cacheVictim d.1 % 2048) (v / 8, 255) })

/-- Look a page up in the cache of 16,384 entries; a miss is counted and caches the 8 entries of its sector (R285). -/
def State.touch (s : State) (v : Nat) : State :=
  if s.cached v then s else (s.fillCache v).setXlt (fun x => { x with misses := (x.misses + 1) % M48 })

/-- Look up every page of a range. -/
def State.touchAll (s : State) (a n : Nat) : State := (pagesOf a n).foldl State.touch s

/-- A sector's valid bits without those of the listed pages. -/
def dropValid (pages : List Nat) (c : Nat × Nat) : Nat × Nat :=
  (c.1, ((List.range 8).map (fun i => b2n (bit c.2 i && !pages.contains (8 * c.1 + i)) * 2 ^ i)).sum)

/-- Drop the cached entries of changed pages, and no others (R291 step 1). -/
def State.uncache (s : State) (pages : List Nat) : State :=
  s.setXlt (fun x => { x with cache := (x.cache.map (dropValid pages)).filter (fun c => c.2 != 0) })

/-! ## Windows (R286) -/

/-- Pages of a range that a window covers. -/
def overlapN (first count v n : Nat) : Nat := min (first + count) (v + n) - max first v

/-- The pages v to v + n - 1 all lie in windows that satisfy a test. Windows never overlap. -/
def State.covered (s : State) (test : Window → Bool) (v n : Nat) : Bool :=
  ((s.xlt.windows.filter (fun w => test w.2)).map (fun w => overlapN w.2.first w.2.count v n)).sum = n

/-- Pages from the first to the last that a byte range touches. -/
def pageCount (a n : Nat) : Nat := if n = 0 then 0 else pageOf (a + n - 1) + 1 - pageOf a

/-- A byte range lies in device space and wholly in a function's windows. -/
def State.inFn (s : State) (f a n : Nat) : Bool :=
  a + n ≤ 0x1000000000 && s.covered (fun w => w.owner = f) (pageOf a) (pageCount a n)

/-- A byte range lies wholly in a suite's windows. -/
def State.inSuite (s : State) (k a n : Nat) : Bool :=
  a + n ≤ 0x1000000000 &&
    s.covered (fun w => w.owner = (s.suite k).owner && bit w.mask k) (pageOf a) (pageCount a n)

/-- A function may read, or write, a range of device space. -/
def State.fnReads (s : State) (f a n : Nat) : Bool := s.inFn f a n && s.readable a n

def State.fnWrites (s : State) (f a n : Nat) : Bool := s.inFn f a n && s.writable a n

/-- The firmware's read of a function's block of one page: looked up, where the block can be read. -/
def State.touchBlock (s : State) (f a : Nat) : State := if s.fnReads f a 4096 then s.touchAll a 4096 else s

/-- A write of the firmware or of a hub-die unit: pages looked up, failed host requests logged. -/
def State.hubWrite (s : State) (a : Nat) (b : List Byte) : State :=
  ((s.touchAll a b.length).devWrite a b).logHostFail a b.length

/-! ## BAR2 (R287) -/

/-- A page that function f may reach through BAR2, for a write or a read. -/
def State.bar2Page (s : State) (f v : Nat) (write : Bool) : Bool :=
  (f = 0 || s.covered (fun w => w.owner = f) v 1) &&
    match s.xentry v with
    | .hbm _ c w => s.present c && (w || !write)
    | _ => false

/-- One event-log entry for each disallowed page. -/
def State.logBar2 (s : State) (f a n : Nat) (write : Bool) : State :=
  (pagesOf a n).foldl (fun t v => if t.bar2Page f v write then t else t.logE 0x0021 4 f 0xff 0 0 v (b2n write) 0) s

/-- The bytes that a BAR2 read returns: zeros from a disallowed page. -/
def State.bar2Bytes (s : State) (f a n : Nat) : List Byte :=
  (List.range n).map (fun i => if s.bar2Page f (pageOf (a + i)) false then s.devGet (a + i) else 0)

/-- A BAR2 write: bytes of disallowed pages are discarded. -/
def State.bar2Put (s : State) (f : Nat) : Nat → List Byte → State
  | _, [] => s
  | a, b :: t => (if s.bar2Page f (pageOf a) true then s.devPut a b else s).bar2Put f (a + 1) t

end Sys2Proof.Machine
end

