-- ==== Sys2Proof/Machine/Link.lean ====
section
/-! DEFINITION. Frames that this chip sends over the Abapex link (R354 to R360): headers, the UDP encapsulation, the replay
buffer and the sending of entries, credits and acknowledgements. -/

namespace Sys2Proof.Machine

def State.peer? (s : State) (n : Nat) : Option Peer := aGet s.fab.peers n

def State.setPeer (s : State) (n : Nat) (f : Peer → Peer) : State := s.setFab (fun x => { x with peers := aMod x.peers n f })

/-- The peer of a chip number. -/
def State.peerOf (s : State) (chip : Nat) : Option (Nat × Peer) := s.fab.peers.find? (fun e => e.2.chip = chip)

/-- The queue-end field of R355 without its entry bits. -/
def queueWord (core idx producer : Nat) : Nat := idx % 8192 + core % 32 * 8192 + producer % 32 * 262144

/-- R129: a push that finds no queue end of a suite that runs here is discarded and logged, with its queue-end word and the number of
the chip that it comes from. -/
def State.logDiscard (s : State) (qword chip : Nat) : State :=
  let n := bits qword 17 13
  match s.suiteOf n with
  | some k => s.logE 0x0012 4 (s.suite k).owner k 14 n qword chip 0
  | none => s.logE 0x0012 4 0xff 0xff 14 n qword chip 0

/-! ## Frames (R355) -/

/-- A frame with its check. -/
def linkFrame (type major src dst sn ack qword : Nat) (payload : List Byte) : List Byte :=
  let head := toLE 1 type ++ toLE 1 major ++ toLE 2 payload.length ++ toLE 4 src ++ toLE 4 dst ++ toLE 4 sn ++ toLE 4 ack ++
    toLE 4 qword ++ zeros 4
  head ++ toLE 4 (crc32c (head ++ zeros 4 ++ payload)) ++ payload

/-- The same frame under another sequence, where both sides restart at 0: it acknowledges nothing yet. -/
def renumberFrame (b : List Byte) (sn : Nat) : List Byte :=
  let h := putAt (putAt (putAt b 12 (toLE 4 sn)) 16 (zeros 4)) 28 (zeros 4)
  putAt h 28 (toLE 4 (crc32c h))

/-! ## UDP over IPv6 (R360) -/

/-- The UDP port of a peer; 0 selects 49,573. -/
def Peer.udpPort (p : Peer) : Nat := if p.udp = 0 then 49573 else p.udp

/-- Sum of big-endian 16-bit words, a last odd byte padded with zero. -/
def sum16 : List Byte → Nat
  | a :: b :: t => a.toNat * 256 + b.toNat + sum16 t
  | [a] => a.toNat * 256
  | [] => 0

/-- The ones' complement of the folded sum. -/
def onesSum (n : Nat) : Nat :=
  let f := fun (x : Nat) => x % 65536 + x / 65536
  65535 - f (f (f n))

/-- A UDP datagram with its checksum over the IPv6 pseudo-header. -/
def udpDatagram (src dst : List Byte) (port : Nat) (payload : List Byte) : List Byte :=
  let len := 8 + payload.length
  let head := toBE 2 port ++ toBE 2 port ++ toBE 2 len
  let c := onesSum (sum16 (src ++ dst ++ toBE 4 len ++ toBE 4 17) + sum16 (head ++ [0, 0] ++ payload))
  head ++ toBE 2 (if c = 0 then 65535 else c) ++ payload

/-- The Ethernet frame of a link frame, without FCS. -/
def Peer.ethernet (p : Peer) (payload : List Byte) : List Byte :=
  let udp := udpDatagram p.srcIp p.dstIp p.udpPort payload
  let ip := toBE 4 (0x60000000 + p.dscp * 4 * 0x100000) ++ toBE 2 udp.length ++ [17, 64] ++ p.srcIp ++ p.dstIp ++ udp
  let tag := if bit p.vlan 15 then toBE 2 0x8100 ++ toBE 2 (p.vlan % 4096) else []
  p.mac ++ toBE 6 (Config.portMac p.port) ++ tag ++ toBE 2 0x86dd ++ ip

/-! ## Sending -/

/-- A frame leaves on the peer's path. -/
def State.emit (s : State) (n : Nat) (p : Peer) (b : List Byte) : State :=
  if p.path = 3 then s.setOut (fun o => { o with eth := o.eth ++ [(p.port, p.ethernet b)] })
  else s.setOut (fun o => { o with link := o.link ++ [(n, b)] })

/-- Bytes of the replay buffer: 256 KiB on a direct group (R357). -/
def Peer.capacity (p : Peer) : Nat := if p.path = 3 then p.bufLen else 262144

def Peer.buffered (p : Peer) : Nat := (p.sent.map (fun f => f.bytes.length)).sum

/-- A frame that a UDP peer's replay buffer keeps lies in the device memory of its setup, at a place that no rule gives (R357). -/
def State.keepUdp (s : State) (p : Peer) (b : List Byte) : State :=
  if p.path = 3 then
    let d := s.draw
    d.2.hubWrite (p.bufAddr + Config.replayPlace d.1 % (p.bufLen - b.length + 1)) b
  else s

/-- Send a data or credit frame: it takes the next sequence, stays in the replay buffer and carries an acknowledgement. -/
def State.sendKept (s : State) (n type qword : Nat) (payload : List Byte) : State :=
  match s.peer? n with
  | none => s
  | some p =>
    let b := linkFrame type p.major s.fab.chip p.chip p.txSeq p.rxSeq qword payload
    ((s.setPeer n (fun q => { q with
      txSeq := (q.txSeq + 1) % M32, sent := q.sent ++ [{ sn := q.txSeq, bytes := b }], rxSince := 0, rxAt := s.now,
      sentAt := if q.sent.isEmpty then s.now else q.sentAt,
      ackedAt := if q.sent.isEmpty then s.now else q.ackedAt })).keepUdp p b).emit n p b

/-- Send a frame that is not kept: acknowledge, negative acknowledge or hello. -/
def State.sendPlain (s : State) (n type : Nat) (payload : List Byte) : State :=
  match s.peer? n with
  | none => s
  | some p =>
    let d := s.draw
    let b := linkFrame type p.major s.fab.chip p.chip (Config.frameSeq d.1 % M32) p.rxSeq 0 payload
    (d.2.setPeer n (fun q => { q with rxSince := 0, rxAt := s.now })).emit n p b

/-- Pieces of an entry's padded contents, one for each data frame. -/
def entryPieces (e : Entry) (grains : Nat) : List (List Byte) := chunks (512 * grains) (padTo (512 * e.granules) (entryBytes e))

/-- Bytes that the frames of an entry of `g` granules take in the replay buffer: contents, the descriptor, and a header for each
frame of up to `grains` granules. -/
def entryCost (g grains : Nat) : Nat := 512 * g + 16 + 32 * ((512 * g + 512 * grains - 1) / (512 * grains))

/-- The link accepts a push of `g` granules when the peer is up and its replay buffer has room. -/
def State.linkTakes (s : State) (chip g : Nat) : Bool :=
  match s.peerOf chip with
  | some (_, p) => s.fab.chip != 0xfffff && p.st = 2 && p.buffered + entryCost g p.grains ≤ p.capacity
  | none => false

/-- Send an entry to a queue end of a peer's chip: start and end bits on its first and last frame. -/
def State.sendEntry (s : State) (chip qword : Nat) (e : Entry) : State :=
  match s.peerOf chip with
  | none => s
  | some (n, p) =>
    let ps := entryPieces e p.grains
    let send := fun (t : State) (k : Nat) =>
      let flags := (if k = 0 then 0x80000000 else 0) + (if k + 1 = ps.length then 0x40000000 else 0)
      t.sendKept n 1 (qword + flags) ((if k = 0 then entryDesc e else []) ++ ps.getD k [])
    (List.range ps.length).foldl send s

/-- Granules of a remote producer's popped entry wait for the next credit frame (R356). -/
def State.oweCredit (s : State) (chip qword g : Nat) : State :=
  match s.peerOf chip with
  | some (n, _) => s.setPeer n (fun p => { p with credOut := p.credOut ++ [(qword, g)] })
  | none => s

/-- A credit frame of up to 64 records, when the replay buffer has room for it (R357). -/
def State.sendCredits (s : State) (n : Nat) : State :=
  match s.peer? n with
  | none => s
  | some p =>
    let now := p.credOut.take 64
    if p.st != 2 || now.isEmpty || p.capacity < p.buffered + 32 + 8 * now.length then s
    else (s.setPeer n (fun q => { q with credOut := q.credOut.drop 64 })).sendKept n 2 0
      (now.flatMap (fun r => toLE 4 r.1 ++ toLE 4 r.2))

/-- Resend every kept frame from a sequence on; each adds 1 to the replay count (R357). -/
def State.resend (s : State) (n sn : Nat) : State :=
  match s.peer? n with
  | none => s
  | some p =>
    let fs := p.sent.filter (fun f => f.sn = sn || serialLt sn f.sn)
    let t := s.setPeer n (fun q => { q with replays := min (q.replays + fs.length) 0xffffffff, sentAt := s.now })
    fs.foldl (fun t f => t.emit n p f.bytes) t

/-- A peer whose sequences restart at 0 after this chip drew a new epoch: its kept frames stay, under new sequences (R358, R361). -/
def Peer.restart (p : Peer) : Peer :=
  { p with st := 1, txSeq := p.sent.length % M32, rxSeq := 0,
           sent := p.sent.mapIdx (fun i f => { sn := i, bytes := renumberFrame f.bytes i }), held := [], partials := [],
           acked := 0, nakAt := none, rxSince := 0 }

end Sys2Proof.Machine
end

