-- ==== Sys2Proof/Machine/Rings.lean ====
section
/-! DEFINITION. Host-visible rings (R246 to R250): indices, index words, flag bindings, completion entries that are due,
and pinned slots (R255). -/

namespace Sys2Proof.Machine

/-- Entries that a ring holds (R247). -/
def Ring.held (r : Ring) : Nat := (r.p + M32 - r.c) % M32

def Ring.slots (r : Ring) : Nat := 2 ^ r.cntLog

def Ring.free (r : Ring) : Nat := r.slots - r.held

/-- The device address of the slot of entry index i (R247). -/
def Ring.slotAddr (r : Ring) (i : Nat) : Nat := r.base + i % r.slots * 2 ^ r.slotLog

/-- The device side of a ring stops (R288): one event-log entry with the page. -/
def State.ringStop (s : State) (rn page : Nat) : State :=
  match s.ring? rn with
  | none => s
  | some r => (s.setRing rn (fun x => { x with stopped := true, rejected := true })).logE 0x0022 4 r.owner 0xff 9 rn page 0 0

/-- Can the device side of a ring reach this range, for a read or a write? -/
def State.ringReads (s : State) (r : Ring) (a n : Nat) : Bool := s.fnReads r.owner a n

def State.ringWrites (s : State) (r : Ring) (a n : Nat) : Bool := s.fnWrites r.owner a n

/-- Write the index word: P, C and eight zero bytes in the 16 bytes below the base (R249). -/
def State.ringIndexWord (s : State) (rn : Nat) : State :=
  match s.ring? rn with
  | none => s
  | some r =>
    if s.ringWrites r (r.base - 16) 16 then s.hubWrite (r.base - 16) (toLE 4 r.p ++ toLE 4 r.c ++ zeros 8)
    else s.ringStop rn (pageOf (r.base - 16))

/-- The interrupt of a ring, when enabled (R246, R249). -/
def State.ringSignal (s : State) (rn : Nat) : State :=
  match s.ring? rn with
  | none => s
  | some r => if r.intr then s.ringIrq r.owner r.vector else s

/-- The device has advanced an index: the interrupt follows the write of the index word, and so a word that cannot be written
raises none (R249, R288). -/
def State.ringAdvanced (s : State) (rn : Nat) : State :=
  match s.ring? rn with
  | none => s
  | some r => if s.ringWrites r (r.base - 16) 16 then (s.ringIndexWord rn).ringSignal rn else s.ringIndexWord rn

/-- The device advances P by 1. -/
def State.ringAdvP (s : State) (rn : Nat) : State :=
  (s.setRing rn (fun r => { r with p := (r.p + 1) % M32 })).ringAdvanced rn

/-- The device advances C by 1. -/
def State.ringAdvC (s : State) (rn : Nat) : State :=
  (s.setRing rn (fun r => { r with c := (r.c + 1) % M32 })).ringAdvanced rn

/-- Write an entry's bytes at P and advance P; a slot that cannot be written stops the ring (R288). -/
def State.ringAppend (s : State) (rn : Nat) (b : List Byte) : State :=
  match s.ring? rn with
  | none => s
  | some r =>
    if r.stopped then s
    else if s.ringWrites r (r.slotAddr r.p) b.length then (s.hubWrite (r.slotAddr r.p) b).ringAdvP rn
    else s.ringStop rn (pageOf (r.slotAddr r.p))

/-! ## Flags of clusters -/

/-- Add to a shelf flag (R120: modulo 2^32). -/
def State.addShelfFlag (s : State) (x l n : Nat) : State :=
  s.setCluster x (fun c => { c with flags := aSet c.flags l (((aGet c.flags l).getD 0 + n) % M32) })

/-- The flag binding of a ring adds n (R246); a binding to no suite or outside its grant is inert, and a halted suite's flags are
frozen (R135). -/
def State.ringFlag (s : State) (rn n : Nat) : State :=
  match s.ring? rn with
  | none => s
  | some r =>
    let k := s.suite r.flagSuite
    match k.grants[r.flagX]? with
    | none => s
    | some g =>
      if r.flagOn && k.st != 0 && k.st != 5 && g.flag0 ≤ r.flagIdx && r.flagIdx < g.flag0 + g.flags && n != 0 then
        s.addShelfFlag r.flagX r.flagIdx n
      else s

/-! ## Doorbells (R248) -/

/-- A doorbell write is rejected: logged, and `rejected` set; that of a ring which is not set up stands in `ringRejects` until it
is. -/
def State.doorbellReject (s : State) (f rn v : Nat) : State :=
  match s.ring? rn with
  | none => { (s.logE 0x0020 4 f 0xff 9 rn v 0 0) with ringRejects := if s.ringRejects.contains rn then s.ringRejects else s.ringRejects ++ [rn] }
  | some r => (s.setRing rn (fun x => { x with rejected := true })).logE 0x0020 4 f 0xff 9 rn v r.p r.c

/-- The host advances P (kinds 0 and 3) or C (kinds 1, 2 and 4). `v` is a 32-bit word. -/
def State.doorbell (s : State) (f rn v : Nat) : State :=
  match s.ring? rn with
  | none => s.doorbellReject f rn v
  | some r =>
    if r.owner != f || (r.kind = 0 && (s.func f).orphan) then s.doorbellReject f rn v
    else if r.kind = 0 || r.kind = 3 then
      if r.slots < (v + M32 - r.c) % M32 then s.doorbellReject f rn v
      else
        let n := (v + M32 - r.p) % M32
        (s.setRing rn (fun x => { x with p := v })).ringFlag rn (if n ≤ r.slots then n else 0)
    else
      if r.slots < (r.p + M32 - v) % M32 then s.doorbellReject f rn v
      else
        let n := (v + M32 - r.c) % M32
        (s.setRing rn (fun x => { x with c := v })).ringFlag rn (if r.kind = 2 && n ≤ r.slots then n else 0)

/-! ## Completion entries (R250) -/

/-- A completion entry becomes due on a ring at the present instant. -/
def State.due (s : State) (rn tag kind status cause suite count : Nat) (a : After) : State :=
  { s with comps := s.comps ++ [{ ring := rn, tag := tag, kind := kind, status := status, cause := cause, suite := suite,
                                  count := count, stamp := s.now, after := a }] }

/-- The 32 bytes of R250. -/
def Comp.bytes (c : Comp) : List Byte :=
  toLE 8 c.tag ++ toLE 1 c.kind ++ toLE 1 c.status ++ toLE 1 c.cause ++ toLE 1 c.suite ++ toLE 4 c.count ++
    toLE 8 c.stamp ++ zeros 8

/-- A change of a suite's state that a completion entry of kind 2 reports (R244). -/
def State.dueState (s : State) (k st cause : Nat) : State := s.due (s.suite k).compRing 0 2 st cause k 0 .none

/-- Does an earlier completion entry of the suite still wait (R253)? -/
def State.compWaits (s : State) (k : Nat) : Bool := s.comps.any (fun c => c.suite = k)

/-! ## Pins (R255) -/

/-- A pin holds a slot of its ring. -/
def pinHits (r : Ring) (rn slot : Nat) (p : Pin) : Bool := p.ring = rn && p.index % r.slots = slot

/-- Is a slot of an ingest ring pinned, by a dispatched entry or by an encode job (R255, R331)? -/
def State.pinned (s : State) (rn slot : Nat) : Bool :=
  match s.ring? rn with
  | none => false
  | some r =>
    s.suites.any (fun k => match k.disp with
      | some d => d.pins.any (pinHits r rn slot)
      | none => false) ||
    s.media.sessions.any (fun e => match e.2.job with
      | some j => pinHits r rn slot j.2.2
      | none => false)

/-- The rings of a function, in ascending order. -/
def State.ringsOf (s : State) (f : Nat) : List (Nat × Ring) := s.rings.filter (fun e => e.2.owner = f)

/-- A completion entry of kind 3 to each of a function's completion rings (R264, R266). -/
def State.dueEvent (s : State) (f status : Nat) : State :=
  ((s.ringsOf f).filter (fun e => e.2.kind = 1)).foldl (fun t e => t.due e.1 0 3 status 0 0xff 0 .none) s

end Sys2Proof.Machine
end

