-- ==== Sys2Proof/Machine/Mailbox.lean ====
section
/-! DEFINITION. Mailboxes (R375 to R384): what the firmware takes, the checks of R378, sequences (R379), replies and notices
(R377, R380), and the messages about a function itself. -/

namespace Sys2Proof.Machine

/-! ## Requests -/

/-- A request as the firmware reads it from `mbx.request`. -/
structure Req where
  fn    : Nat
  pair  : Nat
  major : Nat
  minor : Nat
  type  : Nat
  seq   : Nat
  len   : Nat
  suite : Nat
  crcOk : Bool
  body  : List Byte
  deriving DecidableEq, Repr, Inhabited

/-- Read a message of a pair (R376). Bytes beyond the body length are ignored. -/
def parseReq (p : Nat) (m : List Byte) : Req :=
  let len := fld m 6 2
  let body := (m.drop 16).take (min len 240)
  { fn := pairOwner p, pair := p, major := byteAt m 0, minor := byteAt m 1, type := fld m 2 2, seq := fld m 4 2,
    len := len, suite := fld m 8 4, body := body,
    crcOk := crc32c (m.take 12 ++ zeros 4 ++ body) = fld m 12 4 }

/-- Body length of each defined request type (R381). -/
def msgLen : Nat → Option Nat
  | 0x0001 => some 20
  | 0x0002 => some 0
  | 0x0003 => some 16
  | 0x0010 => some 200
  | 0x0011 => some 152
  | 0x0012 => some 0
  | 0x0013 => some 16
  | 0x0014 => some 20
  | 0x0015 => some 24
  | 0x0018 => some 24
  | 0x0020 => some 40
  | 0x0021 => some 16
  | 0x0022 => some 4
  | 0x0023 => some 32
  | 0x0024 => some 44
  | 0x0025 => some 24
  | 0x0030 => some 16
  | 0x0031 => some 4
  | 0x0032 => some 72
  | 0x0033 => some 16
  | 0x0034 => some 16
  | 0x0035 => some 24
  | 0x0040 => some 8
  | 0x0041 => some 80
  | 0x0042 => some 0
  | 0x0043 => some 16
  | 0x0044 => some 0
  | 0x0045 => some 4
  | 0x0046 => some 4
  | 0x0047 => some 16
  | 0x0048 => some 4
  | _ => none

/-- Types that R381 marks as service. -/
def isService (t : Nat) : Bool := [0x0001, 0x0040, 0x0041, 0x0042, 0x0043, 0x0044].contains t

/-- Types that only function 0 sends (R381). -/
def fn0Only (t : Nat) : Bool :=
  [0x0010, 0x0030, 0x0031, 0x0032, 0x0033, 0x0034, 0x0035, 0x0043, 0x0044, 0x0045, 0x0046, 0x0047].contains t

/-- Messages about a suite (R378 check 8). -/
def isSuiteMsg (t : Nat) : Bool := t = 0x0011 || t = 0x0012 || t = 0x0013

/-- Is function 0 attached over PCIe or the host cores (R384)? -/
def State.fn0Attached (s : State) : Bool := (s.fw.attach = 0 && s.fw.linkUp) || s.fw.hostRun

/-- Does a recovery image run (R367, R370)? -/
def State.recovery (s : State) : Bool :=
  match s.fw.run with
  | some i => i.kind = 1
  | none => false

/-- Types that the firmware answers now: all of them once ready; before ready negotiation, heartbeat and service (R407); only
service in phase 6, under the recovery image and after a hub fault (R370, R415, R427); none during a pause (R387). -/
def State.answers (s : State) (t : Nat) : Bool :=
  s.fwOn && s.fw.update != 4 &&
    if s.health.hubFault || s.health.phase = 6 || s.recovery then isService t
    else s.ready || isService t || t = 0x0002

/-- The request that the firmware would take from a pair now: the reply to the last one has been sent (R375). -/
def State.request (s : State) (p : Nat) : Option Req :=
  let x := s.pair p
  let r := parseReq p x.req
  if p < 64 && x.reqV && x.due.isNone && !x.busy && s.answers r.type then some r else none

/-- The outcome of the checks of R378. -/
inductive Verdict where
  | ok
  | refuse (status : Nat) (extra : List Byte)
  | again
  deriving DecidableEq, Repr

/-- Check 7: may this sender send this type (R381, R384)? The recovery image accepts the service types on every pair. -/
def State.mayType (s : State) (r : Req) : Bool :=
  let usb := s.fw.attach != 1 && r.pair = 15
  (s.recovery && isService r.type) || !(fn0Only r.type && r.fn != 0) && r.type != 0x0048 &&
    !(usb && !isService r.type) &&
    !(usb && (r.type = 0x0043 || r.type = 0x0044) && s.fn0Attached)

/-- The orphan status of a type (R378 check 9). -/
def orphanStatus (t : Nat) : Nat :=
  if t = 0x0011 then 0x06 else if t = 0x0020 || t = 0x0024 || t = 0x0025 then 0x35 else 0xf6

/-- The checks of R378 in their order. -/
def State.verdict (s : State) (r : Req) : Verdict :=
  let x := s.pair r.pair
  if !r.crcOk then .refuse 0xf0 []
  else if r.type != 1 && x.major = 0 then .refuse 0xf8 []
  else if r.type != 1 && (r.major != x.major || x.minor < r.minor) then .refuse 0xf1 []
  else if r.type != 1 && r.seq = x.lastSeq && !x.stored.isEmpty then .again
  else if r.type != 1 && r.seq != (x.lastSeq + 1) % 65536 then .refuse 0xf4 (toLE 2 ((x.lastSeq + 1) % 65536))
  else match msgLen r.type with
    | none => .refuse 0xf2 []
    | some n =>
      if r.len != n then .refuse 0xf3 []
      else if !s.mayType r then .refuse 0xf5 []
      else if (if isSuiteMsg r.type then 32 ≤ r.suite else r.suite != 0xffffffff) then .refuse 0xf7 []
      else if (s.func r.fn).orphan && r.type != 1 && r.type != 3 then .refuse (orphanStatus r.type) []
      else .ok

/-! ## Replies -/

/-- Put a message into `mbx.reply`, set `reply_valid` and raise vector 0 (R377); it waits while a reply is unread. -/
def State.deliver (s : State) (p : Nat) (m : List Byte) : State :=
  if (s.pair p).replyV then s.setPair p (fun x => { x with due := some m })
  else (s.setPair p (fun x => { x with reply := padTo 256 m, replyV := true })).irq (pairOwner p) 0

/-- A reply's bytes: the type with bit 15 set, the request's sequence and suite, status first (R376, R378). -/
def State.replyBytes (s : State) (r : Req) (status : Nat) (extra : List Byte) : List Byte :=
  let x := s.pair r.pair
  let v := if x.major = 0 then (r.major, r.minor) else (x.major, x.minor)
  mkMessage v.1 v.2 (r.type % 0x8000 + 0x8000) r.seq r.suite (toLE 4 status ++ extra)

/-- Answer an accepted request; the reply is kept for a repeat (R379). -/
def State.answer (s : State) (r : Req) (status : Nat) (extra : List Byte) : State :=
  let m := s.replyBytes r status extra
  (s.setPair r.pair (fun x => { x with stored := m, busy := false })).deliver r.pair m

/-- What the firmware does with an accepted request: the state after it and the reply's status and fields, or no reply yet. -/
abbrev Act := State → Req → State × Option (Nat × List Byte)

/-- The firmware takes a request: it clears `req_valid` (R377). -/
def State.take (s : State) (p : Nat) : State := s.setPair p (fun x => { x with reqV := false })

/-- Serve an accepted request: its sequence becomes the last accepted; an answer still due keeps the pair busy (R375). -/
def State.accept (s : State) (r : Req) (act : Act) : State :=
  let t := s.setPair r.pair (fun x => { x with lastSeq := r.seq, stored := [], busy := true, asked := x.req })
  let o := act t r
  match o.2 with
  | some a => o.1.answer r a.1 a.2
  | none => o.1

/-- Apply the checks to a taken request and act on it, refuse it or repeat its reply. -/
def State.serveReq (s : State) (r : Req) (act : Act) : State :=
  match s.verdict r with
  | .ok => (s.take r.pair).accept r act
  | .refuse st extra => (s.take r.pair).deliver r.pair (s.replyBytes r st extra)
  | .again => (s.take r.pair).deliver r.pair (s.pair r.pair).stored

/-- One message command: it is the event of its own type only. -/
def State.serve (s : State) (p type : Nat) (act : Act) : State :=
  match s.request p with
  | some r => if r.type = type then s.serveReq r act else s
  | none => s

/-- The answer to a request whose reply was still due (R230, R291, R386). -/
def State.answerLate (s : State) (p status : Nat) (extra : List Byte) : State :=
  if (s.pair p).busy then s.answer (parseReq p (s.pair p).asked) status extra else s

/-! ## Messages about a function -/

/-- Versions of this firmware (R219, R359, R383): mailbox 1.0, container 1.0, tile interface 1.0, Abapex 1.0. -/
def mailboxMajor : Nat := 1

def mailboxMinor : Nat := 0

/-- The highest minor that a request lists for the firmware's major: pair i at bytes 2i and 2i + 1 (log entry 20). -/
def listedMinor (body : List Byte) : Option Nat :=
  ((List.range 4).filter (fun i => byteAt body (2 * i) = mailboxMajor)).foldl
    (fun m i => some (max (m.getD 0) (byteAt body (2 * i + 1)))) none

/-- `fw_version` of an image: its 4 version bytes. -/
def State.fwVersion (s : State) : Nat :=
  match s.fw.run with
  | some i => i.version
  | none => 0

/-- Version negotiation (R383). The reply's fields stand in the order that R383 lists them (log entry 20). -/
def actNegotiate (s : State) (r : Req) : State × Option (Nat × List Byte) :=
  match listedMinor r.body with
  | none => (s, some (0xf1, []))
  | some m =>
    let v := min m mailboxMinor
    let t := s.setPair r.pair (fun x => { x with major := mailboxMajor, minor := v, lastSeq := r.seq })
    (t, some (0, toLE 1 mailboxMajor ++ toLE 1 v ++ toLE 4 s.fwVersion ++ toLE 1 r.fn ++ toLE 1 (noticePair r.fn) ++
      [1, 0, 0, 0, 0, 0, 0, 0] ++ [1, 0] ++ [1, 0]))

/-- Heartbeat (R264): the function's heartbeat time restarts. -/
def actHeartbeat (s : State) (r : Req) : State × Option (Nat × List Byte) :=
  (s.setFunc r.fn (fun f => { f with beat := some s.now }), some (0, []))

/-- A negotiation that finds no common major is not accepted: it leaves the pair's last number (R379, R383). -/
def serveNegotiate (s : State) (p : Nat) : State :=
  match s.request p with
  | some r =>
    if r.type = 1 then
      match s.verdict r with
      | .ok =>
        match listedMinor r.body with
        | some _ => s.serveReq r actNegotiate
        | none => (s.take p).deliver p (s.replyBytes r 0xf1 [])
      | _ => s.serveReq r actNegotiate
    else s
  | none => s

/-- A request whose check fails or whose type is undefined (R378). -/
def serveUndefined (s : State) (p : Nat) : State :=
  match s.request p with
  | some r =>
    match s.verdict r with
    | .refuse _ _ => s.serveReq r (fun t _ => (t, none))
    | _ => s
  | none => s

/-- Writing 1 to `reply_valid` clears it (R377 step 4); a reply that waited for it is delivered. -/
def State.ackReply (s : State) (p : Nat) : State :=
  let x := s.pair p
  if x.replyV then
    let t := s.setPair p (fun x => { x with replyV := false, due := none })
    match x.due with
    | some m => t.deliver p m
    | none => t
  else s

/-- Deliver the oldest notice of a function on its notice pair (R380). The pair's own series numbers it. -/
def State.deliverNotice (s : State) (f : Nat) : State :=
  let p := noticePair f
  let x := s.func f
  match x.notices with
  | [] => s
  | n :: rest =>
    if s.fwOn && s.fw.update != 4 && !(s.pair p).replyV && (s.pair p).due.isNone then
      let m := mkMessage (s.pair p).major (s.pair p).minor n.type x.noticeNo n.suite n.body
      (s.setFunc f (fun y => { y with notices := rest, noticeNo := (y.noticeNo + 1) % 65536 })).deliver p m
    else s

/-! ## Commands -/

/-- A mailbox message of one type on a pair. -/
def message (p type : Nat) (act : Act) (s : State) : Res := onUnit (p < 64) s (s.serve p type act)

/-- VERSION_NEGOTIATION (R383). -/
def execVersionNegotiation (p : Nat) (s : State) : Res := onUnit (p < 64) s (serveNegotiate s p)

/-- HEARTBEAT (R264). -/
def execHeartbeat (p : Nat) (s : State) : Res := message p 0x0002 actHeartbeat s

/-- UNDEFINED_TYPE_REQUEST (R378). -/
def execUndefinedTypeRequest (p : Nat) (s : State) : Res := onUnit (p < 64) s (serveUndefined s p)

/-- NOTICE_DELIVERY (R380). -/
def execNoticeDelivery (f : Nat) (s : State) : Res := onUnit (f < 17) s (s.deliverNotice f)

/-- MBX_REPLY_ACK (R377): through a function that does not own the pair the write is ignored (R393). -/
def execMbxReplyAck (f p : Nat) (s : State) : Res :=
  onUnit (f < 17 && p < 64) s (if f = 0 || pairOwner p = f then s.ackReply p else s)

end Sys2Proof.Machine
end

