-- ==== Sys2Proof/Machine/Suites.lean ====
section
/-! DEFINITION. Suites, rings and batching (R242 to R268): creation and release, ring setup, dispatch, completion,
continuous batching, functions, orphan mode and adoption. -/

namespace Sys2Proof.Machine

/-! ## Allocations (R262, R382) -/

/-- Two ranges share an element. -/
def clash (a n b m : Nat) : Bool := n != 0 && m != 0 && a < b + m && b < a + n

def grantClash (g h : Grant) : Bool :=
  clash g.unit0 g.units h.unit0 h.units || clash g.flag0 g.flags h.flag0 h.flags || clash g.hub0 g.hubs h.hub0 h.hubs

/-- An empty range lies within every range. -/
def rangeIn (a n b m : Nat) : Bool := n = 0 || (b ≤ a && a + n ≤ b + m)

def grantIn (g h : Grant) : Bool :=
  rangeIn g.unit0 g.units h.unit0 h.units && rangeIn g.flag0 g.flags h.flag0 h.flags && rangeIn g.hub0 g.hubs h.hub0 h.hubs

def Grant.none : Grant := { unit0 := 0, units := 0, flag0 := 0, flags := 0, hub0 := 0, hubs := 0 }

/-- The 12-byte grant record of R242. -/
def parseGrant (b : List Byte) : Grant :=
  { unit0 := fld b 0 2, units := fld b 2 2, flag0 := fld b 4 2, flags := fld b 6 2, hub0 := byteAt b 8, hubs := byteAt b 9 }

/-- Grants of clusters 0 to 7 that stand at an offset of a body. -/
def parseGrants (body : List Byte) (o : Nat) : List Grant :=
  (List.range 8).map (fun x => parseGrant ((body.drop (o + 12 * x)).take 12))

/-- Reserved bytes 10 and 11 of each grant record are 0. -/
def grantsReserved (body : List Byte) (o : Nat) : Bool :=
  (List.range 8).all (fun x => fld body (o + 12 * x + 10) 2 = 0)

/-- A grant lies within a cluster's 16 MiB, 256 flags and 64 hub entries. -/
def Grant.fits (g : Grant) : Bool :=
  g.unit0 ≤ 4095 && g.unit0 + g.units ≤ 4096 && g.flag0 ≤ 255 && g.flag0 + g.flags ≤ 256 && g.hub0 ≤ 63 &&
    g.hub0 + g.hubs ≤ 64

def Grant.isEmpty (g : Grant) : Bool := g.units = 0 && g.flags = 0 && g.hubs = 0

def grantAt (l : List Grant) (x : Nat) : Grant := l.getD x Grant.none

/-- Grants of two lists share something of a cluster. -/
def grantsClash (l m : List Grant) : Bool := (List.range 8).any (fun x => grantClash (grantAt l x) (grantAt m x))

def grantsIn (l m : List Grant) : Bool := (List.range 8).all (fun x => grantIn (grantAt l x) (grantAt m x))

/-- The virtual functions' allocations. -/
def State.vfAllocs (s : State) : List Alloc := (s.funcs.drop 1).map Func.alloc

/-- May function f use core n? -/
def State.ownsCore (s : State) (f n : Nat) : Bool :=
  if f = 0 then s.vfAllocs.all (fun a => !bit a.mask n) else bit (s.func f).alloc.mask n

def State.ownsRing (s : State) (f r : Nat) : Bool :=
  if f = 0 then s.vfAllocs.all (fun a => !(a.ring0 ≤ r && r < a.ring0 + a.rings))
  else (s.func f).alloc.ring0 ≤ r && r < (s.func f).alloc.ring0 + (s.func f).alloc.rings

def State.ownsGrants (s : State) (f : Nat) (l : List Grant) : Bool :=
  if f = 0 then s.vfAllocs.all (fun a => !grantsClash l a.grants) else grantsIn l (s.func f).alloc.grants

/-- Suites that the virtual functions' allocations sum to. -/
def State.vfSuites (s : State) : Nat := (s.vfAllocs.map Alloc.suites).sum

/-- Suites that function f may hold at once (R382). -/
def State.suiteLimit (s : State) (f : Nat) : Nat := if f = 0 then 32 - s.vfSuites else (s.func f).alloc.suites

/-- Suites that function f holds. -/
def State.suitesOf (s : State) (f : Nat) : List Nat :=
  (List.range 32).filter (fun k => (s.suite k).st != 0 && (s.suite k).owner = f)

/-- The allocation message's fields in range. -/
def allocRange (b : List Byte) : Bool :=
  1 ≤ byteAt b 0 && byteAt b 0 ≤ 16 && byteAt b 1 ≤ 32 && fld b 2 2 = 0 && fld b 8 4 ≤ 65535 && fld b 12 4 ≤ 65536 &&
    fld b 8 4 + fld b 12 4 ≤ 65536 && (parseGrants b 16).all Grant.fits && grantsReserved b 16 && allZero (b.drop 112)

/-- The allocation that a message describes. -/
def allocOf (b : List Byte) : Alloc :=
  { suites := byteAt b 1, mask := fld b 4 4, ring0 := fld b 8 4, rings := fld b 12 4, grants := parseGrants b 16 }

/-- It overlaps another virtual function's allocation, or the suite counts sum above 32. -/
def State.allocOverlaps (s : State) (f : Nat) (a : Alloc) : Bool :=
  let rest := ((List.range 16).map (· + 1)).filter (· != f)
  rest.any (fun g =>
    let o := (s.func g).alloc
    a.mask &&& o.mask != 0 || clash a.ring0 a.rings o.ring0 o.rings || grantsClash a.grants o.grants) ||
    32 < a.suites + (rest.map (fun g => (s.func g).alloc.suites)).sum

/-- It withdraws what the function holds in use, or leaves too few suites (R382, 0x82). -/
def State.allocWithdraws (s : State) (f : Nat) (a : Alloc) : Bool :=
  let mine := s.suitesOf f
  let rest := ((List.range 16).map (· + 1)).filter (· != f)
  mine.any (fun k => (coresOf (s.suite k).mask).any (fun n => !bit a.mask n) || !grantsIn (s.suite k).grants a.grants) ||
    (s.ringsOf f).any (fun e => !(a.ring0 ≤ e.1 && e.1 < a.ring0 + a.rings)) ||
    a.suites < mine.length ||
    32 - (a.suites + (rest.map (fun g => (s.func g).alloc.suites)).sum) < (s.suitesOf 0).length

/-- Allocation (R382). -/
def actAllocation (s : State) (r : Req) : State × Option (Nat × List Byte) :=
  let f := byteAt r.body 0
  let a := allocOf r.body
  if !allocRange r.body then (s, some (0x80, []))
  else if s.allocOverlaps f a then (s, some (0x81, []))
  else if s.allocWithdraws f a then (s, some (0x82, []))
  else (s.setFunc f (fun x => { x with alloc := a }), some (0, []))

/-! ## Rings (R246) -/

/-- Slot size codes of a kind (R246, R318). -/
def slotSizeOk (kind z : Nat) : Bool :=
  match kind with
  | 0 => z = 8
  | 1 => z = 5
  | 2 => 6 ≤ z && z ≤ 16
  | 3 => z = 6
  | 4 => 12 ≤ z && z ≤ 26
  | _ => false

def ringRange (b : List Byte) : Bool :=
  slotSizeOk (byteAt b 2) (byteAt b 3) && 1 ≤ byteAt b 4 && byteAt b 4 ≤ 24 && byteAt b 5 ≤ 1 && fld b 8 8 % 4096 = 0 &&
    byteAt b 16 ≤ 1 && byteAt b 17 ≤ 31 && byteAt b 18 ≤ 7

def ringOf (f : Nat) (b : List Byte) : Ring :=
  { kind := byteAt b 2, slotLog := byteAt b 3, cntLog := byteAt b 4, intr := byteAt b 5 = 1, vector := fld b 6 2,
    base := fld b 8 8, owner := f, p := 0, c := 0, flagOn := byteAt b 16 = 1, flagSuite := byteAt b 17,
    flagX := byteAt b 18, flagIdx := byteAt b 19, suite := none, media := false, resv := 0, rejected := false,
    stopped := false }

/-- `rejected` of a ring, set up or not (R248). -/
def State.ringRejected (s : State) (n : Nat) : Bool :=
  match s.ring? n with
  | some o => o.rejected
  | none => s.ringRejects.contains n

/-- Ring setup (R246): the first check that fails gives the status. A ring of a camera context or codec may be set up again, and
stays bound to it; `rejected` stays as it is, for only a write clears it (R268). -/
def actRingSetup (s : State) (r : Req) : State × Option (Nat × List Byte) :=
  let n := fld r.body 0 2
  let old := s.ring? n
  let g := ringOf r.fn r.body
  if !s.ownsRing r.fn n || (match old with | some o => o.owner != r.fn | none => false) then (s, some (0x04, []))
  else if (match old with | some o => o.suite.isSome | none => false) then (s, some (0x07, []))
  else if !ringRange r.body then (s, some (0x80, []))
  else if g.base < 16 || !s.inFn r.fn (g.base - 16) (16 + 2 ^ (g.slotLog + g.cntLog)) then (s, some (0x08, []))
  else
    let g := { g with rejected := s.ringRejected n, media := (match old with | some o => o.media | none => false) }
    ({ s with rings := aSet s.rings n g, ringRejects := s.ringRejects.filter (· != n) }, some (0, []))

/-! ## Creating a suite (R242, R243) -/

/-- The result ring numbers of a suite-create body. -/
def createResults (b : List Byte) : List (Option Nat) :=
  (List.range 8).map (fun i => let n := fld b (24 + 2 * i) 2; if n = 0xffff then none else some n)

/-- A named ring exists, is the sender's, has its kind and is not bound to another suite. -/
def State.ringFree (s : State) (f n kind : Nat) : Bool :=
  match s.ring? n with
  | some r => r.owner = f && r.kind = kind && r.suite.isNone
  | none => false

/-- A named ring is the sender's, has its kind and is bound to nothing (R307 status 0x33). -/
def State.ringUnused (s : State) (f n kind : Nat) : Bool :=
  s.ringFree f n kind && (match s.ring? n with | some r => !r.media | none => false)

/-- Check 0x02 of R243. -/
def State.createCores (s : State) (f mask : Nat) : Bool :=
  (coresOf mask).all (fun n => bit s.health.present n && (s.suiteOf n).isNone && s.ownsCore f n) &&
    (s.suitesOf f).length < s.suiteLimit f

/-- Check 0x03 of R243. -/
def State.createGrants (s : State) (f : Nat) (l : List Grant) : Bool :=
  l.all Grant.fits && (List.range 8).all (fun x => (grantAt l x).isEmpty || clusterFitted s.fuses.grade x) &&
    (List.range 32).all (fun k => (s.suite k).st = 0 || !grantsClash l (s.suite k).grants) && s.ownsGrants f l

/-- Check 0x04 of R243. -/
def State.createRings (s : State) (f : Nat) (b : List Byte) : Bool :=
  s.ringFree f (fld b 16 2) 0 && s.ringFree f (fld b 18 2) 1 && (byteAt b 2 != 1 || s.ringFree f (fld b 20 2) 3) &&
    (createResults b).all (fun n => match n with | some n => s.ringFree f n 2 | none => true)

/-- Check 0x05 of R243. -/
def createRange (suite : Nat) (b : List Byte) : Bool :=
  byteAt b 0 = suite && byteAt b 1 ≤ 3 && byteAt b 2 ≤ 1 && byteAt b 3 = 0 && fld b 4 4 != 0 &&
    (fld b 8 4 = 0 || (4 ≤ fld b 8 4 && fld b 8 4 ≤ 4096)) &&
    (fld b 12 4 = 0 || (100 ≤ fld b 12 4 && fld b 12 4 ≤ 1000000)) &&
    (byteAt b 2 = 1 || fld b 20 2 = 0xffff) && fld b 22 2 = 0 && grantsReserved b 40 &&
    if byteAt b 2 = 0 then allZero (b.drop 136)
    else fld b 136 8 % 4096 = 0 && fld b 136 8 + 16384 ≤ 0x1000000000 && byteAt b 144 ≤ byteAt b 145 &&
      1 ≤ fld b 146 2 && fld b 146 2 ≤ 256 && 1 ≤ fld b 148 2 && fld b 148 2 ≤ 4096 && fld b 146 2 ≤ fld b 150 2

/-- The suite that a create message describes (R242, R244): state 1, limits at their defaults where 0 selects them. -/
def createSuite (f : Nat) (b : List Byte) : Suite :=
  { Suite.free with
    st := 1, mode := byteAt b 1, batching := byteAt b 2 = 1, mask := fld b 4 4, owner := f,
    lag := if fld b 8 4 = 0 then 64 else fld b 8 4, stall := if fld b 12 4 = 0 then 2000 else fld b 12 4,
    subRing := fld b 16 2, compRing := fld b 18 2, admRing := if byteAt b 2 = 1 then some (fld b 20 2) else none,
    results := createResults b, grants := parseGrants b 40, stepBuf := fld b 136 8, firstStep := byteAt b 144,
    lastStep := byteAt b 145, rowLimit := fld b 146 2, chunk := fld b 148 2, budget := fld b 150 2,
    rows := if byteAt b 2 = 1 then List.replicate (fld b 146 2) none else [] }

/-- Rings that a suite binds. -/
def Suite.ringList (k : Suite) : List Nat :=
  [k.subRing, k.compRing] ++ k.admRing.toList ++ k.results.filterMap id

/-- Bind or unbind the rings of a suite. -/
def State.bindRings (s : State) (l : List Nat) (k : Option Nat) : State :=
  l.foldl (fun t n => t.setRing n (fun r => { r with suite := k, resv := 0 })) s

/-- The part key (R269, R271), 64 bits. -/
def State.partKey (s : State) : Nat := s.fuses.library * 65536 + s.fuses.grade * 256 + s.fuses.stepping

/-- A suite's key: the part key with the mode byte in [39:32] (R271). -/
def State.suiteKey (s : State) (mode : Nat) : Nat := s.partKey + mode * 0x100000000

/-- A core at the start or end of its membership of a suite: everything at reset but the check tiles (R78, R241) and an array
that ramps down (R75). -/
def Core.vacate (c : Core) : Core :=
  { Core.empty with
    arr := { Arr.empty with mode := if c.arr.rows = 0 then 0 else 4, rows := c.arr.rows, tile := c.arr.tile,
                            tilesDone := c.arr.tilesDone, faultTile := c.arr.faultTile } }

/-- A latched upper half in the window of one of a mask's cores, but that of `core.check_tiles_hi`, whose count is no suite's
(log entry 52). -/
def latchOf (mask key : Nat) : Bool :=
  0x800000 ≤ key && key < 0x1000000 && bit mask ((key - 0x800000) / 0x40000) && key % 0x40000 != 0x208

/-- A push from outside that was on its way to a core of a mask: discarding it makes a log entry (R129). -/
def fromOutside (mask : Nat) (p : Push) : Bool := bit mask p.core && !bit mask p.src

/-- Clear the cores of a mask, the halves latched from their counts, and what is on its way to them. -/
def State.vacate (s : State) (mask : Nat) : State :=
  let t := (s.flight.filter (fromOutside mask)).foldl (fun (t : State) p => t.logDiscard (queueWord p.core p.qi p.src) s.fab.chip) s
  { t with
    cores := s.cores.mapIdx (fun n c => if bit mask n then c.vacate else c),
    latch := s.latch.filter (fun e => !latchOf mask e.1),
    flight := s.flight.filter (fun p => !bit mask p.core) }

/-- Credits of a mask's cores for remote queue ends end with their suite. -/
def State.dropCredits (s : State) (mask : Nat) : State :=
  s.setFab (fun f => { f with credits := f.credits.filter (fun c => !bit mask (bits c.qword 22 18)) })

/-- Suite create (R242, R243). -/
def actSuiteCreate (s : State) (r : Req) : State × Option (Nat × List Byte) :=
  let b := r.body
  if (s.suite r.suite).st != 0 then (s, some (0x01, []))
  else if !s.createCores r.fn (fld b 4 4) then (s, some (0x02, []))
  else if !s.createGrants r.fn (parseGrants b 40) then (s, some (0x03, []))
  else if !s.createRings r.fn b then (s, some (0x04, []))
  else if !createRange r.suite b then (s, some (0x05, []))
  else if s.reseating then (s, some (0x06, []))
  else
    let k := createSuite r.fn b
    let t := (s.vacate k.mask).setSuite r.suite (fun _ => k)
    (t.bindRings k.ringList (some r.suite), some (0, toLE 8 (s.suiteKey k.mode)))

/-! ## Ending a suite (R245, R256) -/

/-- Add the unused part of a reservation back to the result rings (R254). -/
def State.unreserve (s : State) (k : Nat) (resv : List Nat) : State :=
  ((s.suite k).results.zip resv).foldl (fun t e => match e.1 with
    | some n => t.setRing n (fun r => { r with resv := r.resv - e.2 })
    | none => t) s

/-- Step 5 of R253: the entry is done with; its pins and reservations end, and C advances past it. -/
def State.consumeEntry (s : State) (k : Nat) : State :=
  let t := match (s.suite k).disp with
    | some d => s.unreserve k d.resv
    | none => s
  (t.setSuite k (fun x => { x with disp := none })).ringAdvC (s.suite k).subRing

/-- Sequences of the batch table complete with a status and leave (R245, R256). -/
def State.endRows (s : State) (k status cause : Nat) : State :=
  let t := (s.suite k).rows.foldl (fun t r => match r with
    | some r => t.due (s.suite k).compRing r.ident 1 status cause k r.made .none
    | none => t) s
  t.setSuite k (fun x => { x with rows := x.rows.map (fun _ => none) })

/-- A submission entry whose completion entry still waits is past its last kernel: C advances at once. -/
def State.consumePending (s : State) (k : Nat) : State :=
  if s.comps.any (fun c : Comp => c.after = .consume k) then
    let t : State := { s with comps := s.comps.map (fun c : Comp => if c.after = .consume k then { c with after := .none } else c) }
    t.consumeEntry k
  else s

/-- The started entry of a suite completes with a status and is consumed at once. -/
def State.endEntry (s : State) (k status : Nat) : State :=
  match (s.suite k).disp with
  | some d =>
    if d.isStep then (s.unreserve k d.resv).setSuite k (fun x => { x with disp := none })
    else (s.due (s.suite k).compRing d.index 0 status 0 k d.done .none).consumeEntry k
  | none => s

/-- A load in progress is answered with a status (R232): core named, segments, rounds and the digest of step 2. -/
def loadFields (core segs rounds : Nat) (digest : List Byte) : List Byte :=
  toLE 1 core ++ zeros 3 ++ toLE 4 segs ++ toLE 4 rounds ++ padTo 48 digest

/-- Segments of an image (R227). -/
def segCount (len : Nat) : Nat := (len + 4095) / 4096

def State.endLoad (s : State) (k status core : Nat) : State :=
  match (s.suite k).load with
  | some l =>
    if l.phase = 2 then s.setSuite k (fun x => { x with load := none })
    else
      (s.setSuite k (fun x => { x with load := none })).answerLate l.pair status
        (loadFields core (segCount l.len) l.round (if l.phase = 0 then [] else (s.suite k).digest))
  | none => s

/-- Free a suite: its entry, sequences and load end with their statuses, its cores, grants and rings return (R245, R256). The shelf
flags of its ranges keep their counts until a load of a suite that holds them reaches step 3. DESIGN CHOICE (log entry 140): R135
returns the ranges and no rule gives the flags' values until then. -/
def State.freeSuite (s : State) (k status loadStatus : Nat) : State :=
  if (s.suite k).st = 0 then s
  else
    let t := (((s.consumePending k).endEntry k status).endRows k status 0).endLoad k loadStatus 0xff
    let t := t.dueState k 0 0
    let u := t.bindRings (t.suite k).ringList none
    ((u.vacate (s.suite k).mask).dropCredits (s.suite k).mask).setSuite k (fun _ => Suite.free)

/-- Suite release (R245). -/
def actSuiteRelease (s : State) (r : Req) : State × Option (Nat × List Byte) :=
  if (s.suite r.suite).st = 0 then (s, some (0x01, []))
  else if (s.suite r.suite).owner != r.fn && r.fn != 0 then (s, some (0x04, []))
  else (s.freeSuite r.suite 0x02 0x66, some (0, []))

/-! ## Dispatch (R252 to R256) -/

/-- A submission entry of 256 bytes. -/
structure SubEntry where
  first : Nat
  last  : Nat
  flags : Nat
  pins  : Nat
  resv  : List Nat
  words : List Nat
  recs  : List (Nat × Nat × Nat)
  clean : Bool
  deriving DecidableEq, Repr

def parseEntry (b : List Byte) : SubEntry :=
  { first := byteAt b 0, last := byteAt b 1, flags := byteAt b 2, pins := byteAt b 3,
    resv := (List.range 8).map (fun i => fld b (4 + 2 * i) 2),
    words := (List.range 16).map (fun i => fld b (32 + 4 * i) 4),
    recs := (List.range (min (byteAt b 3) 16)).map (fun i => (fld b (96 + 10 * i) 2, fld b (98 + 10 * i) 4, fld b (102 + 10 * i) 4)),
    clean := allZero ((b.drop 20).take 12) }

/-- Number of kernels of a suite's program (R138). -/
def Suite.kernels (k : Suite) : Nat :=
  match k.prog with
  | some p => p.maxima.length
  | none => 0

/-- A bad entry (R251, R252). -/
def State.badEntry (s : State) (k : Nat) (e : SubEntry) : Bool :=
  e.last < e.first || (s.suite k).kernels ≤ e.last || 1 < e.flags || 16 < e.pins || !e.clean ||
    ((s.suite k).results.zip e.resv).any (fun p => match p.1 with
      | some n => match s.ring? n with
        | some r => r.slots < p.2
        | none => p.2 != 0
      | none => p.2 != 0)

/-- A pin holds: the slot's header can be read in the windows of the ring's owner (R288) and shows its entry index, its frame number and status bit 0 (R255, R318). -/
def State.pinHolds (s : State) (p : Nat × Nat × Nat) : Bool :=
  match s.ring? p.1 with
  | some r =>
    let h := s.devRead (r.slotAddr p.2.1) 27
    r.kind = 4 && s.ringReads r (r.slotAddr p.2.1) 27 && fld h 0 4 = p.2.1 && fld h 4 4 = p.2.2 && bit (byteAt h 26) 0
  | none => false

/-- The header of each pinned slot that can be read is looked up. -/
def State.touchPins (s : State) (l : List (Nat × Nat × Nat)) (t : State) : State :=
  l.foldl (fun t p => match s.ring? p.1 with
    | some r => if s.ringReads r (r.slotAddr p.2.1) 27 then t.touchAll (r.slotAddr p.2.1) 27 else t
    | none => t) t

/-- Slots that the fields of a reservation ask of one ring; several result rings of a suite may be the same ring. -/
def resvOn (results : List (Option Nat)) (resv : List Nat) (n : Nat) : Nat :=
  ((results.zip resv).map (fun p => if p.1 = some n then p.2 else 0)).sum

/-- Every reservation is available: free slots beyond those already reserved (R254). -/
def State.resvFits (s : State) (k : Nat) (resv : List Nat) : Bool :=
  ((s.suite k).results.zip resv).all (fun p => match p.1 with
    | some n => match s.ring? n with
      | some r => resvOn (s.suite k).results resv n + r.resv ≤ r.free
      | none => p.2 = 0
    | none => p.2 = 0)

def State.reserve (s : State) (k : Nat) (resv : List Nat) : State :=
  ((s.suite k).results.zip resv).foldl (fun t e => match e.1 with
    | some n => t.setRing n (fun r => { r with resv := r.resv + e.2 })
    | none => t) s

/-- A core starts kernel j: shape registers 0, nothing in flow; barrier counts and record counts go on (R138, R144, R157). -/
def Core.startKernel (c : Core) : Core :=
  { c with
    seq := { Seq.empty with running := true, nextNo := c.seq.nextNo, barriers := c.seq.barriers, issues := c.seq.issues } }

/-- Every core of the suite starts at the first instruction of kernel j (R138); the stall count restarts. -/
def State.startKernel (s : State) (k j : Nat) : State :=
  { (s.setSuite k (fun x => { x with st := 4, stallFrom := s.now,
                                     disp := x.disp.map (fun d => { d with kernel := j }) })) with
    cores := s.cores.mapIdx (fun n c => if bit (s.suite k).mask n then c.startKernel else c) }

/-- An idle suite starts to run: the change into state 4 is reported (R244). -/
def State.beginRun (s : State) (k j : Nat) : State := (s.dueState k 4 0).startKernel k j

/-- A suite may take new work (R244, R253): idle, nothing in progress, no load held, no completion entry waiting. -/
def State.suiteIdle (s : State) (k : Nat) : Bool :=
  s.firmwareActs && (s.suite k).st = 3 && (s.suite k).disp.isNone && (s.suite k).load.isNone && !s.compWaits k

/-- Dispatch of the next submission entry (R253). A step that is complete and not yet read holds it (R258 step 2), and so does an
assembly that waits at its step 7. -/
def State.dispatch (s : State) (k : Nat) : State :=
  match s.ring? (s.suite k).subRing with
  | none => s
  | some r =>
    if !s.suiteIdle k || (s.suite k).started || (s.suite k).assembled || r.held = 0 || r.stopped then s
    else if !s.ringReads r (r.slotAddr r.c) 256 then s.ringStop (s.suite k).subRing (pageOf (r.slotAddr r.c))
    else
      let e := parseEntry (s.devRead (r.slotAddr r.c) 256)
      let s := s.touchPins e.recs (s.touchAll (r.slotAddr r.c) 256)
      let cr := (s.suite k).compRing
      if s.badEntry k e then s.due cr r.c 0 0x05 0 k 0 (.consume k)
      else if !e.recs.all s.pinHolds then s.due cr r.c 0 0x04 0 k 0 (.consume k)
      else if !s.resvFits k e.resv then s
      else
        let d : Disp := { isStep := false, index := r.c, first := e.first, last := e.last, kernel := e.first, words := e.words,
                          notify := e.flags = 1, resv := e.resv,
                          pins := e.recs.map (fun p => { ring := p.1, index := p.2.1 }), done := 0 }
        ((s.reserve k e.resv).setSuite k (fun x => { x with disp := some d })).beginRun k e.first

/-- The last kernel of an entry or step is complete (R253 step 5, R258 step 1). -/
def State.entryDone (s : State) (k : Nat) (d : Disp) : State :=
  let t := s.setSuite k (fun x => { x with st := 3 })
  if d.isStep then (t.unreserve k d.resv).setSuite k (fun x => { x with disp := none, started := true })
  else if d.notify then t.due (s.suite k).compRing d.index 0 0 0 k d.done (.consume k)
  else t.consumeEntry k

/-- A due completion entry is written once its ring has a free slot (R253). A slot that cannot be written stops the ring, and the
entry stays due (R288). -/
def State.writeComp (s : State) (rn : Nat) : State :=
  match s.comps.find? (fun c => c.ring = rn), s.ring? rn with
  | some c, some r =>
    if r.free = 0 || r.stopped || !s.firmwareActs then s
    else if !s.ringWrites r (r.slotAddr r.p) 32 then s.ringStop rn (pageOf (r.slotAddr r.p))
    else
      let u : State := { s with comps := s.comps.erase c }
      let t := u.ringAppend rn c.bytes
      match c.after with
      | .consume k => t.consumeEntry k
      | .none => t
  | _, _ => s

/-! ## Continuous batching (R257 to R261) -/

/-- Row output m of the step buffer: token and status (R259). -/
def State.rowStatus (s : State) (k m : Nat) : Nat := byteAt (s.devRead ((s.suite k).stepBuf + 8320 + 8 * m + 4) 1) 0

/-- Step 2 of R258 for one row: its position advances; a row that yielded may leave (R260). -/
def State.rowAfter (s : State) (k m : Nat) (r : BatchRow) : BatchRow × Option Nat :=
  let q := { r with position := r.position + r.newTok, newTok := 0, joined := false, made := r.made + b2n r.yields }
  if r.yields then
    if s.rowStatus k m = 1 then (q, some 0x10)
    else if r.capacity ≤ q.position then (q, some 0x11)
    else (q, none)
  else (q, none)

/-- Step 2 of R258 over the whole table. -/
def State.stepRead (s : State) (k : Nat) : State :=
  let go := fun (t : State) (m : Nat) => match (s.suite k).rows.getD m none with
    | some r =>
      let o := s.rowAfter k m r
      match o.2 with
      | some st => (t.setSuite k (fun x => { x with rows := x.rows.set m none })).due (s.suite k).compRing r.ident 1 st 0 k
          o.1.made .none
      | none => t.setSuite k (fun x => { x with rows := x.rows.set m (some o.1) })
    | none => t
  let t := s.touchAll ((s.suite k).stepBuf + 8320) (8 * (s.suite k).rows.length)
  (List.range (s.suite k).rows.length).foldl go (t.setSuite k (fun x => { x with started := false }))

/-- An admission entry of 64 bytes is in range (R257). -/
def admitOk (b : List Byte) : Bool :=
  allZero ((b.drop 1).take 7) && allZero (b.drop 40) && 1 ≤ fld b 24 4 && fld b 24 4 ≤ 0x1000000 && fld b 24 4 < fld b 28 4

def cancelOk (b : List Byte) : Bool := allZero ((b.drop 1).take 7) && allZero (b.drop 40)

def rowOfAdmit (b : List Byte) : BatchRow :=
  { ident := fld b 8 8, prompt := fld b 16 8, left := fld b 24 4, total := fld b 24 4, capacity := fld b 28 4, pages := fld b 32 8,
    position := 0, newTok := 0, joined := true, yields := false, made := 0 }

/-- The row that holds an identifier. -/
def findRow (rows : List (Option BatchRow)) (ident : Nat) : Option Nat :=
  rows.findIdx? (fun r => match r with | some r => r.ident = ident | none => false)

/-- Step 5 of R258: admission entries from C up to the P read at step 4, `fuel` at most. An admit without a free row stops the pass
and counts a timing-dependent choice (R261). -/
def State.admitPass (s : State) (k rn p : Nat) : Nat → State
  | 0 => s
  | fuel + 1 =>
    match s.ring? rn with
    | none => s
    | some r =>
      if (p + M32 - r.c) % M32 = 0 || r.slots < (p + M32 - r.c) % M32 || r.stopped then s
      else if !s.ringReads r (r.slotAddr r.c) 64 then s.ringStop rn (pageOf (r.slotAddr r.c))
      else
        let b := s.devRead (r.slotAddr r.c) 64
        let s := s.touchAll (r.slotAddr r.c) 64
        let ident := fld b 8 8
        let cr := (s.suite k).compRing
        let taken := fun (t : State) => (t.ringAdvC rn).admitPass k rn p fuel
        match byteAt b 0, findRow (s.suite k).rows ident with
        | 1, some _ => taken (s.due cr ident 1 0x05 0 k 0 .none)
        | 1, none =>
          if !admitOk b then taken (s.due cr ident 1 0x05 0 k 0 .none)
          else match (s.suite k).rows.findIdx? Option.isNone with
            | some m => taken (s.setSuite k (fun x => { x with rows := x.rows.set m (some (rowOfAdmit b)) }))
            | none => s.setSuite k (fun x => { x with tdc := (x.tdc + 1) % M48, joined := true })
        | 2, some m =>
          if !cancelOk b then taken (s.due cr ident 1 0x05 0 k 0 .none)
          else
            let made := match (s.suite k).rows.getD m none with | some q => q.made | none => 0
            taken ((s.setSuite k (fun x => { x with rows := x.rows.set m none })).due cr ident 1 0x12 0 k made .none)
        | 2, none => taken (s.due cr ident 1 (if cancelOk b then 0x13 else 0x05) 0 k 0 .none)
        | _, _ => taken (s.due cr ident 1 0x05 0 k 0 .none)

/-- Step 6 of R258, first half: one token for every generating row. The budget is at least the row limit. -/
def generating (r : BatchRow) : BatchRow := if r.left = 0 then { r with newTok := 1, yields := true } else r

/-- Step 6 of R258, second half: prompt rows in ascending order. -/
def allotPrompt (chunk : Nat) : Nat → List (Option BatchRow) → List (Option BatchRow)
  | _, [] => []
  | b, none :: t => none :: allotPrompt chunk b t
  | b, some r :: t =>
    if r.left = 0 then some r :: allotPrompt chunk b t
    else
      let n := min (min r.left chunk) b
      some { r with newTok := n, left := r.left - n, yields := r.left = n } :: allotPrompt chunk (b - n) t

def occupied (rows : List (Option BatchRow)) : Nat := (rows.filter Option.isSome).length

/-- Step 6 of R258. -/
def allot (chunk budget : Nat) (rows : List (Option BatchRow)) : List (Option BatchRow) :=
  let g := rows.map (fun r => match r with | some r => if r.left = 0 then some (generating r) else some r | none => none)
  let used := (rows.filter (fun r => match r with | some r => r.left = 0 | none => false)).length
  allotPrompt chunk (budget - used) g

/-- Row record m (R259): the prompt's next unread token, or the token field of the row's own output. -/
def rowRecord (stepBuf m : Nat) : Option BatchRow → List Byte
  | none => zeros 32
  | some r =>
    let prompt := r.position < r.total
    let addr := if prompt then r.prompt + 4 * r.position else stepBuf + 8320 + 8 * m
    toLE 8 r.ident ++ toLE 4 r.position ++ toLE 2 r.newTok ++
      toLE 1 (1 + 2 * b2n r.joined + 4 * b2n (r.left != 0) + 8 * b2n r.yields) ++ [0] ++ toLE 8 addr ++ toLE 8 r.pages

/-- One more than the highest occupied row. -/
def rowsM (rows : List (Option BatchRow)) : Nat :=
  ((rows.mapIdx (fun i r => if r.isSome then i + 1 else 0)).foldl max 0)

def rowsT (rows : List (Option BatchRow)) : Nat :=
  (rows.map (fun r => match r with | some r => r.newTok | none => 0)).sum

/-- Mask with a bit for each row of a joining sequence. -/
def resetMask (rows : List (Option BatchRow)) : Nat :=
  (rows.mapIdx (fun i r => match r with | some r => if r.joined then 2 ^ i else 0 | none => 0)).sum

/-- The step buffer's bytes before the row outputs (R259). -/
def stepBuffer (stepBuf no : Nat) (rows : List (Option BatchRow)) : List Byte :=
  toLE 8 no ++ toLE 2 (occupied rows) ++ toLE 2 (rowsM rows) ++ toLE 4 (rowsT rows) ++ zeros 48 ++
    toLE 32 (resetMask rows) ++ zeros 32 ++
    (List.range 256).flatMap (fun m => rowRecord stepBuf m (rows.getD m none))

/-- The dispatch words of a step (R259). -/
def stepWords (stepBuf no : Nat) (rows : List (Option BatchRow)) : List Nat :=
  [stepBuf % M32, stepBuf / M32, occupied rows, rowsM rows, rowsT rows, no % M32] ++ List.replicate 10 0

/-- Step 7 of R258: a slot of each result ring in use for each occupied row. -/
def Suite.stepResv (x : Suite) : List Nat := x.results.map (fun r => if r.isSome then occupied x.rows else 0)

/-- Steps 7 and 8 of R258: once the reservation is available, the step starts. -/
def State.stepDispatch (s : State) (k : Nat) : State :=
  let x := s.suite k
  if !s.resvFits k x.stepResv then s
  else
    let d : Disp := { isStep := true, index := x.stepNo % M32, first := x.firstStep, last := x.lastStep, kernel := x.firstStep,
                      words := stepWords x.stepBuf x.stepNo x.rows, notify := false, resv := x.stepResv, pins := [], done := 0 }
    ((s.reserve k x.stepResv).setSuite k (fun y =>
      { y with stepNo := y.stepNo + 1, assembled := false, disp := some d })).beginRun k x.firstStep

/-- Steps 6 and 7 of R258: tokens and step buffer, for a table with an occupied row. -/
def State.stepPrepare (s : State) (k : Nat) : State :=
  let x := s.suite k
  let rows := allot x.chunk x.budget x.rows
  if occupied rows = 0 then s
  else ((s.hubWrite x.stepBuf (stepBuffer x.stepBuf x.stepNo rows)).setSuite k (fun y =>
    { y with rows := rows, assembled := true })).stepDispatch k

/-- Do submission entries of a suite wait (R258 step 3)? -/
def State.subWaits (s : State) (k : Nat) : Bool :=
  match s.ring? (s.suite k).subRing with
  | some r => r.held != 0 && !r.stopped
  | none => false

/-- Steps 4 and 5 of R258; left out in orphan mode. -/
def State.stepAdmit (s : State) (k : Nat) : State :=
  match (s.suite k).admRing with
  | some rn =>
    match s.ring? rn with
    | some r => if (s.func (s.suite k).owner).orphan then s else s.admitPass k rn r.p r.slots
    | none => s
  | none => s

/-- Step assembly (R258). It stops after step 2 while completion entries wait, and at step 3 while submission entries wait. Steps 4
to 6 run once in an assembly: one that lacked its reservation goes on at step 7. -/
def State.assemble (s : State) (k : Nat) : State :=
  if !s.suiteIdle k || !(s.suite k).batching || (s.suite k).kernels ≤ (s.suite k).lastStep then s
  else if (s.suite k).assembled then s.stepDispatch k
  else
    let t := if (s.suite k).started then s.stepRead k else s
    if t.compWaits k || t.subWaits k then t else (t.stepAdmit k).stepPrepare k

/-! ## Heartbeat, orphan mode, adoption (R264 to R267) -/

/-- A function whose last heartbeat lies 300 ms in the past enters orphan mode (R264). -/
def State.orphanize (s : State) (f : Nat) : State :=
  match (s.func f).beat with
  | none => s
  | some b =>
    if s.firmwareActs && !(s.func f).orphan && f < 17 && b + 300000000 ≤ s.now then
      ((s.setFunc f (fun x => { x with orphan := true })).logE 0x0030 0 f 0xff 0 0 (b % M32) (b / M32) 0).dueEvent f 0x01
    else s

/-- A ring record of R266. -/
def ringRecord (e : Nat × Ring) : List Byte :=
  toLE 2 e.1 ++ toLE 1 e.2.kind ++ [0] ++ toLE 4 e.2.p ++ toLE 4 e.2.c ++ toLE 4 e.2.resv

/-- A suite record of R266. -/
def State.suiteRecord (s : State) (k : Nat) : List Byte :=
  toLE 1 k ++ toLE 1 (s.suite k).st ++ toLE 1 (s.suite k).cause ++ [0] ++ toLE 2 (occupied (s.suite k).rows) ++ zeros 2

/-- Adopt (R266). -/
def actAdopt (s : State) (r : Req) : State × Option (Nat × List Byte) :=
  let a := fld r.body 0 8
  let n := fld r.body 8 4
  let recs := (s.ringsOf r.fn).flatMap ringRecord ++ (s.suitesOf r.fn).flatMap s.suiteRecord
  let counts := toLE 4 (s.ringsOf r.fn).length ++ toLE 4 (s.suitesOf r.fn).length
  if a % 16 != 0 || n < 65536 || 2097152 < n || n % 16 != 0 || fld r.body 12 4 != 0 || !s.inFn r.fn a n then
    (s, some (0x71, zeros 8))
  else if n < recs.length then (s, some (0x70, counts))
  else if !s.writable a recs.length then (s, some (0x71, zeros 8))
  else
    let t := s.hubWrite a recs
    if (s.func r.fn).orphan then
      let t := t.setFunc r.fn (fun f => { f with orphan := false, beat := some s.now })
      let t := (s.suitesOf r.fn).foldl (fun t k => match (t.suite k).load with
        | some l => if l.phase = 2 then t.setSuite k (fun x => { x with load := none }) else t
        | none => t) t
      (t.dueEvent r.fn 0x02, some (0, counts))
    else (t, some (0, counts))

/-! ## Commands -/

/-- ALLOCATION (R382). -/
def execAllocation (p : Nat) (s : State) : Res := message p 0x0010 actAllocation s

/-- RING_SETUP (R246). -/
def execRingSetup (p : Nat) (s : State) : Res := message p 0x0014 actRingSetup s

/-- SUITE_CREATE (R243). -/
def execSuiteCreate (p : Nat) (s : State) : Res := message p 0x0011 actSuiteCreate s

/-- SUITE_RELEASE (R245). -/
def execSuiteRelease (p : Nat) (s : State) : Res := message p 0x0012 actSuiteRelease s

/-- ADOPT (R266). -/
def execAdopt (p : Nat) (s : State) : Res := message p 0x0003 actAdopt s

/-- HEARTBEAT_TIMEOUT (R264). -/
def execHeartbeatTimeout (f : Nat) (s : State) : Res := onUnit (f < 17) s (s.orphanize f)

/-- RING_DOORBELL (R248). -/
def execRingDoorbell (f rn v : Nat) (s : State) : Res := onUnit (f < 17 && rn < 65536) s (s.doorbell f rn (v % M32))

/-- DISPATCH_ENTRY (R253). -/
def execDispatchEntry (k : Nat) (s : State) : Res := onUnit (k < 32) s (s.dispatch k)

/-- COMPLETION_ENTRY_WRITE (R253). -/
def execCompletionEntryWrite (rn : Nat) (s : State) : Res := onUnit (rn < 65536) s (s.writeComp rn)

/-- STEP_ASSEMBLY (R258). -/
def execStepAssembly (k : Nat) (s : State) : Res := onUnit (k < 32) s (s.assemble k)

end Sys2Proof.Machine
end

