-- ==== Sys2Proof/Machine/Health.lean ====
section
/-! DEFINITION. Faults, retirement and the reseat (R290, R297, R298, R391, R416 to R430). -/

namespace Sys2Proof.Machine

/-! ## The retirement record (R391) and its reports -/

/-- The copies of the record in the flash (R365). -/
def recordAt (copy : Nat) : Nat := if copy = 0 then 0x20000 else 0x120000

def recordMagic : Nat := 0x5452594d

/-- The 16 bytes of an entry. -/
def RetEntry.bytes (e : RetEntry) : List Byte :=
  let b := toLE 1 e.kind ++ [0] ++ toLE 2 e.unit ++ toLE 4 e.index ++ toLE 4 e.boot
  b ++ toLE 4 (crc32c b)

/-- The entry that 16 bytes hold, when its check is right. -/
def parseRet (b : List Byte) : Option RetEntry :=
  if crc32c (b.take 12) = fld b 12 4 then
    some { kind := byteAt b 0, unit := fld b 2 2, index := fld b 4 4, boot := fld b 8 4 }
  else none

/-- The numbers of the 16-byte places of a copy that somebody has programmed, in ascending order: place 0 is its header. -/
def State.recordPlaces (s : State) (copy : Nat) : List Nat :=
  ((s.flash.filter (fun c => recordAt copy ≤ c.1 && c.1 < recordAt copy + 0x100000)).map
    (fun c => (c.1 - recordAt copy) / 16)).dedup

/-- The valid entries of a copy, in their order. -/
def State.copyRecord (s : State) (copy : Nat) : List RetEntry :=
  ((s.recordPlaces copy).filter (· != 0)).filterMap (fun n => parseRet (s.flashRead (recordAt copy + 16 * n) 16))

/-- Bring-up applies the union of the valid entries of both copies. -/
def State.flashRecord (s : State) : List RetEntry := (s.copyRecord 0 ++ s.copyRecord 1).dedup

/-- Append an entry to a copy, which holds 65,535 and gets its header with its first entry (generation 1; log entry 19). -/
def State.appendRet (s : State) (e : RetEntry) (copy : Nat) : State :=
  let used := s.recordPlaces copy
  let place := used.foldl max 0 + 1
  let t := if used.contains 0 then s else s.flashWrite (recordAt copy) (toLE 4 recordMagic ++ toLE 4 1 ++ zeros 8)
  if 65535 < place then s else t.flashWrite (recordAt copy + 16 * place) e.bytes

/-- Record a retirement: in the working record, in copy 0 and then in copy 1. -/
def State.recordRet (s : State) (kind unit index : Nat) : State :=
  let e : RetEntry := { kind := kind, unit := unit, index := index, boot := s.fw.boots }
  let t := (s.appendRet e 0).appendRet e 1
  { t with record := t.record ++ [e] }

/-- Does the record name a unit? -/
def State.recorded (s : State) (kind unit : Nat) : Bool := s.record.any (fun e => e.kind = kind && e.unit = unit)

/-- Functions 1 to 16 whose windows hold one of these pages. -/
def State.pageOwners (s : State) (pages : List Nat) : List Nat :=
  ((List.range 16).map (· + 1)).filter (fun f => pages.any (fun v => s.covered (fun w => w.owner = f) v 1))

/-- The bodies of notices 0x4003: at most 58 device pages in each (R451). -/
def unitBodies (kind unit logical spare : Nat) (pages : List Nat) : List (List Byte) :=
  let n := max 1 ((pages.length + 57) / 58)
  (List.range n).map (fun i =>
    let ps := (pages.drop (58 * i)).take 58
    toLE 1 kind ++ toLE 1 (b2n (i + 1 < n)) ++ toLE 2 unit ++ toLE 1 logical ++ toLE 1 spare ++ toLE 1 ps.length ++ [0] ++
      ps.flatMap (toLE 4))

/-- Notices 0x4003 to function 0 and to each function that owns an affected page, with its own pages (R298, R381). -/
def State.noticeUnit (s : State) (kind unit logical spare : Nat) (pages : List Nat) : State :=
  let send := fun (t : State) (f : Nat) (ps : List Nat) =>
    (unitBodies kind unit logical spare ps).foldl (fun t b => t.notice f 0x4003 0xffffffff b) t
  (s.pageOwners pages).foldl (fun t f => send t f (pages.filter (fun v => s.covered (fun w => w.owner = f) v 1)))
    (send s 0 pages)

/-- The event-log entry of a retirement (R433). -/
def State.logRet (s : State) (kind unit index : Nat) : State := s.logE 0x0003 2 0xff 0xff kind unit index 0 0

/-- The event-log entry of a transient (R433). -/
def State.logTransient (s : State) (kind unit cause frame : Nat) : State :=
  s.logE 0x0002 1 0xff 0xff kind unit cause frame 0

/-! ## Frames and pseudo-channels (R297, R298) -/

/-- Device pages that an entry test selects, in ascending order. -/
def State.pagesWith (s : State) (test : XEntry → Bool) : List Nat :=
  (s.xlt.table.filter (fun e => test e.2)).map Prod.fst

/-- Write every listed page's entry as invalid with a lost field, and drop its cached entry. -/
def State.loseEntries (s : State) (pages : List Nat) (lost : Nat) : State :=
  (pages.foldl (fun t v => t.setEntry v (.lost lost)) s).uncache pages

/-- The word of a frame in the reverse map of its pseudo-channel (R299): bits [23:0] the device page, bit 24 its write bit, bit 31 set
when the frame is mapped. The firmware keeps it in step with the table, and so it is a view of the table. -/
def State.reverseWord (s : State) (k : Nat) : Nat :=
  match s.xlt.table.find? (fun e => e.2.frameKey? = some k) with
  | some (v, .hbm _ _ w) => v + b2n w * 2 ^ 24 + 2 ^ 31
  | _ => 0

/-- The device page that maps a frame, by its reverse map. -/
def State.pageOfFrame (s : State) (k : Nat) : Option Nat :=
  if bit (s.reverseWord k) 31 then some (bits (s.reverseWord k) 23 0) else none

/-- First firmware frame of a pseudo-channel (R284). -/
def State.fwBase (s : State) : Nat := s.mappable + 32768 / s.n0 + 256

/-- Stack of a pseudo-channel, or in grade E its half of stack 0 (R299). -/
def State.half (s : State) (ch : Nat) : Nat := ch / (s.n0 / 2)

/-- The pseudo-channels of the two copies of the firmware's structures: those that hold them stay while they are present; the lowest
present ones of different stacks, or halves, join them, of one where only one is left (R299; log entry 143). -/
def State.placeCopies (s : State) : State :=
  let keep := s.xlt.copies.filter s.present
  let all := (List.range 64).filter s.present
  let one : List Nat := if keep.isEmpty then all.take 1 else keep
  let two := if 2 ≤ one.length then one else
    match all.find? (fun c => one.all (fun d => s.half c != s.half d)) with
    | some c => one ++ [c]
    | none => (match all.find? (fun c => !one.contains c) with | some c => one ++ [c] | none => one)
  s.setXlt (fun x => { x with copies := two.take 2 })

/-- Where table page t lies (R285, R298): its frame key. -/
def State.tableFrame (s : State) (t : Nat) : Nat :=
  (aGet s.xlt.moved t).getD (frameKey (t % s.n0) (s.mappable + t / s.n0))

/-- First relocation frame of a pseudo-channel (R284). -/
def State.relocBase (s : State) : Nat := s.mappable + 32768 / s.n0

/-- A free relocation frame of a channel, if any: the lowest of its 256. -/
def State.freeReloc (s : State) (ch : Nat) : Option Nat :=
  ((List.range 256).map (fun i => frameKey ch (s.relocBase + i))).find?
    (fun k => !(s.xlt.moved.any (fun e => e.2 = k)) && !s.xlt.retired.contains k)

/-- Frame keys that entries map. -/
def State.mappedKeys (s : State) : List Nat :=
  s.xlt.table.filterMap (fun e => match e.2 with
    | .hbm f c _ => some (frameKey c f)
    | _ => none)

/-- Free mappable frames of a channel (R289 check 0x21): neither mapped, retired nor taken. -/
def State.freeCount (s : State) (ch : Nat) : Nat :=
  let inCh := fun k => k / 196608 = ch && k % 196608 < s.mappable
  s.mappable - ((s.mappedKeys.filter inCh) ++ (s.xlt.retired.filter inCh) ++ (s.xlt.taken.filter inCh)).length

/-- The highest mappable frame of a channel that satisfies a test, searching `n` frames down. -/
def highestFrame (ch : Nat) (test : Nat → Bool) : Nat → Option Nat
  | 0 => none
  | n + 1 => if test (frameKey ch n) then some (frameKey ch n) else highestFrame ch test n

/-- The first of a list with the greatest measure. -/
def bestBy (m : Nat → Nat) : List Nat → Option Nat
  | [] => none
  | a :: t => match bestBy m t with
    | none => some a
    | some b => if m a < m b then some b else some a

/-- The channels that remain, in ascending order. -/
def State.presentChans (s : State) : List Nat := (List.range 64).filter s.present

/-- Place one table page that lost its frame: relocation frames first, then a free mappable frame, then a mapped one (R298). -/
def State.placeTable (s : State) (t : Nat) : State :=
  let moveTo := fun (u : State) (k : Nat) => u.setXlt (fun x => { x with moved := aSet x.moved t k })
  let take := fun (u : State) (k : Nat) => (moveTo u k).setXlt (fun x => { x with taken := x.taken ++ [k] })
  match s.presentChans.findSome? s.freeReloc with
  | some k => moveTo s k
  | none =>
    let used := s.mappedKeys
    match bestBy s.freeCount (s.presentChans.filter (fun c => s.freeCount c != 0)) with
    | some c =>
      match highestFrame c (fun k => !used.contains k && !s.xlt.retired.contains k && !s.xlt.taken.contains k) s.mappable with
      | some k => take s k
      | none => s
    | none =>
      match bestBy (fun c => (used.filter (fun k => k / 196608 = c)).length) s.presentChans with
      | some c =>
        match highestFrame c used.contains s.mappable with
        | some k => (take s k).loseEntries (s.pagesWith (fun e => match e with
            | .hbm f c _ => frameKey c f = k
            | _ => false)) 3
        | none => s
      | none => s

/-- The device pages of host-target entries on some table pages (R298). -/
def State.hostPagesOf (s : State) (tables : List Nat) : List Nat :=
  (s.xlt.table.filter (fun e => match e.2 with
    | .host _ _ _ => tables.contains (e.1 / 512)
    | _ => false)).map Prod.fst

/-- Retire a pseudo-channel (R298). -/
def State.retireChan (s : State) (ch : Nat) : State :=
  if (s.chan ch).retired || !(s.chan ch).fitted then s
  else
    let lost := (List.range 32768).filter (fun t => s.tableFrame t / 196608 = ch)
    let t := (s.setChan ch (fun c => { c with retired := true, trained := false, depth := 0, rq := [], wq := [], waiting := [] })).recordRet 2 ch 0
    let pages := t.pagesWith (fun e => match e with
      | .hbm _ c _ => c = ch
      | _ => false)
    let hostPages := t.hostPagesOf lost
    let u := t.loseEntries (pages ++ hostPages) 2
    let v := lost.foldl State.placeTable u
    let taken := (u.pagesWith (fun e => match e with | .hbm _ _ _ => true | _ => false)).filter
      (fun p => v.xentry p = .lost 3)
    (v.placeCopies.noticeUnit 2 ch 0xff 0 (pages ++ hostPages ++ taken)).logRet 2 ch 0

/-- Retire a frame (R297); the 64th on a pseudo-channel retires the pseudo-channel (R295). A table page on it is rebuilt in another
frame, without its host-target entries (R298). -/
def State.retireFrame (s : State) (ch f : Nat) : State :=
  let k := frameKey ch f
  if s.xlt.retired.contains k then s
  else
    let tables := (List.range 32768).filter (fun p => s.tableFrame p = k)
    let hosts := s.hostPagesOf tables
    let pages := (s.pageOfFrame k).toList ++ hosts
    let t := (((s.loseEntries (s.pageOfFrame k).toList 1).loseEntries hosts 2).setXlt (fun x => { x with retired := x.retired ++ [k] })).recordRet 3 ch f
    let t := t.setChan ch (fun c => { c with frames := incTo 64 c.frames })
    let body := fun v => toLE 4 v ++ toLE 4 ch ++ toLE 4 f
    let t := pages.foldl (fun t v => (0 :: s.pageOwners [v]).foldl (fun t g => t.notice g 0x4002 0xffffffff (body v)) t) t
    let t := (tables.foldl State.placeTable t).logRet 3 ch f
    if 64 ≤ (t.chan ch).frames then t.retireChan ch else t

/-! ## Physical and logical cores (R21, R413, R418) -/

/-- Can a physical core hold a number? -/
def State.usable (s : State) (n : Nat) : Bool :=
  n < 40 && clusterFitted s.fuses.grade (n / 5) && !(s.phy n).bad && !(s.phy n).retired && !(s.cluster (n / 5)).absent

/-- Physical core n is fused-bad, retired or in a cluster that the grade fuses off (R420). -/
def State.unusableBit (s : State) (n : Nat) : Bool :=
  !clusterFitted s.fuses.grade (n / 5) || (s.phy n).bad || (s.phy n).retired

/-- The physical cores behind a cluster's four logical numbers at cold bring-up: usable ones fill positions from 0 (R413). -/
def State.fillCluster (s : State) (x : Nat) : List (Option Nat) :=
  let l := ((List.range 5).map (fun i => 5 * x + i)).filter s.usable
  (List.range 4).map (fun p => l[p]?)

/-- The mapping of all 32 numbers at cold bring-up. -/
def State.fillAll (s : State) : List (Option Nat) := (List.range 8).flatMap s.fillCluster

/-- Bits of the numbers that a physical core holds. -/
def presentMask (l : List (Option Nat)) : Nat := (l.mapIdx (fun i c => if c.isSome then 2 ^ i else 0)).sum

/-- The spare of a cluster: a usable core that holds no number (R4, R418). -/
def State.spareOf (s : State) (x : Nat) : Option Nat :=
  ((List.range 5).map (fun i => 5 * x + i)).find? (fun n => s.usable n && !s.health.cores.contains (some n))

/-- The logical number of a physical core. -/
def State.logicalOf (s : State) (n : Nat) : Option Nat := s.health.cores.findIdx? (fun c => c = some n)

/-- Retire a physical core at step 6: its number passes to the spare, or stays absent (R417, R418, R424). -/
def State.retireCore (s : State) (n : Nat) : State :=
  if (s.phy n).retired then s
  else
    let t := (s.setPhys n (fun p => { p with retired := true })).recordRet 1 n 0
    match t.logicalOf n with
    | none => (t.noticeUnit 1 n 0xff 0 []).logRet 1 n 0
    | some l =>
      let sp := t.spareOf (n / 5)
      let u := t.setHealth (fun h => { h with cores := h.cores.set l sp })
      (u.noticeUnit 1 n l (b2n sp.isSome) []).logRet 1 n 0

/-- A cluster is absent: its five cores are retired as kind 1 and its numbers are absent (R424). -/
def State.loseCluster (s : State) (x : Nat) : State :=
  if (s.cluster x).absent || !clusterFitted s.fuses.grade x then s
  else
    let t := s.setCluster x (fun c => { c with absent := true, powered := false, point := 0 })
    let t := (List.range 5).foldl (fun t i =>
      let n := 5 * x + i
      if (t.phy n).bad || (t.phy n).retired then t
      else ((t.setPhys n (fun p => { p with retired := true })).recordRet 1 n 0).logRet 1 n 0) t
    let t := t.setHealth (fun h => { h with cores := h.cores.mapIdx (fun i c => if i / 4 = x then none else c) })
    t.noticeUnit 8 x 0xff 0 []

/-- Die-to-die lanes of one link: 512 data lanes and 16 spares (R408). Link d holds lanes 528 × d to 528 × d + 527 (log entry 116). -/
def linkLanes : Nat := 528

/-- A link has lost more lanes than its spares (R409, R424), fused repairs counted (R408): its entries in the record keep its die absent. -/
def State.linkDead (s : State) (d : Nat) : Bool :=
  16 < (s.fuses.d2dSpares.filter (fun e => e.1 = d)).length + (s.record.filter (fun e => e.kind = 5 && e.unit / linkLanes = d)).length

/-- A compute die is absent: its numbers are absent (R409). -/
def State.loseDie (s : State) (d : Nat) : State :=
  if (List.range 4).all (fun i => (s.cluster (4 * d + i)).absent) then s else
  let t := s.setHealth (fun h => { h with cores := h.cores.mapIdx (fun i c => if i / 16 = d then none else c) })
  let t := (List.range 4).foldl (fun t i => t.setCluster (4 * d + i) (fun c => { c with absent := true, powered := false, point := 0 })) t
  t.noticeUnit 13 d 0xff 0 []

/-- Retire a die-to-die lane as kind 5 (R409). -/
def State.retireD2d (s : State) (l : Nat) : State :=
  if s.recorded 5 l then s else ((s.recordRet 5 l 0).noticeUnit 5 l 0xff 0 []).logRet 5 l 0

/-- Retire a 112 Gb/s lane as kind 4 (R410). -/
def State.retireLane (s : State) (n : Nat) : State :=
  let l := s.fab.lanes.getD n Lane.reset
  if l.retired then s
  else
    let t := s.setFab (fun f => { f with lanes := lMod f.lanes n (fun l => { l with retired := true, up := false }) })
    ((t.recordRet 4 n 0).noticeUnit 4 n 0xff 0 []).logRet 4 n 0

/-! ## Raising a fault (R421, R422) -/

/-- Unit kind of the event log for a fault's cause (R421, R431). -/
def faultKind (cause : Nat) : Nat :=
  match cause with
  | 1 => 1
  | 2 => 1
  | 3 => 8
  | 4 => 2
  | 5 => 2
  | 7 => 8
  | _ => 13

/-- The unit class of a fault's cause (R421, R424): core, pseudo-channel, frame, cluster or compute die. -/
def unitClass (cause : Nat) : Nat :=
  match cause with
  | 1 => 1
  | 2 => 1
  | 3 => 8
  | 4 => 3
  | 5 => 2
  | 7 => 8
  | _ => 13

/-- Two checks name the same unit (R422). -/
def FaultUnit.same (u v : FaultUnit) : Bool := unitClass u.cause = unitClass v.cause && u.unit = v.unit && u.frame = v.frame

/-- A unit joins those that a reseat classifies, once (R422). -/
def addUnit (l : List FaultUnit) (u : FaultUnit) : List FaultUnit := if l.any u.same then l else l ++ [u]

/-- The compute dies are switched off (R416 step 3). -/
def State.diesOff (s : State) : State := { s with clusters := s.clusters.map (fun c => { c with powered := false, point := 0 }) }

/-- A read of the compute dies: at a reseat it is discarded, while an accepted write is performed (R300). -/
def coreRead : MemUser → Bool
  | .core _ => true
  | _ => false

/-- A controller without the reads of the compute dies. -/
def Chan.dropReads (c : Chan) : Chan :=
  { c with rq := c.rq.filter (fun r => !coreRead r.who), waiting := c.waiting.filter (fun h => h.write || !coreRead h.who) }

/-- Everything of the compute dies that a reseat loses (R419). Powering the dies off also clears the arrays (R412). -/
def State.loseCompute (s : State) : State :=
  { s with
    chans := s.chans.map Chan.dropReads,
    cores := s.cores.map (fun _ => Core.empty), flight := [], shelf := [],
    clusters := s.clusters.map (fun c => { c with flags := [], corrected := 0 }),
    phys := s.phys.map (fun p => { p with corrected := 0 }),
    fab := { s.fab with credits := [] } }

/-- The start of a reseat (R416): notice 0x4004, every suite freed, the compute dies stopped and switched off. -/
def State.startReseat (s : State) : State :=
  let t := s.noticeAll 0x4004 (toLE 8 s.now)
  let t := (List.range 32).foldl (fun t k => t.freeSuite k 0x03 0x62) t
  t.loseCompute.diesOff.setHealth (fun h =>
    { h with phase := 5, reason := 0, reseatAt := some s.now, reseats := inc32 h.reseats, reseatMs := h.reseatMs })

/-- A hardware check raises a fault (R421). Before the first ready, in phase 6 and after a hub fault no reseat starts. A fault
during a live-update pause is held (R390). -/
def State.raiseFault (s : State) (cause unit frame : Nat) : State :=
  if !s.ready || s.health.hubFault then s
  else
    let u : FaultUnit := { cause := cause, unit := unit, frame := frame }
    let t := s.setHealth (fun h => { h with cause := cause, unit := unit, outcome := 0, faults := inc32 h.faults })
    let t := t.logE 0x0001 3 0xff 0xff (faultKind cause) unit cause (if cause = 4 then frame else 0) 0
    if s.fw.update = 4 then t.setHealth (fun h => { h with heldFault := h.heldFault ++ [u] })
    else
      let t := t.setHealth (fun h => { h with units := addUnit h.units u })
      if s.reseating then t else t.startReseat

/-- Handle the faults that a pause held (R390). -/
def State.releaseFaults (s : State) : State :=
  if s.health.heldFault.isEmpty then s
  else
    let t := s.setHealth (fun h => { h with units := h.heldFault.foldl addUnit h.units, heldFault := [] })
    if t.reseating then t else t.startReseat

/-! ## The end of a reseat (R416 to R418, R424, R425, R430) -/

/-- Set the outcome of the last fault when it names this unit (R437). -/
def State.outcome (s : State) (u : FaultUnit) (o : Nat) : State :=
  if unitClass s.health.cause = unitClass u.cause && s.health.unit = u.unit then s.setHealth (fun h => { h with outcome := o }) else s

/-- A transient of a core that passed its retest; its third within 86,400 s retires it (R425). -/
def State.coreTransient (s : State) (u : FaultUnit) : State :=
  let l := (s.phy u.unit).transients ++ [s.now]
  let t := (s.setPhys u.unit (fun p => { p with transients := l })).logTransient 1 u.unit u.cause 0
  match l[l.length - 3]? with
  | some a => if 3 ≤ l.length && s.now - a < 86400000000000 then (t.retireCore u.unit).outcome u 2 else t.outcome u 1
  | none => t.outcome u 1

/-- The refresh interval in sixteenths of a nanosecond (R294). -/
def refreshInterval (fast : Bool) : Nat := if fast then 31200 else 62400

/-- A retrained pseudo-channel joins the refresh schedule again, at its offset from a later multiple of the interval (R411). -/
def State.rejoinRefresh (s : State) (p : Nat) : State :=
  let i := refreshInterval (s.xlt.stackFast.getD (p / 32) false)
  s.setChan p (fun c => { c with openRow := [], nextRef := (16 * s.now / i + 1) * i + 975 * p })

/-- A cluster passes when its shelf passes and its regulator holds its point (R424). -/
def State.classifyCluster (s : State) (r : TestResults) (u : FaultUnit) : State :=
  if r.shelves.contains u.unit || r.regulators.contains u.unit then (s.loseCluster u.unit).outcome u 3
  else (s.logTransient 8 u.unit u.cause 0).outcome u 1

/-- Step 6: classify one unit that a fault named (R417, R424). -/
def State.classify (s : State) (r : TestResults) (u : FaultUnit) : State :=
  match u.cause with
  | 1 => if r.cores.contains u.unit then (s.retireCore u.unit).outcome u 2 else s.coreTransient u
  | 2 => if r.cores.contains u.unit then (s.retireCore u.unit).outcome u 2 else s.coreTransient u
  | 4 => (s.retireFrame u.unit u.frame).outcome u 2
  | 5 => if r.pcs.contains u.unit then (s.retireChan u.unit).outcome u 2 else ((s.rejoinRefresh u.unit).logTransient 2 u.unit 5 0).outcome u 1
  | 3 => s.classifyCluster r u
  | 7 => s.classifyCluster r u
  | _ => s.outcome u (if r.dies.contains u.unit || s.linkDead u.unit then 3 else 1)

/-- Cores that failed loading lost their bit, and are retired now (R229). -/
def State.loadFailures (s : State) : List Nat :=
  (s.health.cores.mapIdx (fun i c => match c with
    | some n => if bit s.health.present i then none else some n
    | none => none)).filterMap id

/-- Power the clusters at 0.75 V and set their targets to their floors (R406, R416). -/
def State.powerClusters (s : State) : State :=
  { s with clusters := s.clusters.mapIdx (fun x c =>
      if clusterFitted s.fuses.grade x && !c.absent then { c with powered := true, point := 750, target := c.floor } else c) }

/-- Steps 3 to 7 of a reseat. A spare that fails its test is retired before any number could pass to it (R418). -/
def State.endReseat (s : State) (r : TestResults) (epoch : Nat) : State :=
  let t := r.d2dLanes.foldl State.retireD2d s
  let t := (r.cores.filter (fun n => t.usable n && (t.logicalOf n).isNone)).foldl State.retireCore t
  let t := t.loadFailures.foldl State.retireCore t
  let t := s.health.units.foldl (fun t u => t.classify r u) t
  let t := (r.shelves ++ r.regulators).foldl State.loseCluster t
  let t := (r.cores.filter (fun n => t.usable n)).foldl State.retireCore t
  let t := (r.dies ++ (List.range 2).filter t.linkDead).foldl State.loseDie t
  let t := t.setHealth (fun h => { h with units := [], reseatAt := none, present := presentMask h.cores })
  let t := t.powerClusters
  if t.presentChans.isEmpty then t.setHealth (fun h => { h with phase := 6, reason := 1 })
  else if t.health.present = 0 then t.setHealth (fun h => { h with phase := 6, reason := 2 })
  else
    let ms := (s.now - s.health.reseatAt.getD s.now) / 1000000
    let t := t.setHealth (fun h => { h with phase := 4, reason := 0, reseatMs := min ms 0xffff })
    let t := t.setFab (fun f => { f with epoch := epoch, peers := f.peers.map (fun e => (e.1, e.2.restart)) })
    t.noticeAll 0x4005 (toLE 8 s.now)

/-- RESEAT_READY (R416): it waits for a trip's cool-down (R401) and for the firmware. -/
def State.reseatReady (s : State) (r : TestResults) (epoch : Nat) : State :=
  if s.reseating && s.firmwareActs && !s.power.trip then s.endReseat r epoch else s

/-! ## The hub fault (R427) -/

/-- Both copies of a hub-die word are uncorrectable. The compute dies power off and no notice 0x4005 follows. -/
def State.hubFaultNow (s : State) (array word : Nat) : State :=
  if !s.on || s.health.hubFault then s
  else
    let t := s.logE 0x0004 3 0xff 0xff 0 0 array word 0
    let t := t.noticeAll 0x4004 (toLE 8 s.now)
    let t := (List.range 32).foldl (fun t k => t.freeSuite k 0x03 0x62) t
    t.loseCompute.diesOff.setHealth (fun h => { h with hubFault := true })

/-! ## Commands -/

/-- RESEAT_READY (R416). -/
def execReseatReady (r : TestResults) (epoch : Nat) (s : State) : Res := whenOn s (s.reseatReady r epoch)

/-- HUB_FAULT (R427). -/
def execHubFault (array word : Nat) (s : State) : Res := whenOn s (s.hubFaultNow array word)

/-- D2D_REPLAY_LIMIT (R421, cause 0x06). -/
def execD2dReplayLimit (die : Nat) (s : State) : Res := onUnit (die < 2) s (s.raiseFault 6 die 0)

/-- REGULATOR_FAULT (R421, cause 0x07). A cluster that the grade fuses off is unpowered and takes part in nothing (R397). -/
def execRegulatorFault (x : Nat) (s : State) : Res :=
  onUnit (x < 8) s (if clusterFitted s.fuses.grade x && (s.cluster x).powered then s.raiseFault 7 x 0 else s)

/-- What a scrub of one word does (R423, R427): correct and count, or raise a fault. -/
def State.scrubWord (s : State) (t : ScrubTarget) (uncorr : Bool) : State :=
  match t with
  | .coreStore n =>
    if !s.usable n then s
    else if uncorr then s.raiseFault 2 n 0
    else s.setPhys n (fun p => { p with corrected := inc32 p.corrected })
  | .shelf x =>
    if !clusterFitted s.fuses.grade x || (s.cluster x).absent then s
    else if uncorr then s.raiseFault 3 x 0
    else s.setCluster x (fun c => { c with corrected := inc32 c.corrected })
  | .hubCopy => if uncorr then s.setHealth (fun h => { h with repairs := incTo 0xffff h.repairs }) else s

/-- A scrub target that some part has. -/
def scrubOk : ScrubTarget → Bool
  | .coreStore n => n < 40
  | .shelf x => x < 8
  | .hubCopy => true

/-- SCRUB (R423, R427). -/
def execScrub (t : ScrubTarget) (uncorr : Bool) (s : State) : Res := onUnit (scrubOk t) s (s.scrubWord t uncorr)

end Sys2Proof.Machine
end

