-- ==== Sys2Proof/Machine/Flags.lean ====
section
/-! DEFINITION. Counting flags (R109, R120 to R123): values, waits, rights and additions. -/

namespace Sys2Proof.Machine

/-- The committed value of a flag. -/
def State.flagValue (s : State) : FlagName → Nat
  | .core c l => (aGet (s.core c).flags l).getD 0
  | .shelf x l => (aGet (s.cluster x).flags l).getD 0

/-- R121: a wait on a flag of value f with target v is satisfied when (f − v) mod 2^32 is below 2^31. -/
def flagMet (f v : Nat) : Bool := (f + M32 - v % M32) % M32 < 0x80000000

/-- Add an increment, modulo 2^32 (R120). -/
def State.addFlag (s : State) (f : FlagName) (inc : Nat) : State :=
  match f with
  | .core c l => s.setCore c (fun x => { x with flags := aSet x.flags l (((aGet x.flags l).getD 0 + inc) % M32) })
  | .shelf x l => s.addShelfFlag x l inc

/-- A shelf flag lies in the suite's range of its cluster (R22, R109). -/
def State.shelfFlagIn (s : State) (k x l : Nat) : Bool :=
  match (s.suite k).grants[x]? with
  | some g => g.flag0 ≤ l && l < g.flag0 + g.flags
  | none => false

/-- Signal rights of R109: any core of the flag's suite. -/
def State.maySignal (s : State) (k : Nat) : FlagName → Bool
  | .core c l => c < 32 && bit (s.suite k).mask c && l < 1024
  | .shelf x l => s.shelfFlagIn k x l

/-- Wait rights of R109: a core flag's owner only. -/
def State.mayWait (s : State) (k n : Nat) : FlagName → Bool
  | .core c l => c = n && l < 1024
  | .shelf x l => s.shelfFlagIn k x l

/-- A wait that is not met, as `core.stall_wait` shows it (R241): kind 4 or 5. -/
def flagWaitWord : FlagName → Nat
  | .core c l => 4 * 0x20000000 + c * 0x1000000 + l
  | .shelf x l => 5 * 0x20000000 + x * 0x1000000 + l

/-- A wait at a queue end of this chip: kind 1 entry, 2 space or 6 entry guard. -/
def queueWaitWord (kind core idx : Nat) : Nat := kind * 0x20000000 + core * 0x1000000 + idx

/-- A handshake completes: the watchdog restarts its count (R239). -/
def State.handshake (s : State) (k : Nat) : State := s.setSuite k (fun x => { x with stallFrom := s.now })

/-- A flag change of core n waits for its turn under R123. -/
def State.pendFlag (s : State) (n no : Nat) (f : FlagName) (inc : Nat) : State :=
  s.setCore n (fun c => { c with seq := { c.seq with flags := c.seq.flags ++ [{ no := no, flag := f, inc := inc }] } })

/-- The change that a completed instruction's signal clause makes (R141). -/
def State.pendSignal (s : State) (n no : Nat) : Option SignalClause → State
  | some c => s.pendFlag n no c.flag c.inc
  | none => s

/-- An issued instruction that can push to a queue end or store (R123). -/
def pushesOrStores : TInstr → Bool
  | .qWait _ => false
  | .qSignal _ => false
  | .qBarrier _ => false
  | .ctlLoop _ => false
  | .ctlGuard _ => false
  | .ctlCommit => false
  | .ctlShape _ => false
  | .ctlHalt _ => false
  | _ => true

/-- R123: nothing that core n issued before number `no` still has to push, to arrive or to store. Its own pushes have arrived
too. Pushes of a fallback fetch count as the source's (R133). -/
def State.ordered (s : State) (n no : Nat) : Bool :=
  (s.core n).seq.flow.all (fun f => match f with
    | .work i => no ≤ i.no || !pushesOrStores i.instr
    | _ => true) &&
  s.flight.all (fun p => p.src != n || no < p.no) &&
  s.cores.all (fun c => c.fallbacks.all (fun f => f.src != n || no < f.run.i.no))

/-- A flag change takes effect (R123). -/
def State.signalEffect (s : State) (n j : Nat) : State :=
  match (s.core n).seq.flags[j]?, s.suiteOf n with
  | some p, some k =>
    if (s.suite k).st = 4 && s.ordered n p.no then
      ((s.setCore n (fun c => { c with seq := { c.seq with flags := c.seq.flags.eraseIdx j } })).addFlag p.flag p.inc).handshake k
    else s
  | _, _ => s

end Sys2Proof.Machine
end

