-- ==== Sys2Proof/Machine/Operands.lean ====
section
/-! DEFINITION. Operands of the tile-interface instructions (R139 to R145): extents and targets, elements entering FP24 lanes
and leaving them (R45 to R49, R148), numeric records (R51), and queue ends as names, space and entries (R108 to R118). -/

namespace Sys2Proof.Machine

/-! ## Shape registers, extents, targets -/

def shVal (sh : List ShVal) (r : Nat) : Option Nat :=
  match sh.getD r (.known 0) with
  | .known v => some v
  | .pending _ => none

/-- The shape register that an extent names exists (R144). -/
def extOk : Ext → Bool
  | .imm _ => true
  | .sh r => r < 16

/-- An extent's value at the instruction's point in issue order; none while its `ctl.shape` is outstanding. -/
def extVal (sh : List ShVal) : Ext → Option Nat
  | .imm n => some n
  | .sh r => shVal sh r

/-- A target (R141). -/
def targetVal (sh : List ShVal) (t : Target) : Option Nat :=
  match t.sh with
  | none => some (t.imm % M32)
  | some r => (shVal sh r).map (fun v => (v + t.imm) % M32)

/-- Every extent of a list, once all are known. -/
def extVals (sh : List ShVal) (l : List Ext) : Option (List Nat) := l.mapM (extVal sh)

/-! ## Elements -/

/-- The suite's subnormal mode and fused-head enable (R48). -/
def Suite.flush (k : Suite) : Bool := bit k.mode 0

def Suite.fusedEn (k : Suite) : Bool := bit k.mode 1

/-- The exact value of an element (R36 to R38), and whether flush mode replaced a subnormal operand (R49). -/
def Entry.operand (e : Entry) (flush : Bool) (m j : Nat) : Num × Nat :=
  match fmtOf e.fmt with
  | some f => if isMx e.fmt then (mxValue f (e.elem m j) (e.scaleAt m (j / 32)), 0) else decodeIn f flush (e.elem m j)
  | none => (.nan, 0)

/-- An element entering an FP24 lane (R148 step 1). -/
def Entry.lane (e : Entry) (flush : Bool) (m j : Nat) : Nat × Ev :=
  let v := e.operand flush m j
  let c := encode fp24 flush v.1
  (c.1, { c.2 with flush := c.2.flush + v.2 })

/-- Places of an entry, row by row. -/
def places (rows cols : Nat) : List (Nat × Nat) := (List.range rows).flatMap (fun m => (List.range cols).map (fun j => (m, j)))

/-- All lanes of an entry, row by row, with the events of their entry. -/
def Entry.lanes (e : Entry) (flush : Bool) : List Nat × Ev :=
  let l := (places e.rows e.cols).map (fun p => e.lane flush p.1 p.2)
  (l.map Prod.fst, Ev.total (l.map Prod.snd))

/-- All exact values of an entry. -/
def Entry.values (e : Entry) (flush : Bool) : List Num × Ev :=
  let l := (places e.rows e.cols).map (fun p => e.operand flush p.1 p.2)
  (l.map Prod.fst, { sat := 0, flush := satCount ((l.map Prod.snd).sum) })

/-- A tensor written out: entry, events and NaN elements. -/
structure OutT where
  entry : Entry
  ev    : Ev
  nans  : Nat
  deriving DecidableEq, Repr, Inhabited

/-- Write values into a format that is not MX. -/
def exitWide (flush : Bool) (code : Nat) (f : Fmt) (rows cols : Nat) (vs : List Num) : OutT :=
  let cs := vs.map (encode f flush)
  { entry := wideEntry code rows cols (cs.map Prod.fst), ev := Ev.total (cs.map Prod.snd),
    nans := (cs.filter (fun c => isNanCode f c.1)).length }

/-- Block b of row m of values in row order, padded with +0 (R38). -/
def blockVals (cols m b : Nat) (vs : List Num) : List Num :=
  let l := (((vs.drop (m * cols)).take cols).drop (32 * b)).take 32
  l ++ List.replicate (32 - l.length) (.fin false 0 1)

/-- Write values into an MX format block by block. -/
def exitBlocks (code rows cols : Nat) (vs : List Num) (enc : Nat → Nat → List Num → MxOut) : OutT :=
  let os := (places rows (blocksOf cols)).map (fun p => enc p.1 p.2 (blockVals cols p.1 p.2 vs))
  { entry := mxEntry code rows cols (os.flatMap MxOut.codes) (os.map MxOut.scale),
    ev := { sat := satCount ((os.map MxOut.sat).sum), flush := 0 }, nans := (os.map MxOut.nans).sum }

/-- The exit rule of R148: convert to the output format, MX scales chosen (R46) or popped (R47). -/
def exitTensor (flush : Bool) (code rows cols : Nat) (vs : List Num) (scales : Option Entry) : OutT :=
  match fmtOf code with
  | none => { entry := emptyEntry .tensor code, ev := Ev.none, nans := 0 }
  | some f =>
    if isMx code then
      exitBlocks code rows cols vs (fun m b l => match scales with
        | some e => mxSupplied code f (e.data.getD (m * e.cols + b) 0xff) l
        | none => mxChosen code f l)
    else exitWide flush code f rows cols vs

/-! ## Numeric records (R51) -/

/-- What an operation's record counts. -/
structure Counts where
  ev       : Ev
  nans     : Nat
  elements : Nat
  deriving DecidableEq, Repr, Inhabited

/-- The record of an empty instruction: bytes 0 to 15 are zero. -/
def Counts.zero : Counts := { ev := Ev.none, nans := 0, elements := 0 }

/-- The 32 bytes of a record. -/
def recordBytes (c : Counts) (idx suite core source mode issue : Nat) : List Byte :=
  toLE 4 c.ev.sat ++ toLE 4 c.ev.flush ++ toLE 4 c.nans ++ toLE 4 c.elements ++ toLE 4 idx ++ toLE 1 suite ++ toLE 1 core ++
    toLE 1 source ++ toLE 1 mode ++ toLE 4 issue ++ zeros 4

def recordOf (c : Counts) (idx suite core source mode issue : Nat) : Entry :=
  fixedEntry ((recordBytes c idx suite core source mode issue).map BitVec.toNat)

/-- Sticky bits (R50). -/
def Core.note (c : Core) (k : Counts) : Core :=
  { c with nanSeen := c.nanSeen || k.nans != 0, satSeen := c.satSeen || k.ev.sat != 0,
           flushSeen := c.flushSeen || k.ev.flush != 0 }

/-- Times that a core has committed an instruction index, modulo 2^32 (R51). -/
def Core.issueCount (c : Core) (idx : Nat) : Nat := (aGet c.seq.issues idx).getD 0

/-- One more commit of an instruction index. -/
def Core.countIssue (c : Core) (idx : Nat) : Core :=
  { c with seq := { c.seq with issues := aSet c.seq.issues idx ((c.issueCount idx + 1) % M32) } }

/-! ## Queue ends -/

/-- A name whose chip number is the device's own names a local queue end (R110). -/
def State.localName (s : State) (q : QName) : QName :=
  match q.chip with
  | some c => if c = s.fab.chip && c != 0xfffff then { q with chip := none } else q
  | none => q

/-- The queue end that a local name names, if it is bound. -/
def State.queue? (s : State) (q : QName) : Option QueueEnd := aGet (s.core q.core).queues q.idx

/-- The same producer: core `n` of this chip. -/
def producerIs (s : State) (p : Producer) (n : Nat) : Bool :=
  p.core = n && (match p.chip with | none => true | some c => c = s.fab.chip && c != 0xfffff)

/-- A binding lists a producer on another chip that passes a test. -/
def State.remoteProducer (s : State) (n qi : Nat) (test : Producer → Bool) : Bool :=
  match aGet (s.core n).queues qi with
  | some x => x.producers.any (fun p => p.chip.isSome && test p)
  | none => false

/-- Granules of pushes on their way to a queue end of this chip. -/
def State.inFlight (s : State) (core qi : Nat) : Nat :=
  ((s.flight.filter (fun p => p.core = core && p.qi = qi)).map Push.gr).sum

/-- Credits that core n of this chip holds for a queue end. -/
def QueueEnd.creditOf (q : QueueEnd) (n : Nat) : Nat :=
  match q.credits.find? (fun c => c.core = n) with
  | some c => c.n
  | none => 0

/-- Add to a producer's credits. -/
def addCredit (l : List Credit) (core n : Nat) : List Credit :=
  if l.any (fun c => c.core = core) then l.map (fun c => if c.core = core then { c with n := c.n + n } else c)
  else l ++ [{ core := core, n := n }]

def takeCredit (l : List Credit) (core n : Nat) : List Credit :=
  l.map (fun c => if c.core = core then { c with n := c.n - n } else c)

/-- The owning core's own pushes wait for free granules, not for credits (R116). -/
def QueueEnd.selfFed (q : QueueEnd) (core n : Nat) : Bool := !q.merge && core = n

/-- Credits that this chip holds for a remote queue end. -/
def State.remCredit (s : State) (chip qword : Nat) : Nat :=
  match s.fab.credits.find? (fun c => c.chip = chip && c.qword = qword) with
  | some c => c.n
  | none => 0

/-- R116, R117, R127: a push of `g` granules may leave core n. -/
def State.roomFor (s : State) (n : Nat) (q : QName) (g : Nat) : Bool :=
  match q.chip with
  | some c => g ≤ s.remCredit c (queueWord q.core q.idx n) && s.linkTakes c g
  | none =>
    match s.queue? q with
    | none => false
    | some x =>
      if x.selfFed q.core n then x.used + s.inFlight q.core q.idx + g ≤ x.depth
      else g ≤ x.creditOf n

/-- The push of an entry may leave core n. -/
def State.room (s : State) (n : Nat) (q : QName) (e : Entry) : Bool := s.roomFor n q e.granules

/-- The unmet wait of a push (R241): space at a queue end of this chip, or credits for a remote one. The chip of a remote queue end
stands above the 32 bits that `core.stall_wait` shows. -/
def pushWaitWord (q : QName) : Nat :=
  match q.chip with
  | some c => queueWaitWord 3 q.core q.idx + M32 * c
  | none => queueWaitWord 2 q.core q.idx

/-- Change a queue end of this chip. -/
def State.setQueue (s : State) (core qi : Nat) (f : QueueEnd → QueueEnd) : State :=
  s.setCore core (fun c => { c with queues := aMod c.queues qi f })

/-- A push leaves core n under issue number `no`: credits are consumed; a remote push goes to the link. -/
def State.push (s : State) (n no : Nat) (q : QName) (e : Entry) : State :=
  let e := { e with chip := none, core := n }
  match q.chip with
  | some c =>
    let w := queueWord q.core q.idx n
    (s.setFab (fun f => { f with credits := f.credits.map (fun r =>
      if r.chip = c && r.qword = w then { r with n := r.n - e.granules } else r) })).sendEntry c w e
  | none =>
    let t := match s.queue? q with
      | some x => if x.selfFed q.core n then s
                  else s.setQueue q.core q.idx (fun y => { y with credits := takeCredit y.credits n e.granules })
      | none => s
    { t with flight := t.flight ++ [{ src := n, no := no, core := q.core, qi := q.idx, gr := e.granules, entry := e }] }

/-- Granules that a pop frees go back to the entry's producer (R114 to R117, R356). -/
def State.giveBack (s : State) (n qi : Nat) (x : QueueEnd) (e : Entry) : State :=
  match e.chip with
  | some c => s.oweCredit c (queueWord n qi e.core) e.granules
  | none =>
    if x.selfFed n e.core then s
    else if e.core = n then s.setQueue n qi (fun y => { y with credits := addCredit y.credits n e.granules })
    else s.setQueue n qi (fun y => { y with back := addCredit y.back e.core e.granules })

/-- Pop entry j of a queue end of core n; its head is entry 0. -/
def State.popAt (s : State) (n qi j : Nat) : Option (Entry × State) :=
  match aGet (s.core n).queues qi with
  | none => none
  | some x =>
    match x.entries[j]? with
    | none => none
    | some e =>
      some (e, (s.setQueue n qi (fun y =>
        { y with entries := y.entries.eraseIdx j, used := y.used - e.granules })).giveBack n qi x e)

/-- Pop the head of a queue end of core n. -/
def State.pop (s : State) (n qi : Nat) : Option (Entry × State) := s.popAt n qi 0

/-- The head of a queue end of core n, which stays there. -/
def State.head? (s : State) (n qi : Nat) : Option Entry := (aGet (s.core n).queues qi).bind (fun x => x.entries.head?)

/-- Pop a list of queue ends in order; the first missing entry gives the unmet wait. -/
def State.popAll (s : State) (n : Nat) : List Nat → (List Entry × State) ⊕ Nat
  | [] => .inl ([], s)
  | q :: t =>
    match s.pop n q with
    | none => .inr (queueWaitWord 1 n q)
    | some (e, s1) =>
      match s1.popAll n t with
      | .inl (es, s2) => .inl (e :: es, s2)
      | .inr w => .inr w

/-- Waits for entries that are missing, in operand order (R240): the j-th pop of one queue end needs j entries. -/
def State.missing (s : State) (n : Nat) : List Nat → List Nat → List Nat
  | _, [] => []
  | seen, q :: t =>
    let have_ := match aGet (s.core n).queues q with
      | some x => x.entries.length
      | none => 0
    (if have_ ≤ (seen.filter (· = q)).length then [queueWaitWord 1 n q] else []) ++ s.missing n (seen ++ [q]) t

end Sys2Proof.Machine
end

