-- ==== Sys2Proof/Machine/Array.lean ====
section
/-! DEFINITION. The dot-product array (R54 to R71): the arithmetic of one block, one output and one instruction. -/

namespace Sys2Proof.Machine

/-! ## One block (R57 to R61) -/

/-- Round into FP24 where nothing can saturate or flush (R59). -/
def round24 (x : Num) : Nat := (encode fp24 false x).1

/-- The 32 products of two blocks (R57). -/
def products (af wf : Fmt) (a w : Block) : List Nat :=
  (a.codes.zip w.codes).map (fun p => round24 ((decode af p.1).mul (decode wf p.2)))

/-- One level of the tree of R58: adjacent pairs. -/
def pairUp : List Nat → List Nat
  | a :: b :: t => round24 ((v24 a).add (v24 b)) :: pairUp t
  | l => l

/-- The tree of five levels (R58). -/
def blockTree (p : List Nat) : Nat := (pairUp (pairUp (pairUp (pairUp (pairUp p))))).headD 0

/-- floor(log2) of a nonzero finite value's magnitude. -/
def expOf : Num → Option Int
  | .fin _ n d => if n = 0 then none else some (floorLog2 n d)
  | _ => none

/-- The magnitude truncated to a multiple of 2^g, counted in that unit, with its sign (R60). -/
def truncTo (g : Int) : Num → Int
  | .fin s n d =>
    let q : Nat := if 0 ≤ g then n / (d * 2 ^ g.toNat) else n * 2 ^ (-g).toNat / d
    if s then -(Int.ofNat q) else Int.ofNat q
  | _ => 0

/-- A whole number of units 2^g as a value; zero is +0. -/
def unitsOf (g q : Int) : Num :=
  let p := pow2Frac q.natAbs g
  .fin (decide (q < 0)) p.1 p.2

/-- Fused alignment (R60). -/
def blockFused (p : List Nat) : Nat :=
  let vs := p.map v24
  if vs.any Num.isNan then nanCode fp24
  else match vs.filterMap expOf with
    | [] => if vs.all Num.isNeg then signBit fp24 true else 0
    | e :: t =>
      let g := t.foldl max e - 18
      round24 (unitsOf g ((vs.map (truncTo g)).sum))

/-- Apply the two scales (R61). -/
def scaleBlock (flush : Bool) (d ka kw : Nat) : Nat × Ev :=
  if ka = 0xff || kw = 0xff then (nanCode fp24, Ev.none)
  else rne24 flush ((v24 d).scale2 ((ka : Int) + (kw : Int) - 254))

/-- One block pair: products, sum, scales. -/
def dotBlock (flush fused : Bool) (af wf : Fmt) (a w : Block) : Nat × Ev :=
  let p := products af wf a w
  scaleBlock flush (if fused then blockFused p else blockTree p) a.scale w.scale

/-! ## One output (R62) -/

/-- A sum into FP24 with its events. -/
def addCounted (flush : Bool) (a : Nat × Ev) (b : Nat × Ev) : Nat × Ev :=
  let r := rne24 flush ((v24 a.1).add (v24 b.1))
  (r.1, (a.2.add b.2).add r.2)

/-- Block results in increasing block order; the first stands as it is. -/
def accumulate (flush : Bool) : List (Nat × Ev) → Nat × Ev
  | [] => (0, Ev.none)
  | a :: t => t.foldl (addCounted flush) a

/-- Output element of an activation row's blocks and a channel's blocks. -/
def dotOutput (flush fused : Bool) (af wf : Fmt) (a w : List Block) : Nat × Ev :=
  accumulate flush ((a.zip w).map (fun p => dotBlock flush fused af wf p.1 p.2))

/-! ## One instruction -/

/-- The nb blocks of row m of an MX entry. -/
def Entry.rowBlocks (e : Entry) (m nb : Nat) : List Block := (List.range nb).map (e.block m)

/-- FP24 outputs in ascending row and channel (R65, R66, R68), with the counts of R63. -/
structure Lanes where
  data   : List Nat
  counts : Counts
  deriving DecidableEq, Repr, Inhabited

/-- Outputs of activation rows against channels. -/
def matrixOut (flush fused : Bool) (af wf : Fmt) (rows chans : List (List Block)) : Lanes :=
  let os := rows.flatMap (fun a => chans.map (fun w => dotOutput flush fused af wf a w))
  let data := os.map Prod.fst
  { data := data,
    counts := { ev := Ev.total (os.map Prod.snd), nans := (data.filter (isNanCode fp24)).length, elements := data.length } }

/-- An MX tensor entry of `rows` rows and `nb` blocks in each (R142). -/
def Entry.isBlocks (e : Entry) (fmt rows nb : Nat) : Bool :=
  e.kind = .tensor && e.fmt = fmt && e.rows = rows && blocksOf e.cols = nb

/-- The bank that an `mx.seat` makes of its weight entry (R64). -/
def seatBank (e : Entry) (wfmt n nb : Nat) : SeatBank :=
  { fmt := wfmt, n := n, nb := nb, chans := (List.range n).map (fun c => e.rowBlocks c nb) }

/-- The outputs of an `mx.tile` over M rows, N channels and nb blocks (R65). -/
def tileOut (flush fused : Bool) (afmt : Nat) (a : Entry) (b : SeatBank) (m n nb : Nat) : Lanes :=
  match fmtOf afmt, fmtOf b.fmt with
  | some af, some wf =>
    matrixOut flush fused af wf ((List.range m).map (fun i => a.rowBlocks i nb)) ((b.chans.take n).map (fun c => c.take nb))
  | _, _ => { data := [], counts := Counts.zero }

/-- K steps of an `mx.bench` (R68, R70). -/
def benchSteps (wfmt nb : Nat) (fused : Bool) : Nat := if wfmt = 1 && !fused then (nb + 1) / 2 else nb

/-- Blocks that step t holds for each channel (R146). -/
def benchBlocks (wfmt nb t : Nat) (fused : Bool) : Nat := if wfmt = 1 && !fused then min 2 (nb - 2 * t) else 1

/-- The first block of K step t. -/
def benchFrom (wfmt t : Nat) (fused : Bool) : Nat := if wfmt = 1 && !fused then 2 * t else t

/-- Add block results to an output in block order; the first of all stands as it is (R62). -/
def addBlocks (flush : Bool) (acc : Option (Nat × Ev)) (l : List (Nat × Ev)) : Nat × Ev :=
  match acc with
  | none => accumulate flush l
  | some a => l.foldl (addCounted flush) a

/-- The accumulator region after K step t: each activation row's blocks of the step against each channel's (R68). The table lookup
of R69 gives the products of R57. -/
def benchAcc (flush fused : Bool) (af wf : Fmt) (wfmt : Nat) (a w : Entry) (m n nb t : Nat) (acc : List (Nat × Ev)) :
    List (Nat × Ev) :=
  let cnt := benchBlocks wfmt nb t fused
  (places m n).map (fun p =>
    addBlocks flush acc[p.1 * n + p.2]?
      (((((a.rowBlocks p.1 nb).drop (benchFrom wfmt t fused)).take cnt).zip (w.rowBlocks p.2 cnt)).map
        (fun b => dotBlock flush fused af wf b.1 b.2)))

/-- One K step: the weights go into the bank that the step before did not use, and the region takes its block results. -/
def BenchRun.advance (b : BenchRun) (flush fused : Bool) (afmt wfmt m n nb : Nat) (w : Entry) : BenchRun :=
  let acc := match fmtOf afmt, fmtOf wfmt with
    | some af, some wf => benchAcc flush fused af wf wfmt b.act w m n nb b.step b.acc
    | _, _ => b.acc
  { b with step := b.step + 1, acc := acc, bank0 := if b.step % 2 = 0 then some w else b.bank0,
           bank1 := if b.step % 2 = 1 then some w else b.bank1 }

/-- The outputs that stand in an accumulator region (R63, R68). -/
def lanesOf (l : List (Nat × Ev)) : Lanes :=
  let data := l.map Prod.fst
  { data := data,
    counts := { ev := Ev.total (l.map Prod.snd), nans := (data.filter (isNanCode fp24)).length, elements := data.length } }

/-! ## Main accumulators (R54, R65, R66) -/

/-- The outputs of the last pass of an instruction of M rows, row by row: 32 rows a pass, or one with fused alignment. -/
def lastPass (fused : Bool) (m cols : Nat) (x : List Nat) : List (List Nat) :=
  let first := if fused then m - 1 else 32 * ((m - 1) / 32)
  (List.range (m - first)).map (fun r => (x.drop ((first + r) * cols)).take cols)

/-- A pass leaves its outputs in the accumulators of the DPUs that computed; the others keep what they held. -/
def overlay (old new : List (List Nat)) : List (List Nat) :=
  new.mapIdx (fun r row => row ++ (old.getD r []).drop row.length) ++ old.drop new.length

/-! ## Beats, cushion and ramps (R74 to R77) -/

/-- What a gap's end leaves of the present check tile: one cut short starts anew, a completed one waits for its comparison (R76). -/
def Arr.tileKept (a : Arr) : Nat := if a.tileBeat = 32 then 32 else 0

/-- The ramp-down starts: its first beat-time runs (R75). One in progress goes on. -/
def Arr.windDown (a : Arr) : Arr :=
  if a.mode = 4 then a
  else { a with rows := a.rows - 2, mode := if a.rows = 0 then 0 else 4, gapStart := none, tileBeat := a.tileKept }

/-- An array that a suite stops using: accumulators, banks, bench and slots are gone and the ramp-down starts (R80, R107). -/
def Arr.stop (a : Arr) : Arr :=
  { a.windDown with bankA := none, bankB := none, bench := none, slots := List.replicate 8 [], main := [] }

/-- A real beat has completed and the next is not ready: a gap opens (R74). -/
def Arr.gap (a : Arr) (now : Nat) : Arr := { a with mode := 3, gapStart := some now, tileBeat := a.tileKept }

/-- R74, R76: one cushion beat of the present check tile, while the gap is younger than 2 µs. -/
def Arr.cushion (a : Arr) (now : Nat) : Arr :=
  match a.gapStart with
  | some g => if a.mode = 3 && a.rows = 32 && now < g + 2000 && a.tileBeat < 32 then { a with tileBeat := a.tileBeat + 1 } else a
  | none => a

/-- R75: one beat-time of a ramp-down. After the sixteenth the array is idle. -/
def Arr.rampDown (a : Arr) (now : Nat) : Arr :=
  if a.mode = 4 then (if a.rows = 0 then { a with mode := 0 } else { a with rows := a.rows - 2 })
  else match a.gapStart with
    | some g => if g + 2000 ≤ now then a.windDown else a
    | none => a

/-- R75: one beat-time of a ramp-up. -/
def Arr.rampUp (a : Arr) : Arr :=
  if 32 ≤ a.rows then a else { a with rows := a.rows + 2, mode := 5, gapStart := none, tileBeat := a.tileKept }

/-- The ramp step that `core.array_status` shows (R78): in beat-time i of a ramp-down rows 0 to 31 − 2i run, in one of a ramp-up rows
0 to 2i − 1. -/
def Arr.rampStep (a : Arr) : Nat := if a.mode = 4 then (32 - a.rows) / 2 else if a.mode = 5 then a.rows / 2 else 0

end Sys2Proof.Machine
end

