-- ==== Sys2Proof/Machine/Funcs.lean ====
section
/-! DEFINITION. The functions of R89 and R149, correctly rounded. Each is enclosed between two fractions computed in
fixed point; when both ends round to one FP24 code, that is the code of the exact value, and otherwise the precision is
raised. The last precision's enclosure is far narrower than any FP24 midpoint needs (log entry 6). -/

namespace Sys2Proof.Machine

/-- Σ of an alternating or positive arctan-like series: Σ_{k<fuel} sgn^k z^(2k+1)/(2k+1) in units of 2^-p. -/
def oddSeries (alt : Bool) (z z2 p : Nat) : Nat → Nat → Nat → Int → Int
  | 0, _, _, acc => acc
  | fuel + 1, k, t, acc =>
    let q : Nat := t / (2 * k + 1)
    let term : Int := Int.ofNat q
    oddSeries alt z z2 p fuel (k + 1) (t * z2 / 2 ^ p) (if alt && k % 2 = 1 then acc - term else acc + term)

/-- atanh(n/d) in units of 2^-p, for n/d at most 1/2. -/
def atanhFix (n d p : Nat) : Nat :=
  let z := n * 2 ^ p / d
  (oddSeries false z (z * z / 2 ^ p) p (p + 8) 0 z 0).toNat

/-- atan(1/d) in units of 2^-p. -/
def atanFix (d p : Nat) : Int :=
  let z := 2 ^ p / d
  oddSeries true z (z * z / 2 ^ p) p (p / 2 + 8) 0 z 0

/-- ln 2 in units of 2^-p: 2 atanh(1/3). -/
def ln2Fix (p : Nat) : Nat := 2 * atanhFix 1 3 p

/-- π in units of 2^-p, by Machin's formula. -/
def piFix (p : Nat) : Nat := (16 * atanFix 5 p - 4 * atanFix 239 p).toNat

/-- Σ_{k<fuel} r^k/k! in units of 2^-p. -/
def expSeries (r p : Nat) : Nat → Nat → Nat → Nat → Nat
  | 0, _, _, acc => acc
  | fuel + 1, k, t, acc => expSeries r p fuel (k + 1) (t * r / 2 ^ p / (k + 1)) (acc + t)

/-- e^x for x = ± n/d, as m × 2^(k - p): the pair (m, k), with m within 2^12 units of the exact value for |x| below 2^8. -/
def expFix (neg : Bool) (n d p : Nat) : Nat × Int :=
  let l : Nat := ln2Fix (p + 16) / 2 ^ 16
  let q : Nat := (n * 2 ^ p : Nat) / d
  let x : Int := if neg then -Int.ofNat q else Int.ofNat q
  let k := x / (l : Int)
  let r := (x - k * (l : Int)).toNat
  (expSeries r p (p / 2 + 16) 0 (2 ^ p) 0, k)

/-- A fraction m × 2^e. -/
def frac2 (m : Nat) (e : Int) : Nat × Nat := pow2Frac m e

/-- Round a positive enclosure (lo, hi) of fractions; none when its ends round apart. -/
def roundEncl (lo hi : Nat × Nat) : Option Nat :=
  let a := roundMag fp24 lo.1 lo.2
  let b := roundMag fp24 hi.1 hi.2
  if a = b then some a else none

/-- The first precision at which the enclosure decides; the last one's upper end stands otherwise. -/
def decideAt (encl : Nat → (Nat × Nat) × (Nat × Nat)) : List Nat → Nat
  | [] => 0
  | [p] => let e := encl p; roundMag fp24 e.2.1 e.2.2
  | p :: q :: rest =>
    let e := encl p
    match roundEncl e.1 e.2 with
    | some m => m
    | none => decideAt encl (q :: rest)

/-- Precisions tried for functions of one exponential. -/
def precs : List Nat := [128, 256, 512]

/-- Precisions tried for the normal distribution function. -/
def precsPhi : List Nat := [512, 768, 1024]

/-- Enclosure of e^x. -/
def expEncl (neg : Bool) (n d p : Nat) : (Nat × Nat) × (Nat × Nat) :=
  let e := expFix neg n d p
  (frac2 (e.1 - 4096) (e.2 - p), frac2 (e.1 + 4096) (e.2 - p))

/-- a / (a + b) for fractions, as a fraction. -/
def ratio (a b : Nat × Nat) : Nat × Nat := (a.1 * b.2, a.1 * b.2 + b.1 * a.2)

/-- Enclosure of 1/(1 + e^-x). -/
def sigmoidEncl (neg : Bool) (n d p : Nat) : (Nat × Nat) × (Nat × Nat) :=
  let e := expEncl (!neg) n d p
  (ratio (1, 1) e.2, ratio (1, 1) e.1)

/-- Enclosure of (e^2x - 1)/(e^2x + 1) for x = n/d > 0. -/
def tanhEncl (n d p : Nat) : (Nat × Nat) × (Nat × Nat) :=
  let e := expEncl false (2 * n) d p
  let f := fun (a : Nat × Nat) => (a.1 - a.2, a.1 + a.2)
  (f e.1, f e.2)

/-- Σ_{k<fuel} x^(2k+1)/(1·3·…·(2k+1)) in units of 2^-p. -/
def phiSeries (x2 p : Nat) : Nat → Nat → Nat → Nat → Nat
  | 0, _, _, acc => acc
  | fuel + 1, k, t, acc => phiSeries x2 p fuel (k + 1) (t * x2 / 2 ^ p / (2 * k + 3)) (acc + t)

/-- Enclosure of Φ(±n/d) for n/d at most 15: 1/2 ± e^(-x²/2)/√(2π) × Σ x^(2k+1)/(2k+1)!!. -/
def phiEncl (neg : Bool) (n d p : Nat) : (Nat × Nat) × (Nat × Nat) :=
  let x := n * 2 ^ p / d
  let s := phiSeries (x * x / 2 ^ p) p (p + 600) 0 x 0
  let e := expFix true (n * n) (2 * d * d) p
  let root := Nat.sqrt (2 * piFix p * 2 ^ p)
  let dens := (if 0 ≤ e.2 then e.1 * 2 ^ e.2.toNat else e.1 / 2 ^ (-e.2).toNat) * 2 ^ p / root
  let t := dens * s / 2 ^ p
  let half := 2 ^ (p - 1)
  let v := if neg then half - t else half + t
  let err := 2 ^ 184
  ((v - err, 2 ^ p), (v + err, 2 ^ p))

def mulFrac (a b : Nat × Nat) : Nat × Nat := (a.1 * b.1, a.2 * b.2)

/-- Is n/d below a/b? -/
def ltFrac (n d a b : Nat) : Bool := n * b < a * d

/-- The code of a magnitude with a sign, saturated and flushed as `rne24` does. -/
def finish24 (flush neg : Bool) (m : Nat) : Nat × Ev :=
  if fp24.max < m then (signBit fp24 neg + fp24.max, { sat := 1, flush := 0 })
  else if flush && isSubMag fp24 m then (signBit fp24 neg, { sat := 0, flush := 1 })
  else (signBit fp24 neg + m, Ev.none)

/-- x/2 + c x² enclosed for |x| below 2^-18, with c between lo/1000 and hi/1000: the start of GELU and SiLU. -/
def halfEncl (neg : Bool) (n d lo hi : Nat) : (Nat × Nat) × (Nat × Nat) :=
  let f := fun c => if neg then (1000 * n * d - 2 * c * n * n, 2000 * d * d) else (1000 * n * d + 2 * c * n * n, 2000 * d * d)
  (f lo, f hi)

/-- GELU, x Φ(x) (R89 code 0). -/
def gelu (flush : Bool) : Num → Nat × Ev
  | .nan => (nanCode fp24, Ev.none)
  | .inf false => rne24 flush (.inf false)
  | .inf true => rne24 flush (.fin true 0 1)
  | .huge s => rne24 flush (if s then .fin true 0 1 else .huge false)
  | .fin s n d =>
    if n = 0 then rne24 flush (.fin s 0 1)
    else if ltFrac n d 1 (2 ^ 18) then
      let e := halfEncl s n d 398 400
      finish24 flush s (roundMag fp24 e.1.1 e.1.2)
    else if ltFrac n d 29 2 then
      finish24 flush s (decideAt (fun p => let e := phiEncl s n d p; (mulFrac (n, d) e.1, mulFrac (n, d) e.2)) precsPhi)
    else if s then (signBit fp24 true, Ev.none)
    else rne24 flush (.fin s n d)

/-- SiLU, x / (1 + e^-x) (R89 code 1). -/
def silu (flush : Bool) : Num → Nat × Ev
  | .nan => (nanCode fp24, Ev.none)
  | .inf false => rne24 flush (.inf false)
  | .inf true => rne24 flush (.fin true 0 1)
  | .huge s => rne24 flush (if s then .fin true 0 1 else .huge false)
  | .fin s n d =>
    if n = 0 then rne24 flush (.fin s 0 1)
    else if ltFrac n d 1 (2 ^ 18) then
      let e := halfEncl s n d 249 251
      finish24 flush s (roundMag fp24 e.1.1 e.1.2)
    else if ltFrac n d 110 1 then
      finish24 flush s (decideAt (fun p => let e := sigmoidEncl s n d p; (mulFrac (n, d) e.1, mulFrac (n, d) e.2)) precs)
    else if s then (signBit fp24 true, Ev.none)
    else rne24 flush (.fin s n d)

/-- Sigmoid (R89 code 2). -/
def sigmoid (flush : Bool) : Num → Nat × Ev
  | .nan => (nanCode fp24, Ev.none)
  | .inf s => rne24 flush (if s then .fin false 0 1 else .fin false 1 1)
  | .huge s => rne24 flush (if s then .fin false 0 1 else .fin false 1 1)
  | .fin s n d =>
    if n = 0 then rne24 flush (.fin false 1 2)
    else if ltFrac n d 110 1 then finish24 flush false (decideAt (sigmoidEncl s n d) precs)
    else if s then (0, Ev.none)
    else rne24 flush (.fin false 1 1)

/-- tanh (R89 code 3). -/
def tanh24 (flush : Bool) : Num → Nat × Ev
  | .nan => (nanCode fp24, Ev.none)
  | .inf s => rne24 flush (.fin s 1 1)
  | .huge s => rne24 flush (.fin s 1 1)
  | .fin s n d =>
    if ltFrac n d 1 (2 ^ 10) then rne24 flush (.fin s n d)
    else if ltFrac n d 32 1 then finish24 flush s (decideAt (tanhEncl n d) precs)
    else rne24 flush (.fin s 1 1)

/-- e^x (R89 code 4). -/
def exp24 (flush : Bool) : Num → Nat × Ev
  | .nan => (nanCode fp24, Ev.none)
  | .inf s => rne24 flush (if s then .fin false 0 1 else .inf false)
  | .huge s => rne24 flush (if s then .fin false 0 1 else .huge false)
  | .fin s n d =>
    if n = 0 then rne24 flush (.fin false 1 1)
    else if ltFrac n d 110 1 then finish24 flush false (decideAt (expEncl s n d) precs)
    else if s then (0, Ev.none)
    else rne24 flush (.huge false)

/-- The activation functions of R89 by code; codes 5 to 15 are reserved. -/
def activation (fn : Nat) (flush : Bool) (x : Num) : Nat × Ev :=
  match fn with
  | 0 => gelu flush x
  | 1 => silu flush x
  | 2 => sigmoid flush x
  | 3 => tanh24 flush x
  | _ => exp24 flush x

/-- Natural logarithm of a positive fraction: |ln| enclosed, with its sign (negative below 1). -/
def lnEncl (n d p : Nat) : Bool × (Nat × Nat) × (Nat × Nat) :=
  let k := floorLog2 n d
  let m := if 0 ≤ k then (n, d * 2 ^ k.toNat) else (n * 2 ^ (-k).toNat, d)
  let lm := 2 * atanhFix (m.1 - m.2) (m.1 + m.2) p
  let t : Int := k * (ln2Fix p : Int) + (lm : Int)
  let a := t.natAbs
  let err := 2 ^ 24
  (decide (n < d), ((a - err, 2 ^ p), (a + err, 2 ^ p)))

/-- Natural logarithm (R149 code 0x0d). -/
def ln24 (flush : Bool) (x : Num) : Nat × Ev :=
  match x with
  | .nan => (nanCode fp24, Ev.none)
  | .inf s => if s then (nanCode fp24, Ev.none) else rne24 flush (.inf false)
  | .huge s => if s then (nanCode fp24, Ev.none) else rne24 flush (.huge false)
  | .fin s n d =>
    if n = 0 then rne24 flush (.huge true)
    else if s then (nanCode fp24, Ev.none)
    else if n = d then rne24 flush (.fin false 0 1)
    else finish24 flush (decide (n < d)) (decideAt (fun p => (lnEncl n d p).2) precs)

/-- A value that rounds as √(n/d) does: exact when it is a fraction of the grid, else between two neighbours of a grid far
finer than any midpoint of FP24. -/
def sqrtNum (n d : Nat) : Num :=
  if n = 0 then .fin false 0 1
  else
    let s := 64 + n.log2 + d.log2
    let y := n * 2 ^ (2 * s) / d
    let r := Nat.sqrt y
    if r * r * d = n * 2 ^ (2 * s) then .fin false r (2 ^ s) else .fin false (2 * r + 1) (2 ^ (s + 1))

/-- √x (R149 code 0x0b): √(−0) is −0, below zero NaN. -/
def sqrt24 (flush : Bool) : Num → Nat × Ev
  | .nan => (nanCode fp24, Ev.none)
  | .inf s => if s then (nanCode fp24, Ev.none) else rne24 flush (.inf false)
  | .huge s => if s then (nanCode fp24, Ev.none) else rne24 flush (.huge false)
  | .fin s n d =>
    if n = 0 then rne24 flush (.fin s 0 1)
    else if s then (nanCode fp24, Ev.none)
    else rne24 flush (sqrtNum n d)

/-- 1/√x (R149 code 0x0c). -/
def rsqrt24 (flush : Bool) : Num → Nat × Ev
  | .nan => (nanCode fp24, Ev.none)
  | .inf s => if s then (nanCode fp24, Ev.none) else rne24 flush (.fin false 0 1)
  | .huge s => if s then (nanCode fp24, Ev.none) else rne24 flush (.fin false 0 1)
  | .fin s n d =>
    if n = 0 then rne24 flush (.huge s)
    else if s then (nanCode fp24, Ev.none)
    else rne24 flush (sqrtNum d n)

end Sys2Proof.Machine
end

