-- ==== Sys2Proof/Machine/Drain.lean ====
section
/-! DEFINITION. The drain chain (R82 to R107): stages, rotation, quantising out and the scale-history slots. -/

namespace Sys2Proof.Machine

/-! ## Stages (R86 to R91) -/

/-- The number of values in a rotate group (R91). -/
def groupSize (code : Nat) : Nat := 32 * 2 ^ code

/-- The constant c[n] of R91. -/
def rotConst (code : Nat) : Nat :=
  match code with
  | 0 => 0x3e3505
  | 1 => 0x3e0000
  | 2 => 0x3db505
  | _ => 0x3d8000

/-- An FP24 operand in the suite's subnormal mode, without its count (R86). -/
def in24 (flush : Bool) (c : Nat) : Num := (decodeIn fp24 flush c).1

/-- Subnormal FP24 values among codes, which flush mode counts once each (R86). -/
def subs24 (flush : Bool) (l : List Nat) : Nat := if flush then (l.filter (isSub fp24)).length else 0

/-- One butterfly over pairs at distance h in a block of 2h values (R91). -/
def butterfly (flush : Bool) (h : Nat) (v : List (Nat × Ev)) : List (Nat × Ev) :=
  let a := v.take h
  let b := v.drop h
  (a.zip b).map (fun p => addCounted flush p.1 p.2) ++
    (a.zip b).map (fun p =>
      let r := rne24 flush ((v24 p.1.1).sub (v24 p.2.1))
      (r.1, r.2))

/-- log2(n) levels in Sylvester order. -/
def hadamard (flush : Bool) : Nat → Nat → List (Nat × Ev) → List (Nat × Ev)
  | 0, _, v => v
  | levels + 1, h, v => hadamard flush levels (2 * h) ((chunks (2 * h) v).flatMap (butterfly flush h))

/-- One group of one row (R91). Each intermediate's events ride on one of its sums, so that each counts once. -/
def rotateGroup (flush : Bool) (code : Nat) (x d : List Nat) : List (Nat × Ev) :=
  let v := (x.zip d).map (fun p => rne24 flush ((v24 p.1).div (in24 flush p.2)))
  (hadamard flush (5 + code) 1 v).map (fun p =>
    let r := rne24 flush ((v24 p.1).mul (v24 (rotConst code)))
    (r.1, p.2.add r.2))

/-- The clamp of R90: no rounding; a zero keeps its sign and NaN passes. -/
def clamp24 (flush : Bool) (lo hi x : Nat) : Nat :=
  let v := v24 x
  if v.lt (in24 flush lo) then (encode fp24 flush (in24 flush lo)).1
  else if (in24 flush hi).lt v then (encode fp24 flush (in24 flush hi)).1
  else if v.isNan then nanCode fp24
  else x

/-- A stage pops an operand entry (R86). -/
def stageNeeds : Stage → Bool
  | .channel => true
  | .row => true
  | .bias => true
  | .residual => true
  | .rotate _ => true
  | _ => false

/-- A vector operand: an FP24 entry of one row of k values (R88). -/
def Entry.isVector (e : Entry) (k : Nat) : Bool := e.kind = .tensor && e.fmt = 0xa && e.rows = 1 && e.cols = k

/-- The operand entry has the extent that its stage needs (R88). -/
def stageFits (st : Stage) (m n : Nat) (e : Entry) : Bool :=
  match st with
  | .row => e.isVector m
  | .residual => e.kind = .tensor && (fmtOf e.fmt).isSome && e.rows = m && e.cols = n
  | _ => e.isVector n

/-- Flushes that an operand entry's pop counts (R86). -/
def popFlushes (flush : Bool) (e : Entry) : Nat :=
  match fmtOf e.fmt with
  | some f => if flush && !isMx e.fmt then (e.data.filter (isSub f)).length else 0
  | none => 0

/-- One stage over the M × N lanes, row by row; `e` is its operand. Its own parameters count in the second part. -/
def runStage (flush : Bool) (m n : Nat) (st : Stage) (e : Entry) (x : List Nat) : List Nat × Ev :=
  let each := fun (f : Nat → Nat → Nat → Nat × Ev) =>
    let l := ((places m n).zip x).map (fun p => f p.1.1 p.1.2 p.2)
    (l.map Prod.fst, Ev.total (l.map Prod.snd))
  let pops : Ev := { sat := 0, flush := popFlushes flush e }
  let vec := fun i => in24 flush (e.data.getD i 0)
  let with_ := fun (r : List Nat × Ev) => (r.1, pops.add r.2)
  match st with
  | .channel => with_ (each (fun _ j c => rne24 flush ((v24 c).mul (vec j))))
  | .row => with_ (each (fun i _ c => rne24 flush ((v24 c).mul (vec i))))
  | .bias => with_ (each (fun _ j c => rne24 flush ((v24 c).add (vec j))))
  | .residual => with_ (each (fun i j c => rne24 flush ((v24 c).add (e.operand flush i j).1)))
  | .act fn => each (fun _ _ c => activation fn flush (v24 c))
  | .clamp lo hi =>
    (x.map (clamp24 flush lo hi), { sat := 0, flush := subs24 flush [lo, hi] })
  | .rotate g =>
    let rows := (List.range m).map (fun i => (x.drop (i * n)).take n)
    let l := rows.flatMap (fun r =>
      ((chunks (groupSize g) r).zip (chunks (groupSize g) e.data)).flatMap (fun p => rotateGroup flush g p.1 p.2))
    with_ (l.map Prod.fst, Ev.total (l.map Prod.snd))
  | .quant _ => (x, Ev.none)

/-- Every stage before the quantise stage, with the operands in stage order. -/
def runStages (flush : Bool) (m n : Nat) : List Stage → List Entry → List Nat → Ev → List Nat × Ev
  | [], _, x, ev => (x, ev)
  | st :: t, ops, x, ev =>
    let e := if stageNeeds st then ops.headD (emptyEntry .tensor 0xa) else emptyEntry .tensor 0xa
    let r := runStage flush m n st e x
    runStages flush m n t (if stageNeeds st then ops.drop 1 else ops) r.1 (ev.add r.2)

/-- The operand entries fit their stages. -/
def opsFit (m n : Nat) : List Stage → List Entry → Bool
  | [], _ => true
  | st :: t, ops => if stageNeeds st then (ops.take 1).all (stageFits st m n) && opsFit m n t (ops.drop 1) else opsFit m n t ops

/-- N is a multiple of the rotate group (R92). -/
def rotateFits (n : Nat) (l : List Stage) : Bool :=
  l.all (fun st => match st with
    | .rotate g => n % groupSize g = 0
    | _ => true)

/-! ## Row scales (R94) -/

/-- The largest finite value of a row-scaled output format. -/
def fmaxOf (fmt : Nat) : Num :=
  match fmtOf fmt with
  | some f => decode f f.max
  | none => .fin false 1 1

/-- The largest magnitude among the finite elements, as an FP24 code (R94 mode 2, R102). -/
def trueMax (row : List Nat) : Nat :=
  row.foldl (fun a c => if (v24 c).isFin && a < c % 0x800000 then c % 0x800000 else a) 0

/-- s[m] from Q, steps 1 to 5 of R94. A zero of either sign is 0, and a quotient below 2^−126 becomes 2^−126, a negative one too.
Where Q is NaN no rule gives the scale: a free positive normal value (log entry 137). -/
def rowScale (fmt q : Nat) : Nat :=
  if (v24 q).isNan then 0x8000 + Config.nanScale q % 0x7f0000
  else if (v24 q).isZero then 0x3f8000
  else
    let s0 := round24 ((v24 q).div (fmaxOf fmt))
    let s := if (v24 s0).lt (v24 0x8000) then 0x8000 else s0
    if (fmaxOf fmt).lt (v24 (round24 ((v24 q).div (v24 s)))) then s + 1 else s

/-- Q of mode 1: the product of the prediction and the headroom; above 0x7f_7fff it becomes 0x7f_7fff (R94). -/
def predictedQ (p h : Nat) : Nat :=
  let c := round24 ((v24 p).mul (v24 h))
  if (v24 0x7f7fff).lt (v24 c) then 0x7f7fff else c

/-- Row m overruns (R97). -/
def overruns (fmt t s : Nat) : Bool := (fmaxOf fmt).lt (v24 (round24 ((v24 t).div (v24 s))))

/-! ## Slots (R99, R100) -/

/-- The larger of two maxima; a NaN among them stays. DESIGN CHOICE (log entry 137): no rule says what the largest of maxima is when
a merged one is NaN. -/
def maxCode (a b : Nat) : Nat := if (v24 a).lt (v24 b) || (v24 b).isNan then b else a

/-- The prediction of a row (R99). -/
def predict (p : SlotParam) (r : SlotRow) : Nat :=
  match r.recs with
  | [] => p.p0
  | a :: t => (t.take (p.k - 1)).foldl maxCode a

/-- A slot row's state; a row that nothing has recorded is empty. -/
def slotRow (l : AMap SlotRow) (m : Nat) : SlotRow := (aGet l m).getD { recs := [], pending := 0 }

/-- R100 step 1: the reset mask clears counts and pending maxima. -/
def resetRows (l : AMap SlotRow) (mask : Entry) : AMap SlotRow :=
  l.filter (fun e => !bit (mask.data.getD (e.1 / 8) 0) (e.1 % 8))

/-- R100 steps 4 and 5 for one row. -/
def mergeRow (advance t merged : Nat) (r : SlotRow) : SlotRow :=
  let q : SlotRow := { r with pending := maxCode r.pending t }
  match advance with
  | 0 => q
  | 1 => { recs := (q.pending :: q.recs).take 8, pending := 0 }
  | _ => { recs := (merged :: q.recs).take 8, pending := 0 }

/-! ## The quantise stage (R93 to R98) -/

/-- One row encoded under a row scale: elements x / s and their events (R95, R96). -/
def dividedRow (flush : Bool) (s : Nat) (row : List Nat) : List Nat × Ev :=
  let l := row.map (fun x => rne24 flush ((v24 x).div (v24 s)))
  (l.map Prod.fst, Ev.total (l.map Prod.snd))

/-- A block's encoding: chosen scale, capped at 0x7f in mode 1 (R95, R96). -/
def quantBlock (code : Nat) (f : Fmt) (capped : Bool) (l : List Num) : MxOut :=
  let c := chooseScale code f l
  mxSupplied code f (if capped then min c 0x7f else c) l

/-- One row of a quantised result. -/
structure QRow where
  s      : Nat
  t      : Nat
  u      : List Nat
  ev     : Ev
  capped : Bool
  over_  : Bool
  redone : Bool
  deriving DecidableEq, Repr, Inhabited

/-- Row m under modes 1 and 2, with its prediction's Q in mode 1 (R94 to R97). -/
def quantRow (flush : Bool) (q : QuantRec) (pred : Nat) (row : List Nat) : QRow :=
  let t := trueMax row
  if q.mode = 1 then
    let s := rowScale q.fmt pred
    let o := overruns q.fmt t s
    if o && q.reemit then
      let s2 := rowScale q.fmt t
      let d := dividedRow flush s2 row
      { s := s2, t := t, u := d.1, ev := d.2, capped := false, over_ := true, redone := true }
    else
      let d := dividedRow flush s row
      { s := s, t := t, u := d.1, ev := d.2, capped := true, over_ := o, redone := false }
  else
    let s := rowScale q.fmt t
    let d := dividedRow flush s row
    { s := s, t := t, u := d.1, ev := d.2, capped := false, over_ := false, redone := false }

/-- What a drain operation makes. -/
structure Drained where
  result : Entry
  scales : List Nat
  maxima : List Nat
  counts : Counts
  over_  : Nat
  redone : Nat
  slot   : AMap SlotRow
  deriving DecidableEq, Repr, Inhabited

/-- The rows that leave the last stage, written in their format (R98). -/
def writeRows (flush : Bool) (fmt m n : Nat) (rs : List QRow) : OutT :=
  let vs := rs.flatMap (fun r => r.u.map v24)
  match fmtOf fmt with
  | none => { entry := emptyEntry .tensor fmt, ev := Ev.none, nans := 0 }
  | some f =>
    if isMx fmt then exitBlocks fmt m n vs (fun i _ l => quantBlock fmt f (match rs[i]? with | some r => r.capped | none => false) l)
    else exitWide flush fmt f m n vs

/-- The quantise stage over M × N lanes: `slot` and `p` in mode 1, `merged` with advance source 2. -/
def quantise (flush : Bool) (q : QuantRec) (m n : Nat) (x : List Nat) (ev : Ev) (slot : AMap SlotRow) (p : SlotParam)
    (mask : Option Entry) (merged : Option Entry) : Drained :=
  let rows := (List.range m).map (fun i => (x.drop (i * n)).take n)
  if q.mode = 0 then
    let o := exitTensor flush q.fmt m n (x.map v24) none
    { result := o.entry, scales := [], maxima := rows.map trueMax,
      counts := { ev := ev.add o.ev, nans := o.nans, elements := m * n }, over_ := 0, redone := 0, slot := slot }
  else
    let sl := match mask with
      | some e => if q.mode = 1 then resetRows slot e else slot
      | none => slot
    let preds := (List.range m).map (fun i => predictedQ (predict p (slotRow sl i)) p.h)
    let rs := (rows.zip preds).map (fun r => quantRow flush q r.2 r.1)
    let o := writeRows flush q.fmt m n rs
    let sl2 := if q.mode = 1 then
        (rs.mapIdx (fun i r => (i, r))).foldl (fun a e =>
          aSet a e.1 (mergeRow q.advance e.2.t (match merged with | some g => g.data.getD e.1 0 | none => 0) (slotRow a e.1))) sl
      else sl
    { result := o.entry, scales := rs.map QRow.s, maxima := rs.map QRow.t,
      counts := { ev := (ev.add (Ev.total (rs.map QRow.ev))).add o.ev, nans := o.nans, elements := m * n },
      over_ := (rs.filter QRow.over_).length, redone := (rs.filter QRow.redone).length, slot := sl2 }

/-! ## Descriptors (R84, R93) -/

def stageOk : Stage → Bool
  | .act fn => fn ≤ 4
  | .clamp lo hi => lo < 0x1000000 && hi < 0x1000000 && (v24 lo).isFin && (v24 hi).isFin && (v24 lo).le (v24 hi)
  | .rotate g => g ≤ 3
  | .quant q =>
    q.mode ≤ 2 && (fmtOf q.fmt).isSome && (q.mode = 0 || isMx q.fmt || q.fmt = 9) && (q.mode = 1 || !q.reemit) && q.slot ≤ 7 &&
      q.advance ≤ 2
  | _ => true

/-- The quantise stage of a chain. -/
def quantOf (l : List Stage) : Option QuantRec :=
  match l.getLast? with
  | some (.quant q) => some q
  | _ => none

def isQuant : Stage → Bool
  | .quant _ => true
  | _ => false

def isRotate : Stage → Bool
  | .rotate _ => true
  | _ => false

/-- A descriptor of R84. -/
def chainOk (l : List Stage) : Bool :=
  1 ≤ l.length && l.length ≤ 8 && l.all stageOk && (quantOf l).isSome && (l.filter isQuant).length = 1 &&
    (l.filter isRotate).length ≤ 1

/-- Queue ends that a `dr.chain` pops, in operand order (R83). -/
def drPops (o : DrChainOp) : List QName := o.ops ++ o.reset.toList ++ o.merged.toList

/-- The operands of a `dr.chain` suit its chain (R83, R84, R93). One that names a maxima-in queue end with an advance source other
than 2, or a row-scale out in mode 0, does not. DESIGN CHOICE (log entry 135): R83 gives both a place only in the other case. -/
def drSuits (o : DrChainOp) (l : List Stage) : Bool :=
  match quantOf l with
  | some q =>
    chainOk l && o.ops.length = (l.filter stageNeeds).length && o.ops.eraseDups.length = o.ops.length &&
      o.scales.isSome == (q.mode != 0) && o.merged.isSome == (q.advance = 2)
  | none => false

end Sys2Proof.Machine
end

