-- ==== Sys2Proof/Machine/Vector.lean ====
section
/-! DEFINITION. The vector instructions `vx.map`, `vx.reduce` and `vx.sort` (R148 to R151). -/

namespace Sys2Proof.Machine

/-- What an operation makes of its popped entries: its output entries in operand order and its record's counts. -/
structure Made where
  outs   : List Entry
  counts : Counts
  deriving DecidableEq, Repr, Inhabited

/-- An output tensor as the result of an operation that counted `ev` before its exit. -/
def madeOf (o : OutT) (ev : Ev) (elements : Nat) : Made :=
  { outs := [o.entry], counts := { ev := ev.add o.ev, nans := o.nans, elements := elements } }

/-- A tensor entry of a given extent in any of the eight formats (R142). -/
def Entry.isTensor (e : Entry) (rows cols : Nat) : Bool :=
  e.kind = .tensor && (fmtOf e.fmt).isSome && e.rows = rows && e.cols = cols

/-- A supplied-scale entry for an M × N output (R148). -/
def Entry.isScales (e : Entry) (m n : Nat) : Bool := e.kind = .scale && e.rows = m && e.cols = blocksOf n

/-- An empty instruction's result: each popped entry must be empty (R143). -/
def emptyMade (outs : List Entry) (l : List Entry) : Option Made :=
  if l.all Entry.isEmpty then some { outs := outs, counts := Counts.zero } else none

/-! ## `vx.map` (R149) -/

/-- Operands that an operation takes; 0 for a reserved code. -/
def mapArity (code : Nat) : Nat :=
  match code with
  | 0x00 => 1
  | 0x01 => 2
  | 0x02 => 2
  | 0x03 => 2
  | 0x04 => 2
  | 0x05 => 3
  | 0x06 => 2
  | 0x07 => 2
  | _ => if code ≤ 0x12 then 1 else 0

/-- One element-wise operation on FP24 lanes, rounded once. -/
def mapLane (flush : Bool) (code : Nat) (a b c : Num) : Nat × Ev :=
  match code with
  | 0x01 => rne24 flush (a.add b)
  | 0x02 => rne24 flush (a.sub b)
  | 0x03 => rne24 flush (a.mul b)
  | 0x04 => rne24 flush (a.div b)
  | 0x05 => rne24 flush ((a.mul b).add c)
  | 0x06 => rne24 flush (a.maxOp b)
  | 0x07 => rne24 flush (a.minOp b)
  | 0x08 => rne24 flush a.abs
  | 0x09 => rne24 flush a.neg
  | 0x0a => rne24 flush ((Num.fin false 1 1).div a)
  | 0x0b => sqrt24 flush a
  | 0x0c => rsqrt24 flush a
  | 0x0d => ln24 flush a
  | 0x0e => exp24 flush a
  | 0x0f => gelu flush a
  | 0x10 => silu flush a
  | 0x11 => sigmoid flush a
  | 0x12 => tanh24 flush a
  | _ => rne24 flush a

/-- The queue end of an operand. -/
def vQueue : VOperand → Option QName
  | .full q => some q
  | .row q => some q
  | .col q => some q
  | .imm _ => none

/-- An operand's lanes and how a place selects one: its entry is `e`. Each popped element enters once. -/
def vLanes (flush : Bool) (o : VOperand) (e : Entry) : (Nat → Nat → Nat) × Ev :=
  match o with
  | .full _ => let l := e.lanes flush; (fun m j => l.1.getD (m * e.cols + j) 0, l.2)
  | .row _ => let l := e.lanes flush; (fun _ j => l.1.getD j 0, l.2)
  | .col _ => let l := e.lanes flush; (fun m _ => l.1.getD m 0, l.2)
  | .imm c => let d := decodeIn fp24 flush c; (fun _ _ => (encode fp24 flush d.1).1, { sat := 0, flush := d.2 })

/-- The operand's entry has its extent (R149). -/
def vFits (o : VOperand) (m n : Nat) (e : Entry) : Bool :=
  match o with
  | .full _ => e.isTensor m n
  | .row _ => e.isTensor 1 n
  | .col _ => e.isTensor 1 m
  | .imm _ => true

/-- The operands present, in order. -/
def mapOperands (o : VxMapOp) : List VOperand := [.full o.a] ++ o.b.toList ++ o.c.toList

/-- Give each operand its popped entry. -/
def assignEntries : List VOperand → List Entry → List (VOperand × Entry)
  | [], _ => []
  | o :: t, es =>
    match vQueue o with
    | some _ => (o, es.headD (emptyEntry .tensor 0)) :: assignEntries t (es.drop 1)
    | none => (o, emptyEntry .tensor 0) :: assignEntries t es

/-- `vx.map` over M × N; the last popped entry is the scale entry when one is named. -/
def mapCalc (flush : Bool) (o : VxMapOp) (m n : Nat) (es : List Entry) : Option Made :=
  let ops := assignEntries (mapOperands o) es
  let sc := o.scales.map (fun _ => es.getLastD (emptyEntry .scale 0))
  if m = 0 || n = 0 then emptyMade [emptyEntry .tensor o.fmt] es
  else if !(ops.all (fun p => vFits p.1 m n p.2)) || !(sc.all (fun e => e.isScales m n)) then none
  else if o.code = 0 then
    let v := (es.headD (emptyEntry .tensor 0)).values flush
    some (madeOf (exitTensor flush o.fmt m n v.1 sc) v.2 (m * n))
  else
    let l := ops.map (fun p => vLanes flush p.1 p.2)
    let at_ := fun i => (l.getD i (fun _ _ => 0, Ev.none)).1
    let rs := (places m n).map (fun p =>
      mapLane flush o.code (v24 (at_ 0 p.1 p.2)) (v24 (at_ 1 p.1 p.2)) (v24 (at_ 2 p.1 p.2)))
    let ev := (Ev.total (l.map Prod.snd)).add (Ev.total (rs.map Prod.snd))
    some (madeOf (exitTensor flush o.fmt m n (rs.map (fun r => v24 r.1)) sc) ev (m * n))

/-- An output format is defined, and a scale queue end stands only beside an MX output (R148). -/
def outFmtOk (fmt : Nat) (scales : Option QName) : Bool := (fmtOf fmt).isSome && (isMx fmt || scales.isNone)

/-- M and N each at most 65,536 and at most 16,777,216 elements (R149, R150). -/
def matrixLimit (m n : Nat) : Bool := m ≤ 65536 && n ≤ 65536 && m * n ≤ 16777216

/-- Parameters of `vx.map` that are defined (R149). -/
def mapOk (o : VxMapOp) : Bool :=
  mapArity o.code = (mapOperands o).length && (o.b.isSome || o.c.isNone) && outFmtOk o.fmt o.scales &&
    (mapOperands o).all (fun v => match v with | .imm c => c < 0x1000000 | _ => true)

/-! ## `vx.reduce` (R150) -/

/-- One level of a pairwise tree with its events. -/
def pairUpCounted (flush : Bool) : List (Nat × Ev) → List (Nat × Ev)
  | a :: b :: t => addCounted flush a b :: pairUpCounted flush t
  | l => l

/-- A chunk of 256 lanes, padded with +0, in a tree of eight levels. -/
def chunkTree (flush : Bool) (l : List Nat) : Nat × Ev :=
  let l := (l ++ List.replicate (256 - l.length) 0).map (fun c => (c, Ev.none))
  let two := fun (x : List (Nat × Ev)) => pairUpCounted flush (pairUpCounted flush x)
  (two (two (two (two l)))).headD (0, Ev.none)

/-- A reduced sequence's sum in chunks (R150). -/
def chunkedSum (flush : Bool) (l : List Nat) : Nat × Ev := accumulate flush ((chunks 256 l).map (chunkTree flush))

/-- The sum of entries in producer order, one rounding an addition. -/
def plainSum (flush : Bool) (l : List Nat) : Nat × Ev := accumulate flush (l.map (fun c => (c, Ev.none)))

/-- Each element squared and rounded. -/
def squares (flush : Bool) (l : List Nat) : List Nat × Ev :=
  let r := l.map (fun c => rne24 flush ((v24 c).mul (v24 c)))
  (r.map Prod.fst, Ev.total (r.map Prod.snd))

/-- A maximum or minimum; one element stands as it is. -/
def pick (f : Num → Num → Num) (l : List Nat) : Nat :=
  match l with
  | [] => 0
  | a :: t => t.foldl (fun x c => round24 (f (v24 x) (v24 c))) (round24 (v24 a))

/-- Reduce one sequence of lanes with an operation; `sum` is the order of its additions. -/
def reduceSeq (flush : Bool) (code : Nat) (sum : List Nat → Nat × Ev) (l : List Nat) : Nat × Ev :=
  match code with
  | 0 => sum l
  | 1 =>
    let q := squares flush l
    let r := sum q.1
    (r.1, q.2.add r.2)
  | 2 => (pick Num.maxOp l, Ev.none)
  | 3 => (pick Num.minOp l, Ev.none)
  | _ => (trueMax l, Ev.none)

/-- Insert before the first element that must not come earlier. -/
def insertBy (before : α → α → Bool) (x : α) : List α → List α
  | [] => [x]
  | a :: t => if before a x then a :: insertBy before x t else x :: a :: t

/-- A stable sort: `before a b` says that a must stand before b. -/
def sortBy (before : α → α → Bool) (l : List α) : List α := l.foldr (insertBy before) []

/-- Producer order of axis 2: ascending chip, then ascending core; `own` is this chip's number. -/
def producerBefore (own : Nat) (a b : Entry) : Bool :=
  let ca := a.chip.getD own
  let cb := b.chip.getD own
  ca < cb || (ca = cb && a.core < b.core)

/-- Extent of the result (R150). -/
def reduceShape (axis m n : Nat) : Nat × Nat :=
  match axis with
  | 0 => (1, m)
  | 1 => (1, n)
  | _ => (m, n)

/-- The reduced sequences, in the order of the result's elements. -/
def reduceSeqs (axis m n : Nat) (ls : List (List Nat)) : List (List Nat) :=
  let l := ls.headD []
  match axis with
  | 0 => (List.range m).map (fun i => (l.drop (i * n)).take n)
  | 1 => (List.range n).map (fun j => (List.range m).map (fun i => l.getD (i * n + j) 0))
  | _ => (List.range (m * n)).map (fun i => ls.map (fun x => x.getD i 0))

/-- `vx.reduce`; with a scale queue end the last popped entry is the scale entry. -/
def reduceCalc (flush : Bool) (own : Nat) (o : VxReduceOp) (m n : Nat) (es : List Entry) : Option Made :=
  let k := if o.axis = 2 then o.e else 1
  let ops := es.take k
  let sc := o.scales.map (fun _ => es.getLastD (emptyEntry .scale 0))
  let sh := reduceShape o.axis m n
  if m = 0 || n = 0 then emptyMade [emptyEntry .tensor o.fmt] es
  else if !(ops.all (fun e => e.isTensor m n)) || !(sc.all (fun e => e.isScales sh.1 sh.2)) then none
  else
    let ls := (sortBy (producerBefore own) ops).map (fun e => e.lanes flush)
    let sum := if o.axis = 2 then plainSum flush else chunkedSum flush
    let rs := (reduceSeqs o.axis m n (ls.map Prod.fst)).map (reduceSeq flush o.code sum)
    let ev := (Ev.total (ls.map Prod.snd)).add (Ev.total (rs.map Prod.snd))
    some (madeOf (exitTensor flush o.fmt sh.1 sh.2 (rs.map (fun r => v24 r.1)) sc) ev (sh.1 * sh.2))

def reduceOk (o : VxReduceOp) : Bool :=
  o.code ≤ 4 && o.axis ≤ 2 && (o.axis != 2 || (2 ≤ o.e && o.e ≤ 32)) && outFmtOk o.fmt o.scales

/-! ## `vx.sort` (R151) -/

/-- An element of a row: column, value that is compared, code that is written. -/
structure SortItem where
  col  : Nat
  val  : Num
  code : Nat
  deriving DecidableEq, Repr, Inhabited

/-- a stands before b, ties aside: NaN is last in both orders. -/
def sortBefore (asc : Bool) (a b : SortItem) : Bool :=
  if a.val.isNan then false
  else if b.val.isNan then true
  else if asc then a.val.lt b.val else b.val.lt a.val

/-- An element of the input as it is compared and written, with its events. -/
def sortItem (flush : Bool) (e : Entry) (m j : Nat) : SortItem × Ev :=
  if isMx e.fmt then
    let c := e.lane flush m j
    ({ col := j, val := v24 c.1, code := c.1 }, c.2)
  else
    let v := e.operand flush m j
    let code := if v.2 = 0 then e.elem m j else match fmtOf e.fmt with
      | some f => signBit f v.1.isNeg
      | none => 0
    ({ col := j, val := v.1, code := code }, { sat := 0, flush := v.2 })

/-- `vx.sort`. -/
def sortCalc (flush : Bool) (o : VxSortOp) (m n k : Nat) (es : List Entry) : Option Made :=
  let e := es.headD (emptyEntry .tensor 0)
  let fmt := if isMx e.fmt then 0xa else e.fmt
  if m = 0 || n = 0 then emptyMade [emptyEntry .tensor fmt, emptyEntry .index 0] es
  else if !e.isTensor m n || n < k || 1024 < k then none
  else
    let rows := (List.range m).map (fun i => (List.range n).map (sortItem flush e i))
    let ev := Ev.total (rows.flatMap (fun r => r.map Prod.snd))
    let best := rows.flatMap (fun r => (sortBy (sortBefore o.asc) (r.map Prod.fst)).take k)
    let nans := (best.filter (fun x => x.val.isNan)).length
    some { outs := [wideEntry fmt m k (best.map SortItem.code), indexEntry m k (best.map SortItem.col)],
           counts := { ev := ev, nans := nans, elements := m * k } }

end Sys2Proof.Machine
end

