-- ==== Sys2Proof/Machine/Vision.lean ====
section
/-! DEFINITION. The vision instructions (R199 to R213): `vx.dw`, `vx.pool`, `vx.boxdec` and `vx.nms`. -/

namespace Sys2Proof.Machine

/-! ## Depth-wise and grouped convolution (R199, R200) -/

/-- Height or width of the input tile of `vx.dw`. -/
def dwIn (o st k d : Nat) : Nat := (o - 1) * st + (k - 1) * d + 1

def dwOk (o : VxDwOp) : Bool :=
  1 ≤ o.kh && o.kh ≤ 11 && 1 ≤ o.kw && o.kw ≤ 11 && 1 ≤ o.sh && o.sh ≤ 4 && 1 ≤ o.sw && o.sw ≤ 4 && 1 ≤ o.dh && o.dh ≤ 64 &&
    1 ≤ o.dw && o.dw ≤ 64 && 1 ≤ o.g && o.g ≤ 32 && outFmtOk o.fmt o.scales

/-- Output tile limits of R152. -/
def tileLimit (oh ow c : Nat) : Bool := oh ≤ 256 && ow ≤ 1024 && c ≤ 4096

/-- One output element: the products of R200 in its loop order. -/
def dwElem (flush : Bool) (o : VxDwOp) (iw c : Nat) (x w : List Nat) (bias : Option (List Nat)) (oy ox ch : Nat) : Nat × Ev :=
  let g0 := ch / o.g * o.g
  let taps := (places o.kh o.kw).flatMap (fun t => (List.range o.g).map (fun ci =>
    let a := x.getD (((oy * o.sh + t.1 * o.dh) * iw + (ox * o.sw + t.2 * o.dw)) * c + (g0 + ci)) 0
    let b := w.getD (ch * (o.kh * o.kw * o.g) + (t.1 * o.kw + t.2) * o.g + ci) 0
    rne24 flush ((v24 a).mul (v24 b))))
  let acc := accumulate flush taps
  match bias with
  | some l => addCounted flush acc (l.getD ch 0, Ev.none)
  | none => acc

/-- `vx.dw`: input, weights, bias and scales in that order. -/
def dwCalc (flush : Bool) (o : VxDwOp) (oh ow c : Nat) (es : List Entry) : Option Made :=
  let none_ := emptyEntry .tensor 0
  let inp := es.headD none_
  let w := es.getD 1 none_
  let b := o.bias.map (fun _ => es.getD 2 none_)
  let sc := o.scales.map (fun _ => es.getLastD none_)
  if oh = 0 || ow = 0 || c = 0 then emptyMade [emptyEntry .tensor o.fmt] es
  else
    let ih := dwIn oh o.sh o.kh o.dh
    let iw := dwIn ow o.sw o.kw o.dw
    if !inp.isTensor (ih * iw) c || !w.isTensor c (o.kh * o.kw * o.g) || !(b.all (fun e => e.isTensor 1 c)) ||
        !(sc.all (fun e => e.isScales (oh * ow) c)) then none
    else
      let x := inp.lanes flush
      let y := w.lanes flush
      let z := b.map (fun e => e.lanes flush)
      let rs := (places oh ow).flatMap (fun p =>
        (List.range c).map (dwElem flush o iw c x.1 y.1 (z.map Prod.fst) p.1 p.2))
      let ev := ((x.2.add y.2).add ((z.map Prod.snd).getD Ev.none)).add (Ev.total (rs.map Prod.snd))
      some (madeOf (exitTensor flush o.fmt (oh * ow) c (rs.map (fun r => v24 r.1)) sc) ev (oh * ow * c))

/-! ## Pooling (R202) -/

def poolOk (o : VxPoolOp) : Bool :=
  1 ≤ o.ph && o.ph ≤ 16 && 1 ≤ o.pw && o.pw ≤ 16 && 1 ≤ o.sh && o.sh ≤ 16 && 1 ≤ o.sw && o.sw ≤ 16 && outFmtOk o.fmt o.scales

/-- One output element of a window's lanes. -/
def poolElem (flush avg : Bool) (l : List Nat) : Nat × Ev :=
  if avg then
    let s := plainSum flush l
    let r := rne24 flush ((v24 s.1).div (.fin false l.length 1))
    (r.1, s.2.add r.2)
  else (pick Num.maxOp l, Ev.none)

/-- `vx.pool`: input and scales. -/
def poolCalc (flush : Bool) (o : VxPoolOp) (oh ow c : Nat) (es : List Entry) : Option Made :=
  let none_ := emptyEntry .tensor 0
  let inp := es.headD none_
  let sc := o.scales.map (fun _ => es.getLastD none_)
  if oh = 0 || ow = 0 || c = 0 then emptyMade [emptyEntry .tensor o.fmt] es
  else
    let ih := (oh - 1) * o.sh + o.ph
    let iw := (ow - 1) * o.sw + o.pw
    if !inp.isTensor (ih * iw) c || !(sc.all (fun e => e.isScales (oh * ow) c)) then none
    else
      let x := inp.lanes flush
      let rs := (places oh ow).flatMap (fun p => (List.range c).map (fun ch =>
        poolElem flush o.avg ((places o.ph o.pw).map (fun t =>
          x.1.getD (((p.1 * o.sh + t.1) * iw + (p.2 * o.sw + t.2)) * c + ch) 0))))
      let ev := x.2.add (Ev.total (rs.map Prod.snd))
      some (madeOf (exitTensor flush o.fmt (oh * ow) c (rs.map (fun r => v24 r.1)) sc) ev (oh * ow * c))

/-! ## Box decoding (R204 to R209) -/

/-- The parameter entry's words (R204). -/
structure BoxParams where
  gw    : Nat
  gh    : Nat
  na    : Nat
  s     : Nat
  w     : Nat
  h     : Nat
  image : Nat
  frame : Nat
  lo    : Nat
  hi    : Nat
  pos   : Nat
  q     : List Nat
  mode  : Nat
  multi : Bool
  ws    : List (Nat × Nat)
  deriving DecidableEq, Repr, Inhabited

/-- An FP24 word: the container's bits [23:0] (R40). -/
def word24 (c : Nat) : Nat := c % 0x1000000

/-- The words of a parameter entry. -/
def boxParams (l : List Nat) : BoxParams :=
  let g := fun i => l.getD i 0
  { gw := g 0, gh := g 1, na := g 2, s := word24 (g 3), w := g 4, h := g 5, image := g 6, frame := g 7, lo := g 8, hi := g 9,
    pos := g 10, q := [word24 (g 11), word24 (g 12), word24 (g 13), word24 (g 14)], mode := g 15 % 4, multi := bit (g 15) 8,
    ws := (List.range (g 2)).map (fun a => (word24 (g (16 + 2 * a)), word24 (g (17 + 2 * a)))) }

def finite24 (c : Nat) : Bool := (v24 c).isFin

/-- Every word in range (R204); a score mode of 3 is not (R207). -/
def boxParamsOk (l : List Nat) (p : BoxParams) : Bool :=
  let in_ := fun (v lo hi : Nat) => decide (lo ≤ v) && decide (v ≤ hi)
  in_ p.gw 1 65535 && in_ p.gh 1 65535 && in_ p.na 1 16 && in_ p.s 0x8000 0x7f7fff && in_ p.w 1 8191 && in_ p.h 1 8191 &&
    decide (p.image ≤ 255) && decide (p.pos ≤ 262143) && p.q.all finite24 && decide (p.mode ≤ 2) &&
    decide (l.getD 15 0 - p.mode = if p.multi then 256 else 0) && p.ws.all (fun a => finite24 a.1 && finite24 a.2)

/-- A computation in FP24 that counts its replacements. -/
abbrev Val24 := Nat × Ev

/-- rne24 of a function of two lanes, with the events of both. -/
def lane2 (flush : Bool) (f : Num → Num → Num) (a b : Val24) : Val24 :=
  let r := rne24 flush (f (v24 a.1) (v24 b.1))
  (r.1, (a.2.add b.2).add r.2)

/-- rne24 of a function of a lane. -/
def lane1 (flush : Bool) (f : Num → Num) (a : Val24) : Val24 :=
  let r := rne24 flush (f (v24 a.1))
  (r.1, a.2.add r.2)

/-- A lane without events of its own, so that a value used twice counts once. -/
def quiet (c : Nat) : Val24 := (c, Ev.none)

/-- The four box values of a position in the order xmin, ymin, xmax, ymax, with every event (R206). `t` are t0 to t3. -/
def boxOf (flush : Bool) (formula : Nat) (p : BoxParams) (gx gy : Nat) (wa ha : Nat) (t : List Nat) : List Nat × Ev :=
  let mul := lane2 flush Num.mul
  let add := lane2 flush Num.add
  let sub := lane2 flush Num.sub
  let tv := fun i => quiet (t.getD i 0)
  let qv := fun i => quiet (p.q.getD i 0)
  let wl := quiet wa
  let hl := quiet ha
  let sl := quiet p.s
  let centre := fun (g : Nat) => rne24 flush ((Num.fin false (2 * g + 1) 2).mul (v24 p.s))
  let half := fun (x : Num) => x.scale2 (-1)
  let corners := fun (cx cy w h : Val24) =>
    let e := ((cx.2.add cy.2).add w.2).add h.2
    let lo := fun (c d : Val24) => rne24 flush ((v24 c.1).sub (half (v24 d.1)))
    let hi := fun (c d : Val24) => rne24 flush ((v24 c.1).add (half (v24 d.1)))
    let l := [lo cx w, lo cy h, hi cx w, hi cy h]
    (l.map Prod.fst, e.add (Ev.total (l.map Prod.snd)))
  match formula with
  | 0 =>
    let side := fun (c : Val24) (tq aq : Val24) (a : Val24) => add c (mul (mul tq aq) a)
    let size := fun (a tq aq : Val24) =>
      let m := mul tq aq
      let e := exp24 flush (v24 m.1)
      mul a (e.1, m.2.add e.2)
    corners (side (centre gx) (tv 0) (qv 0) wl) (side (centre gy) (tv 1) (qv 1) hl) (size wl (tv 2) (qv 2)) (size hl (tv 3) (qv 3))
  | 1 =>
    let sig := fun i => sigmoid flush (v24 (t.getD i 0))
    let off := fun (g i : Nat) =>
      let u := add (mul (qv 0) (sig i)) (qv 1)
      mul (lane1 flush (fun x => (Num.fin false g 1).add x) u) sl
    let size := fun (a : Val24) (i : Nat) =>
      let z := sig i
      let sq := rne24 flush ((v24 z.1).mul (v24 z.1))
      mul a (mul (qv 2) (sq.1, z.2.add sq.2))
    corners (off gx 0) (off gy 1) (size wl 2) (size hl 3)
  | _ =>
    let cx := centre gx
    let cy := centre gy
    let l := [sub (quiet cx.1) (mul (tv 0) sl), sub (quiet cy.1) (mul (tv 1) sl), add (quiet cx.1) (mul (tv 2) sl),
              add (quiet cy.1) (mul (tv 3) sl)]
    (l.map Prod.fst, (cx.2.add cy.2).add (Ev.total (l.map Prod.snd)))

/-- The scores of a position's classes, with their events (R207). -/
def scoresOf (flush : Bool) (mode o : Nat) (ks : List Nat) : List Nat × Ev :=
  let so := if mode = 0 then sigmoid flush (v24 o) else (0, Ev.none)
  let l := ks.map (fun k =>
    match mode with
    | 0 => lane2 flush Num.mul (quiet so.1) (sigmoid flush (v24 k))
    | 1 => sigmoid flush (v24 k)
    | _ => rne24 flush ((v24 o).mul (v24 k)))
  (l.map Prod.fst, so.2.add (Ev.total (l.map Prod.snd)))

/-- The class with the largest score; ties go to the lower class and NaN takes no part. -/
def bestClass (l : List Nat) : Option Nat :=
  let go := fun (b : Option (Nat × Nat)) (e : Nat × Nat) =>
    if (v24 e.2).isNan then b
    else match b with
      | some x => if (v24 x.2).lt (v24 e.2) then some e else b
      | none => some e
  ((l.mapIdx (fun i c => (i, c))).foldl go none).map Prod.fst

/-- A coordinate clipped to 0 to `top` pixels, in units of 1/8 pixel (R208). -/
def clipEighths (top : Nat) (c : Nat) : Nat :=
  match v24 c with
  | .fin false n d => if top * d ≤ n then 8 * top else rneDiv (8 * n) d
  | .inf false => 8 * top
  | _ => 0

/-- A candidate: score code, position, class and box in 1/8 pixel. -/
structure Cand where
  score : Nat
  pos   : Nat
  cls   : Nat
  box   : List Nat
  deriving DecidableEq, Repr, Inhabited

/-- The candidates of one position (R207). -/
def candsOf (p : BoxParams) (thr pos : Nat) (box scores : List Nat) : List Cand :=
  let clipped := [clipEighths p.w (box.getD 0 0), clipEighths p.h (box.getD 1 0), clipEighths p.w (box.getD 2 0),
                  clipEighths p.h (box.getD 3 0)]
  let offers := if p.multi then List.range scores.length else (bestClass scores).toList
  if box.any (isNanCode fp24) then []
  else offers.filterMap (fun c =>
    let sc := scores.getD c 0
    if (v24 thr).le (v24 sc) then some { score := sc, pos := pos, cls := c, box := clipped } else none)

/-- Candidates of higher score first, then lower position, then lower class (R209). -/
def candBefore (a b : Cand) : Bool :=
  (v24 b.score).lt (v24 a.score) ||
    (!(v24 a.score).lt (v24 b.score) && (a.pos < b.pos || (a.pos = b.pos && a.cls < b.cls)))

/-- The record of a candidate (R210). -/
def candRecord (p : BoxParams) (c : Cand) : List Byte :=
  c.box.flatMap (toLE 2) ++ toLE 4 c.score ++ toLE 2 c.cls ++ toLE 1 p.image ++ toLE 1 (if p.multi then 2 else 0) ++
    toLE 4 ((p.pos + c.pos) % 262144) ++ toLE 4 p.frame ++ toLE 4 p.lo ++ toLE 4 p.hi

/-- Subnormal parameter words that a formula reads, in flush mode: each counts one flush. -/
def paramFlushes (flush : Bool) (formula : Nat) (p : BoxParams) : Nat :=
  let ws := p.ws.flatMap (fun a => [a.1, a.2])
  subs24 flush (match formula with
    | 0 => p.q ++ ws
    | 1 => p.q.take 3 ++ ws
    | _ => [])

/-- Parameter words as lanes: in flush mode a subnormal is a zero of its sign. -/
def flushParams (flush : Bool) (p : BoxParams) : BoxParams :=
  let z := fun c => round24 (in24 flush c)
  { p with q := p.q.map z, ws := p.ws.map (fun a => (z a.1, z a.2)) }

/-- One position: its candidates and events. -/
def boxPosition (flush : Bool) (formula thr : Nat) (p : BoxParams) (x : List Nat) (cols pos : Nat) : List Cand × Ev :=
  let row := (x.drop (pos * cols)).take cols
  let a := p.ws.getD (pos % p.na) (0, 0)
  let cell := pos / p.na
  let b := boxOf flush formula p (cell % p.gw) (cell / p.gw) a.1 a.2 (row.take 4)
  let s := scoresOf flush p.mode (row.getD 4 0) (row.drop 5)
  (candsOf p thr pos b.1 s.1, b.2.add s.2)

/-- The 8,192 best candidates in ascending position and class, and the excess (R209). -/
def limitCands (l : List Cand) : List Cand × Nat :=
  if l.length ≤ 8192 then (l, 0)
  else
    let best := (sortBy candBefore l).take 8192
    (l.filter best.contains, l.length - 8192)

/-- `vx.boxdec`: head and parameter entries. -/
def boxdecCalc (flush : Bool) (o : VxBoxdecOp) (a c : Nat) (es : List Entry) : Option Made :=
  let head := es.headD (emptyEntry .tensor 0)
  let par := es.getD 1 (emptyEntry .index 0)
  let p := boxParams par.data
  if a = 0 then emptyMade [emptyEntry .record 0] es
  else if par.kind != .index || par.rows != 1 || par.cols < 16 || par.cols != 16 + 2 * p.na || !boxParamsOk par.data p then none
  else if a != p.gw * p.gh * p.na || !head.isTensor a (5 + c) then none
  else
    let x := head.lanes flush
    let q := flushParams flush p
    let rs := (List.range a).map (boxPosition flush o.formula o.thr q x.1 (5 + c))
    let l := limitCands (rs.flatMap Prod.fst)
    let ev := (x.2.add (Ev.total (rs.map Prod.snd))).add { sat := l.2, flush := paramFlushes flush o.formula p }
    some { outs := [recordEntry l.1.length ((l.1.flatMap (candRecord p)).map BitVec.toNat)],
           counts := { ev := ev, nans := 0, elements := l.1.length } }

/-- Parameters of `vx.boxdec` (R152, R206, R207). -/
def boxdecOk (o : VxBoxdecOp) : Bool := o.formula ≤ 2 && o.thr < 0x1000000 && !isNanCode fp24 o.thr

/-! ## Greedy suppression (R211 to R213) -/

/-- A record's fields. -/
structure Det where
  box   : List Nat
  score : Nat
  cls   : Nat
  image : Nat
  pos   : Nat
  bytes : List Nat
  deriving DecidableEq, Repr, Inhabited

/-- A little-endian number among bytes. -/
def numAt (b : List Nat) (o w : Nat) : Nat := ((b.drop o).take w).foldr (fun x a => x + 256 * a) 0

def detOf (b : List Nat) : Det :=
  { box := [numAt b 0 2, numAt b 2 2, numAt b 4 2, numAt b 6 2], score := word24 (numAt b 8 4), cls := numAt b 12 2,
    image := numAt b 14 1, pos := numAt b 16 4 % 262144, bytes := b }

/-- The order of R211. -/
def detBefore (a b : Det) : Bool :=
  let hi := (v24 b.score).lt (v24 a.score)
  let lo := (v24 a.score).lt (v24 b.score)
  a.image < b.image || (a.image = b.image && (hi || (!lo && (a.pos < b.pos || (a.pos = b.pos && a.cls < b.cls)))))

def detArea (d : Det) : Nat := (d.box.getD 2 0 - d.box.getD 0 0) * (d.box.getD 3 0 - d.box.getD 1 0)

/-- R212: I ≥ t × U with U > 0. -/
def overlap (iou : Num) (a b : Det) : Bool :=
  let i := (min (a.box.getD 2 0) (b.box.getD 2 0) - max (a.box.getD 0 0) (b.box.getD 0 0)) *
    (min (a.box.getD 3 0) (b.box.getD 3 0) - max (a.box.getD 1 0) (b.box.getD 1 0))
  let u := detArea a + detArea b - i
  decide (0 < u) && (iou.mul (.fin false u 1)).le (.fin false i 1)

/-- R213: one record against those kept so far, newest first. -/
def nmsStep (iou : Num) (k : Nat) (aware : Bool) (kept : List Det) (d : Det) : List Det :=
  let mine := kept.filter (fun x => x.image = d.image)
  if k ≤ mine.length || mine.any (fun x => (!aware || x.cls = d.cls) && overlap iou d x) then kept else d :: kept

/-- A kept record: flag bit 0 set. -/
def keptBytes (d : Det) : List Nat :=
  let f := d.bytes.getD 15 0
  d.bytes.set 15 (if f % 2 = 1 then f else f + 1)

/-- `vx.nms`. -/
def nmsCalc (o : VxNmsOp) (k : Nat) (es : List Entry) : Option Made :=
  let total := (es.map Entry.rows).sum
  if total = 0 then emptyMade [emptyEntry .record 0] es
  else if !(es.all (fun e => e.kind = .record)) || 8192 < total then none
  else
    let l := (es.flatMap (fun e => chunks 32 e.data)).map detOf
    let ordered := sortBy detBefore (l.filter (fun d => !isNanCode fp24 d.score))
    let kept := (ordered.foldl (nmsStep (v24 o.iou) k o.aware) []).reverse
    some { outs := [recordEntry kept.length (kept.flatMap keptBytes)],
           counts := { ev := Ev.none, nans := 0, elements := kept.length } }

/-- Parameters of `vx.nms`: an IoU threshold within (0, 1] (R152) and one to eight entries (R211). -/
def nmsOk (o : VxNmsOp) : Bool :=
  1 ≤ o.e && o.e ≤ 8 && o.iou < 0x1000000 && (v24 0).lt (v24 o.iou) && (v24 o.iou).le (.fin false 1 1)

end Sys2Proof.Machine
end

