-- ==== Sys2Proof/Machine/Halt.lean ====
section
/-! DEFINITION. How an instruction ends other than by completing: skip and log (R234 to R237) and the suite-local halt (R167 to
R170, R135, R80, R107, R256). -/

namespace Sys2Proof.Machine

/-- What trying an issued instruction answers. -/
inductive Attempt where
  /-- It waits for these, in operand order (R241). -/
  | wait (l : List Nat)
  /-- Something of its own core must happen first. -/
  | later
  /-- It is illegal, with a reason code of R236. -/
  | skip (code : Nat) (s : State)
  /-- A shape overrun: the suite halts. Its pops are not restored. -/
  | overrun (s : State)
  /-- It makes progress; `complete` says whether it has completed. -/
  | go (complete : Bool) (s : State)
  deriving Repr, Inhabited

/-! ## The oldest instruction of a core -/

/-- The oldest uncommitted instruction in flow, with its index and the loops open at it. -/
def oldestFlow (l : List Flow) : Option (Nat × Nat) :=
  l.findSome? (fun f => match f with
    | .work i => some (i.idx, i.lp.length)
    | .guard g => some (g.idx, g.frames.length)
    | _ => none)

/-- Instruction index of the oldest uncommitted instruction: in flow, else the one at which issue holds, else the next. -/
def Seq.oldest (q : Seq) : Option Nat :=
  match oldestFlow q.flow with
  | some e => some e.1
  | none => match q.hold with
    | some h => some h.2.1
    | none => if q.ended then none else (q.code[q.pc]?).map Prod.fst

/-- Loops open at the oldest uncommitted instruction (R172). -/
def Seq.loopDepth (q : Seq) : Nat :=
  match oldestFlow q.flow with
  | some e => e.2
  | none => q.frames.length

/-- Unresolved guards (R172). -/
def Seq.guards (q : Seq) : Nat :=
  (q.flow.filter (fun f => match f with
    | .guard _ => true
    | _ => false)).length

/-- Remove an issued instruction from the flow. -/
def Seq.drop (q : Seq) (no : Nat) : Seq :=
  { q with flow := q.flow.filter (fun f => match f with
      | .work i => i.no != no
      | _ => true) }

def State.setSeq (s : State) (n : Nat) (f : Seq → Seq) : State := s.setCore n (fun c => { c with seq := f c.seq })

/-! ## The halt -/

/-- A core of a halted suite: its work, entries, banks and slots are discarded; credits and flags stay (R80, R107, R135). -/
def Core.halt (c : Core) (idx : Nat) : Core :=
  { c with
    queues := c.queues.map (fun e => (e.1, { e.2 with entries := [], used := 0 })),
    seq := { Seq.empty with nextNo := c.seq.nextNo, barriers := c.seq.barriers, issues := c.seq.issues, haltIdx := idx },
    arr := c.arr.stop, walks := List.replicate 4 none, fallbacks := [] }

/-- The body of notice 0x4001 (R451). -/
def haltBody (k cause n idx : Nat) (waits : List Nat) (chip at_ : Nat) : List Byte :=
  toLE 1 k ++ toLE 1 cause ++ toLE 1 n ++ [0] ++ toLE 4 idx ++ (List.range 4).flatMap (fun i => toLE 4 (waits.getD i 0)) ++
    toLE 4 chip ++ toLE 8 at_ ++ zeros 4

/-- The running entry completes with status 0x01 and the cause; a step's sequences do so one by one (R256). -/
def State.haltEntry (s : State) (k cause : Nat) : State :=
  match (s.suite k).disp with
  | some d =>
    if d.isStep then (s.unreserve k d.resv).setSuite k (fun x => { x with disp := none })
    else s.due (s.suite k).compRing d.index 0 1 cause k d.done (.consume k)
  | none => s

/-- A suite-local halt with a cause of R167, raised by core n at instruction `idx`. `raised` gives the index that core m shows. -/
def State.haltSuite (s : State) (k cause n idx : Nat) (raised : Nat → Nat) : State :=
  let c := s.core n
  let t := s.setSuite k (fun x => { x with st := 5, cause := cause, haltCore := n, haltTime := s.now, groups := [] })
  let u : State :=
    { t with
      cores := t.cores.mapIdx (fun m c => if bit (s.suite k).mask m then c.halt (if m = n then idx else raised m) else c),
      flight := t.flight.filter (fun p => !(bit (s.suite k).mask p.core && bit (s.suite k).mask p.src)) }
  let v := ((u.haltEntry k cause).endRows k 1 cause).dueState k 5 cause
  v.notice (s.suite k).owner 0x4001 k (haltBody k cause n idx c.stallWait c.stallChip s.now)

/-- A halt for a shape overrun or a skip: every other core shows its oldest uncommitted instruction, or 0 (R172). -/
def State.haltAt (s : State) (k cause n idx : Nat) : State :=
  s.haltSuite k cause n idx (fun m => ((s.core m).seq.oldest).getD 0)

/-! ## Skip and log (R234, R235) -/

/-- One skip entry and one more skip. -/
def State.logSkip (s : State) (k n idx code : Nat) : State :=
  (s.setCore n (fun c => { c with skips := (c.skips + 1) % M48 })).logE 0x0010 4 (s.suite k).owner k 14 n idx code 0

/-- The suite's skip policy (R168). -/
def Suite.policy (x : Suite) : Nat :=
  match x.prog with
  | some p => p.skipPolicy
  | none => 0

/-- An engine instruction is skipped: policy 1 halts the suite with cause 3. -/
def State.skipEngine (s : State) (k n no idx code : Nat) : State :=
  let t := (s.logSkip k n idx code).setSeq n (fun q => q.drop no)
  if (s.suite k).policy = 1 then t.haltAt k 3 n idx else t

/-- An illegal sequencer instruction halts the suite whatever its policy (R235). -/
def State.skipSequencer (s : State) (k n idx code : Nat) : State := (s.logSkip k n idx code).haltAt k 3 n idx

end Sys2Proof.Machine
end

