-- ==== Sys2Proof/Machine/Walk.lean ====
section
/-! DEFINITION. Walk programs (R173 to R188): the loop nest, coordinates, items, padding, tap folding, guards, footprints,
and the reading and writing of items. -/

namespace Sys2Proof.Machine

/-! ## A walk with its captured values (R177) -/

structure WalkPlan where
  d      : WalkDesc
  bounds : List Nat
  ext    : List Nat
  org    : List Int
  bases  : List Nat
  deriving DecidableEq, Repr, Inhabited

/-- A bound: a negative sum counts as 0 (R174). -/
def boundVal (sh : List ShVal) (b : Bound) : Option Nat :=
  match b.sh with
  | none => some b.imm.toNat
  | some r => (shVal sh r).map (fun v => ((v : Int) + b.imm).toNat)

/-- The constant part of a coordinate: o_d and its offset terms (R175). -/
def originVal (sh : List ShVal) (lp : List Nat) (d : DimRec) : Option Int :=
  let t := match d.lp with
    | some p => (lp.getD p.1 0 : Int) * p.2
    | none => 0
  match d.offSh with
  | none => some (d.offset + t)
  | some r => (shVal sh r).map (fun v => d.offset + t + (v : Int))

/-- A base from the descriptor or instruction, or from a pair of dispatch words (R153). -/
def baseVal (words : List Nat) : BaseSrc → Nat
  | .imm a => a
  | .words lo hi => words.getD lo 0 + M32 * words.getD hi 0

/-- The bases of a walk: the instruction's where it names them, else the descriptor's. -/
def basesOf (words : List Nat) (op desc : List BaseSrc) : List Nat :=
  (List.range 4).map (fun i => match (op[i]?).or desc[i]? with
    | some b => baseVal words b
    | none => 0)

/-- Capture a walk at its issue; none while a shape register of its loops or dimensions is outstanding. -/
def walkPlan (d : WalkDesc) (i : Issued) (words : List Nat) (op : List BaseSrc) : Option WalkPlan :=
  match d.loops.mapM (boundVal i.sh), d.dims.mapM (fun r => boundVal i.sh r.extent), d.dims.mapM (originVal i.sh i.lp) with
  | some b, some e, some o => some { d := d, bounds := b, ext := e, org := o, bases := basesOf words op d.bases }
  | _, _, _ => none

/-- Total iteration count. -/
def WalkPlan.total (p : WalkPlan) : Nat := p.bounds.prod

/-- Visits of one entry: a pass of the entry loops (R180). -/
def WalkPlan.pass (p : WalkPlan) : Nat := (p.bounds.take p.d.entryLoops).prod

/-- Entries that the walk forms. -/
def WalkPlan.entries (p : WalkPlan) : Nat := if p.total = 0 then 1 else (p.bounds.drop p.d.entryLoops).prod

/-- Loop indices at visit v, loop 0 first. -/
def loopIdx : List Nat → Nat → List Nat
  | [], _ => []
  | n :: t, v => v % n :: loopIdx t (v / n)

/-- Visits inside one iteration of loop L. -/
def WalkPlan.inner (p : WalkPlan) (l : Nat) : Nat := (p.bounds.take l).prod

/-- The coordinates at visit v (R175). -/
def WalkPlan.coords (p : WalkPlan) (v : Nat) : List Int :=
  let w := loopIdx p.bounds v
  (p.org.zip p.d.dims).map (fun e => e.1 + ((e.2.coef.zip w).map (fun c => c.1 * (c.2 : Int))).sum)

/-- Every coordinate lies inside its extent. -/
def inExtents (x : List Int) (ext : List Nat) : Bool := (x.zip ext).all (fun e => decide (0 ≤ e.1) && decide (e.1 < (e.2 : Int)))

/-- The offset: every dimension's stride term, dimension 4 excluded under base select (R176). -/
def WalkPlan.offset (p : WalkPlan) (x : List Int) : Int :=
  (((x.zip p.d.dims).mapIdx (fun i e => if p.d.baseSelect && i = 4 then 0 else e.1 * e.2.stride))).sum

/-- The number of the element base that an item uses (R176). -/
def WalkPlan.baseNo (p : WalkPlan) (x : List Int) : Nat :=
  if p.d.baseSelect then (if isMx p.d.fmt then 2 * (x.getD 4 0).toNat else (x.getD 4 0).toNat) else 0

/-! ## Formats -/

/-- Formats of a walk: R34's, 0x80 index, 0x83 scale; records and fixed blocks under the codes that R355 gives them. DESIGN
CHOICE (log entry 40): R173 names no code for the records that R210 says `st.store` writes. -/
def walkFmtOk (f : Nat) : Bool := (fmtOf f).isSome || [0x80, 0x81, 0x82, 0x83].contains f

/-- Bytes of one element of an item that is not MX. -/
def itemWidth (f : Nat) : Nat :=
  match f with
  | 0x80 => 4
  | 0x81 => 32
  | 0x82 => 1
  | 0x83 => 1
  | _ => elemBytes f

/-- Values of a folded group (R184). -/
def foldCount (f : FoldRec) : Nat := f.c * f.kh * f.kw

/-- Columns that one item adds to its entry (R180, R184). -/
def WalkPlan.itemCols (p : WalkPlan) : Nat :=
  match p.d.fold with
  | some f => if isMx p.d.fmt then 32 * ((foldCount f + 31) / 32) else foldCount f
  | none => if isMx p.d.fmt then 32 else p.d.run

/-- Rows of an entry: the product of the marked entry loops' bounds. -/
def WalkPlan.rows (p : WalkPlan) : Nat :=
  ((p.bounds.take p.d.entryLoops).mapIdx (fun i n => if bit p.d.rowMask i then n else 1)).prod

def WalkPlan.cols (p : WalkPlan) : Nat :=
  ((p.bounds.take p.d.entryLoops).mapIdx (fun i n => if bit p.d.rowMask i then 1 else n)).prod * p.itemCols

/-! ## Tap folding (R184, R185) -/

/-- The coordinates of one tap and channel, at position j of a folded group. -/
def tapCoords (f : FoldRec) (x : List Int) (j : Nat) : List Int :=
  let t := j / f.c
  x.mapIdx (fun i c =>
    (c + (if i = f.hdim then ((t / f.kw * f.dh : Nat) : Int) else 0)) +
      (if i = f.wdim then ((t % f.kw * f.dw : Nat) : Int) else 0))

/-- The flat element of position j, or none for padding. -/
def WalkPlan.tap (p : WalkPlan) (f : FoldRec) (x : List Int) (j : Nat) : Option Int :=
  let y := tapCoords f x j
  if inExtents y p.ext then some (p.offset y + ((j % f.c * f.cstr : Nat) : Int)) else none

/-- The base number of a folded item: its selecting coordinate must lie inside. -/
def WalkPlan.taps (p : WalkPlan) (f : FoldRec) (x : List Int) : List (Option Int) := (List.range (foldCount f)).map (p.tap f x)

/-! ## Bytes that a visit touches -/

/-- Byte spans of visit v: base number, first byte, length. A padded item has none (R179). -/
def WalkPlan.spans (p : WalkPlan) (v : Nat) : List (Nat × Int × Nat) :=
  let x := p.coords v
  let b := p.baseNo x
  let base := fun (i : Nat) => (p.bases.getD i 0 : Int)
  let mx := isMx p.d.fmt
  let bb : Int := (mxBytes p.d.fmt : Nat)
  match p.d.fold with
  | some f =>
    (p.taps f x).filterMap id |>.flatMap (fun e =>
      if mx then [(b, base b + e / 32 * bb, mxBytes p.d.fmt), (b + 1, base (b + 1) + e / 32, 1)]
      else [(b, base b + 2 * e, 2)])
  | none =>
    if !inExtents x p.ext then []
    else
      let off := p.offset x
      if mx then [(b, base b + off * bb, mxBytes p.d.fmt), (b + 1, base (b + 1) + off, 1)]
      else [(b, base b + off, p.d.run * itemWidth p.d.fmt)]

/-- Lowest byte and first byte beyond the highest, for one base. -/
def spanHull (l : List (Nat × Int × Nat)) (b : Nat) : Option (Int × Int) :=
  (l.filter (fun e => e.1 = b)).foldl (fun h e => match h with
    | none => some (e.2.1, e.2.1 + (e.2.2 : Int))
    | some g => some (min g.1 e.2.1, max g.2 (e.2.1 + (e.2.2 : Int)))) none

/-- Every span of every visit. -/
def WalkPlan.allSpans (p : WalkPlan) : List (Nat × Int × Nat) := (List.range p.total).flatMap p.spans

/-- The bytes from `lo` to `hi` - 1 of a shelf lie in the suite's grant of that cluster (R22). -/
def State.inGrant (s : State) (k x lo hi : Nat) : Bool :=
  match (s.suite k).grants[x]? with
  | some g => g.unit0 * 4096 ≤ lo && hi ≤ (g.unit0 + g.units) * 4096
  | none => false

/-- A range of shelf addresses lies in the suite's grants: each cluster's part of it in that cluster's (R22, R176). -/
def State.inShelf (s : State) (k a n : Nat) : Bool :=
  let x0 := a / 0x1000000
  let x1 := (a + n - 1) / 0x1000000
  x1 < 8 && (List.range (x1 + 1)).all (fun x =>
    x < x0 || s.inGrant k x (if x = x0 then a % 0x1000000 else 0) (if x = x1 then (a + n - 1) % 0x1000000 + 1 else 0x1000000))

/-- The hull of one base lies where the walk's space allows. -/
def State.hullIn (s : State) (k : Nat) (shelf : Bool) (h : Int × Int) : Bool :=
  if h.1 < 0 then false
  else if shelf then s.inShelf k h.1.toNat (h.2 - h.1).toNat else s.inSuite k h.1.toNat (h.2 - h.1).toNat

/-- R187: the footprint of every base but those excepted lies in the suite's windows or shelf range. -/
def State.footprint (s : State) (k : Nat) (p : WalkPlan) (but : List Nat) : Bool :=
  ([0, 1, 2, 3].filter (fun b => !but.contains b)).all (fun b => match spanHull p.allSpans b with
    | some h => s.hullIn k p.d.shelf h
    | none => true)

/-- R178: every item address of a walk that is not MX is a multiple of its width. -/
def WalkPlan.aligned (p : WalkPlan) : Bool :=
  isMx p.d.fmt || p.d.fmt = 0x81 || p.allSpans.all (fun e => e.2.1 % (itemWidth p.d.fmt : Nat) = 0)

/-! ## Reading and writing -/

def State.spaceRead (s : State) (shelf : Bool) (a n : Nat) : List Byte :=
  if shelf then s.shelfRead (a / 0x1000000) (a % 0x1000000) n else s.devRead a n

/-- Write bytes of a store: device space looks its pages up first. -/
def State.spaceWrite (s : State) (shelf : Bool) (a : Nat) (b : List Byte) : State :=
  if shelf then s.shelfWrite (a / 0x1000000) (a % 0x1000000) b else s.hubWrite a b

/-- The spans of a visit can be read, or written, through valid entries. -/
def State.spansOk (s : State) (shelf write : Bool) (l : List (Nat × Int × Nat)) : Bool :=
  shelf || l.all (fun e => if write then s.writable e.2.1.toNat e.2.2 else s.readable e.2.1.toNat e.2.2)

/-- Translate the pages of a visit's spans. -/
def State.touchSpans (s : State) (shelf : Bool) (l : List (Nat × Int × Nat)) : State :=
  if shelf then s else l.foldl (fun t e => t.touchAll e.2.1.toNat e.2.2) s

/-- One folded element: its code and scale code (R184). -/
def State.foldElem (s : State) (p : WalkPlan) (b : Nat) (e : Int) : Nat × Nat :=
  let base := fun (i : Nat) => (p.bases.getD i 0 : Int)
  if isMx p.d.fmt then
    let blk := s.spaceRead p.d.shelf (base b + e / 32 * (mxBytes p.d.fmt : Nat)).toNat (mxBytes p.d.fmt)
    let k := s.spaceRead p.d.shelf (base (b + 1) + e / 32).toNat 1
    ((unpackBlock p.d.fmt blk).getD (e % 32).toNat 0, byteAt k 0)
  else (unpackElem p.d.fmt (s.spaceRead p.d.shelf (base b + 2 * e).toNat 2), 0)

/-- One MX folded block from its elements' codes and scales; `pad` marks an element that came from padding (R185). -/
def foldBlock (f : Fmt) (padScale : Nat) (l : List (Nat × Nat × Bool)) : List Nat × Nat :=
  let ks := l.filterMap (fun e => if e.2.2 && e.1 = 0 then none else some e.2.1)
  let kmax : Nat := match ks with
    | [] => padScale
    | k :: t => t.foldl max k
  let codes := if kmax = 0xff then l.map (fun _ => 0)
    else l.map (fun e => if e.1 = 0 || e.2.1 = kmax then e.1 else (mxElem f ((kmax : Int) - 127) (mxValue f e.1 e.2.1)).1)
  (codes ++ List.replicate (32 - codes.length) 0, kmax)

/-- The item of visit v: element codes and a block scale for each 32 columns of MX, one pair otherwise (R178, R179). -/
def State.readItem (s : State) (p : WalkPlan) (v : Nat) : List (List Nat × Nat) :=
  let x := p.coords v
  let b := p.baseNo x
  match p.d.fold with
  | some f =>
    let es := (p.taps f x).map (fun t => match t with
      | some e => let c := s.foldElem p b e; (c.1, c.2, false)
      | none => (p.d.pad, p.d.padScale, true))
    if isMx p.d.fmt then (chunks 32 es).map (foldBlock ((fmtOf p.d.fmt).getD mx8) p.d.padScale)
    else [(es.map Prod.fst, 0)]
  | none =>
    if !inExtents x p.ext then
      if isMx p.d.fmt then [(List.replicate 32 p.d.pad, p.d.padScale)]
      else if p.d.fmt = 0x81 then [(List.replicate (32 * p.d.run) 0, 0)]
      else [(List.replicate p.d.run p.d.pad, 0)]
    else
      let off := p.offset x
      let base := fun (i : Nat) => (p.bases.getD i 0 : Int)
      let rd := fun (a : Int) (n : Nat) => s.spaceRead p.d.shelf a.toNat n
      if isMx p.d.fmt then
        [(unpackBlock p.d.fmt (rd (base b + off * (mxBytes p.d.fmt : Nat)) (mxBytes p.d.fmt)), byteAt (rd (base (b + 1) + off) 1) 0)]
      else
        let w := itemWidth p.d.fmt
        let bs := rd (base b + off) (p.d.run * w)
        if p.d.fmt = 0x81 then [(bs.map BitVec.toNat, 0)]
        else [((chunks w bs).map (fun c => if p.d.fmt = 0xa then leNat c % 0x1000000 else leNat c), 0)]

/-- The entry that a pass's items form; `items` stand newest first (R180). -/
def WalkPlan.entry (p : WalkPlan) (items : List (List Nat × Nat)) : Entry :=
  let l := items.reverse
  let data := l.flatMap Prod.fst
  match p.d.fmt with
  | 0x80 => indexEntry p.rows p.cols data
  | 0x83 => scaleEntry p.rows p.cols data
  | 0x81 => recordEntry (data.length / 32) data
  | 0x82 => if data.isEmpty then emptyEntry .fixed 0 else fixedEntry data
  | f => if isMx f then mxEntry f p.rows p.cols data (l.map Prod.snd) else wideEntry f p.rows p.cols data

/-- The empty entry of a walk of total iteration count 0. -/
def WalkPlan.empty (p : WalkPlan) : Entry :=
  match p.d.fmt with
  | 0x80 => emptyEntry .index 0
  | 0x81 => emptyEntry .record 0
  | 0x82 => emptyEntry .fixed 0
  | 0x83 => emptyEntry .scale 0
  | f => emptyEntry .tensor f

/-- An entry has the format and extent of one pass of a store walk (R180). -/
def WalkPlan.takes (p : WalkPlan) (e : Entry) : Bool :=
  match p.d.fmt with
  | 0x80 => e.kind = .index && e.rows = p.rows && e.cols = p.cols
  | 0x83 => e.kind = .scale && e.rows = p.rows && e.cols = p.cols
  | 0x81 => e.kind = .record && e.rows = p.pass * p.d.run
  | 0x82 => e.kind = .fixed && e.cols = p.pass * p.d.run
  | f => e.kind = .tensor && e.fmt = f && e.rows = p.rows && (if isMx f then blocksOf e.cols * 32 = p.cols else e.cols = p.cols)

/-- The bytes of item j of a pass of an entry: element bytes, and the scale byte of an MX item. -/
def WalkPlan.itemBytes (p : WalkPlan) (e : Entry) (j : Nat) : List Byte × Nat :=
  if isMx p.d.fmt then (packBlock p.d.fmt ((e.data.drop (32 * j)).take 32), e.scales.getD j 0)
  else if p.d.fmt = 0x81 then (((e.data.drop (32 * p.d.run * j)).take (32 * p.d.run)).map (BitVec.ofNat 8), 0)
  else (((e.data.drop (p.d.run * j)).take p.d.run).flatMap (fun c => toLE (itemWidth p.d.fmt) (if p.d.fmt = 0xa then c % 0x1000000 else c)), 0)

/-- Write the item of visit v; a padded item writes nothing (R179). -/
def State.writeItem (s : State) (p : WalkPlan) (e : Entry) (v : Nat) : State :=
  let b := p.itemBytes e (v % p.pass)
  match p.spans v with
  | [d] => s.spaceWrite p.d.shelf d.2.1.toNat b.1
  | [d, c] => (s.spaceWrite p.d.shelf d.2.1.toNat b.1).spaceWrite p.d.shelf c.2.1.toNat (toLE 1 b.2)
  | _ => s

/-! ## Guards (R181, R182) -/

def guardLoop : GuardRec → Nat
  | .flag l _ _ _ _ => l
  | .row l _ _ _ _ _ _ => l
  | .entry l _ => l

/-- Visit v begins an iteration of loop L. -/
def WalkPlan.begins (p : WalkPlan) (l v : Nat) : Bool := v % p.inner l = 0

/-- Largest in-bounds coordinate of dimension d over one visit's item; a folded item reads its taps' rows. -/
def WalkPlan.rowsRead (p : WalkPlan) (d v : Nat) : List Nat :=
  let x := p.coords v
  match p.d.fold with
  | some f => (List.range (foldCount f)).filterMap (fun j =>
      let y := tapCoords f x j
      if inExtents y p.ext then some (y.getD d 0).toNat else none)
  | none => if inExtents x p.ext then [(x.getD d 0).toNat] else []

/-- The count of a row guard at the iteration of loop L that begins at visit v (R182). -/
def WalkPlan.rowCount (p : WalkPlan) (l d lo hi v : Nat) : Nat :=
  match (List.range (p.inner l)).flatMap (fun i => p.rowsRead d (v + i)) with
  | [] => 0
  | a :: t => min (t.foldl max a + 1 - lo) (hi - lo)

/-- The target of a flag or row guard at visit v; none while its shape register is outstanding. -/
def WalkPlan.guardTarget (p : WalkPlan) (sh : List ShVal) (g : GuardRec) (v : Nat) : Option Nat :=
  match g with
  | .flag l _ t0 r terms =>
    let w := loopIdx p.bounds v
    let sum := ((terms.zip w).mapIdx (fun i e => if l ≤ i then e.1 * (e.2 : Int) else 0)).sum
    (match r with | some r => shVal sh r | none => some 0).map (fun b => (((t0 + b : Nat) : Int) + sum).emod 0x100000000 |>.toNat)
  | .row l _ d lo hi t0 r =>
    (match r with | some r => shVal sh r | none => some 0).map (fun b => (t0 + b + p.rowCount l d lo hi v) % M32)
  | .entry _ _ => some 0

/-- The shape registers that a guard's target reads (R181). -/
def guardSh : GuardRec → Option Nat
  | .flag _ _ _ r _ => r
  | .row _ _ _ _ _ _ r => r
  | .entry _ _ => none

/-- How a guard stands at visit v: satisfied with the state after it, or its unmet wait. `held` is the queue end at whose head the
entry stands that a store walk is writing. -/
def State.tryGuard (s : State) (k n : Nat) (p : WalkPlan) (sh : List ShVal) (held : Option Nat) (g : GuardRec) (v : Nat) : State ⊕ Nat :=
  match g with
  | .entry _ q =>
    match s.popAt n q.idx (if held = some q.idx then 1 else 0) with
    | some (_, t) => .inl (t.handshake k)
    | none => .inr (queueWaitWord 6 n q.idx)
  | .flag _ f _ _ _ =>
    if flagMet (s.flagValue f) ((p.guardTarget sh g v).getD 0) then .inl (s.handshake k) else .inr (flagWaitWord f)
  | .row _ f _ _ _ _ _ =>
    if flagMet (s.flagValue f) ((p.guardTarget sh g v).getD 0) then .inl (s.handshake k) else .inr (flagWaitWord f)

/-- Evaluate the guards of visit v from record `at_` on. Answers the state, the next record, and the unmet wait if one stops it. -/
def State.tryGuards (s : State) (k n : Nat) (p : WalkPlan) (sh : List ShVal) (held : Option Nat) (v : Nat) :
    Nat → List GuardRec → State × Nat × Option Nat
  | at_, [] => (s, at_, none)
  | at_, g :: t =>
    if p.begins (guardLoop g) v then
      match s.tryGuard k n p sh held g v with
      | .inl u => u.tryGuards k n p sh held v (at_ + 1) t
      | .inr w => (s, at_, some w)
    else s.tryGuards k n p sh held v (at_ + 1) t

/-- The flag that a guard reads. -/
def guardFlag : GuardRec → Option FlagName
  | .flag _ f _ _ _ => some f
  | .row _ f _ _ _ _ _ => some f
  | .entry _ _ => none

/-- The guards of visit v from record `at_` on in a speculative walk: entries go into staging, and nothing else changes (R162,
R186). Answers the next record, the staged queue ends, and whether every guard is satisfied. -/
def State.specGuards (s : State) (n : Nat) (p : WalkPlan) (sh : List ShVal) (v : Nat) :
    List Nat → Nat → List GuardRec → Nat × List Nat × Bool
  | taken, at_, [] => (at_, taken, true)
  | taken, at_, g :: t =>
    if !p.begins (guardLoop g) v then s.specGuards n p sh v taken (at_ + 1) t
    else match g with
      | .entry _ q =>
        if (taken.filter (· = q.idx)).length < (match aGet (s.core n).queues q.idx with | some x => x.entries.length | none => 0) then
          s.specGuards n p sh v (taken ++ [q.idx]) (at_ + 1) t
        else (at_, taken, false)
      | g =>
        if (guardFlag g).all (fun f => flagMet (s.flagValue f) ((p.guardTarget sh g v).getD 0)) then
          s.specGuards n p sh v taken (at_ + 1) t
        else (at_, taken, false)

/-- The shape registers that a walk's guards read are known (R177). -/
def guardsKnown (d : WalkDesc) (sh : List ShVal) : Bool := d.guards.all (fun g => (guardSh g).all (fun r => (shVal sh r).isSome))

/-! ## Checks before a walk starts -/

/-- Descriptor fields that a core can run (R173, R184). -/
def descOk (d : WalkDesc) (store : Bool) : Bool :=
  d.store = store && walkFmtOk d.fmt && 1 ≤ d.cls && d.cls ≤ 3 && 1 ≤ d.run && d.run ≤ 256 && (!isMx d.fmt || d.run = 1) && 1 ≤ d.loops.length &&
    d.loops.length ≤ 8 && 1 ≤ d.dims.length && d.dims.length ≤ 5 && 1 ≤ d.entryLoops && d.entryLoops ≤ d.loops.length &&
    d.guards.length ≤ 8 && d.signals.length ≤ 2 && (!d.baseSelect || 5 ≤ d.dims.length) &&
    match d.fold with
    | none => true
    | some f =>
      !store && 1 ≤ f.c && f.c ≤ 32 && 1 ≤ f.kh && f.kh ≤ 11 && 1 ≤ f.kw && f.kw ≤ 11 && 1 ≤ f.dh && f.dh ≤ 64 && 1 ≤ f.dw &&
        f.dw ≤ 64 && 1 ≤ f.cstr && foldCount f ≤ 256 && (isMx d.fmt || d.fmt = 8 || d.fmt = 9)

/-- Base select keeps its dimension 4 within the bases (R176). -/
def WalkPlan.selectOk (p : WalkPlan) : Bool :=
  !p.d.baseSelect || p.ext.getD 4 0 ≤ (if isMx p.d.fmt then 2 else 4)

end Sys2Proof.Machine
end

