-- ==== Sys2Proof/Machine/Mcast.lean ====
section
/-! DEFINITION. Multicast groups (R130 to R134): offering an entry to the receivers, the lag timer, detaching, and the fallback
fetch. An entry is offered as one unit (log entry 41). -/

namespace Sys2Proof.Machine

def State.group? (s : State) (k g : Nat) : Option GroupRun := aGet (s.suite k).groups g

def State.setGroup (s : State) (k g : Nat) (f : GroupRun → GroupRun) : State :=
  s.setSuite k (fun x => { x with groups := aMod x.groups g f })

def recvName (r : RecvRun) : QName := { chip := none, core := r.core, idx := r.qi }

/-- The credits of a queue end are with a fallback context (R133): core n's own pushes there wait. -/
def State.owed (s : State) (k n : Nat) (q : QName) : Bool :=
  q.chip.isNone && (s.suite k).groups.any (fun e =>
    e.2.core = n && e.2.recvs.any (fun r => r.owes && r.core = q.core && r.qi = q.idx))

/-- The descriptor of a walk of the suite's program. -/
def Suite.walkDesc (x : Suite) (w : Nat) : Option WalkDesc :=
  match x.prog with
  | some p => p.walks[w]?
  | none => none

/-- The plan of a walk in progress, from its captured values. -/
def State.runPlan (s : State) (k : Nat) (r : WalkRun) : Option WalkPlan :=
  match (s.suite k).walkDesc r.walk with
  | some d => (walkPlan d r.i [] []).map (fun p => { p with bases := r.bases })
  | none => none

/-! ## Offering (R131, R132) -/

/-- One receiver of an offered entry: it accepts when it is attached, holds its credits again and has room. -/
def State.offerTo (s : State) (k g : Nat) (i : Nat) : State :=
  match s.group? k g with
  | none => s
  | some x =>
    match x.offered, x.recvs[i]? with
    | some e, some r =>
      match (s.core x.core).walks.getD x.engine none with
      | some w =>
        if r.attached && !r.accepted && !s.owed k x.core (recvName r) && s.room x.core (recvName r) e then
          ((s.push x.core w.i.no (recvName r) e).setGroup k g (fun y =>
            { y with recvs := lMod y.recvs i (fun r => { r with accepted := true, lag := none }) })).handshake k
        else s
      | none => s
    | _, _ => s

/-- Lag timers run for receivers that have not accepted once another attached receiver has (R132), but for those to which the
source may not yet offer, since their credits are with a fallback context (R133); an entry that every attached receiver has
accepted is done. -/
def GroupRun.settle (x : GroupRun) (now : Nat) (owed : RecvRun → Bool) : GroupRun :=
  let att := x.recvs.filter RecvRun.attached
  if x.offered.isNone then x
  else if att.all RecvRun.accepted then { x with offered := none, taken := true }
  else if att.any RecvRun.accepted then
    { x with recvs := x.recvs.map (fun r =>
        if r.attached && !r.accepted && !owed r && r.lag.isNone then { r with lag := some now } else r) }
  else x

/-- Offer the present entry to every receiver. -/
def State.offer (s : State) (k g : Nat) : State :=
  match s.group? k g with
  | none => s
  | some x =>
    if x.offered.isNone then s
    else ((List.range x.recvs.length).foldl (fun t i => t.offerTo k g i) s).setGroup k g (fun y =>
      y.settle s.now (fun r => s.owed k x.core (recvName r)))

/-- The source offers its next entry; nobody has accepted it yet. -/
def State.present_ (s : State) (k g number : Nat) (e : Entry) : State :=
  (s.setGroup k g (fun x =>
    { x with offered := some e, number := number,
             recvs := x.recvs.map (fun r => { r with accepted := false, lag := none }) })).offer k g

/-- A new `st.walk` feeds the group: every receiver is attached again (R133). -/
def State.reattach (s : State) (k g : Nat) : State :=
  s.setGroup k g (fun x =>
    { x with offered := none, taken := false,
             recvs := x.recvs.map (fun r => { r with attached := true, accepted := false, lag := none }) })

/-! ## Detaching (R132, R133) -/

/-- The receiver of core m. -/
def GroupRun.recvOf (x : GroupRun) (m : Nat) : Option (Nat × RecvRun) :=
  (x.recvs.mapIdx (fun i r => (i, r))).find? (fun e => e.2.core = m)

/-- Detach receiver i: its fallback engine takes the entries it has not accepted, and with them the source's credits. -/
def State.detach (s : State) (k g i : Nat) (x : GroupRun) (r : RecvRun) (w : WalkRun) (e : Entry) : State :=
  let total := match s.runPlan k w with
    | some p => p.entries
    | none => 0
  let f : Fallback := { group := g, engine := r.fallback, run := { w with ready := [], items := [] }, next := x.number,
                        total := total, src := x.core, qi := r.qi }
  let t := s.setGroup k g (fun y => { y with recvs := lMod y.recvs i (fun r => { r with attached := false, owes := true, lag := none }) })
  let t := t.setCore r.core (fun c => { c with fallbacks := c.fallbacks ++ [f], detaches := (c.detaches + 1) % M48 })
  let t := t.setSuite k (fun y => { y with tdc := (y.tdc + 1) % M48, detached := true })
  (t.logE 0x0011 0 (s.suite k).owner k 14 r.core g (x.number * e.granules) 0).offer k g

/-- MCAST_LAG_EXPIRY: a receiver that gains room at the same instant accepts instead (R132). -/
def State.lagExpiry (s : State) (k g m : Nat) : State :=
  match s.group? k g with
  | none => s
  | some x =>
    match x.recvOf m, x.offered, (s.core x.core).walks.getD x.engine none with
    | some (i, r), some e, some w =>
      match r.lag with
      | some t =>
        if r.attached && !r.accepted && t + (s.suite k).lag * 1000 ≤ s.now then
          if s.room x.core (recvName r) e then s.offer k g else s.detach k g i x r w e
        else s
      | none => s
    | _, _, _ => s

/-! ## The fallback fetch (R133, R189) -/

/-- Visits of entry j of a walk. -/
def WalkPlan.visitsOf (p : WalkPlan) (j : Nat) : List Nat := (List.range p.pass).map (· + j * p.pass)

/-- The entry that a walk forms as its j-th, read as memory stands. -/
def State.entryAt (s : State) (p : WalkPlan) (j : Nat) : Entry :=
  if p.total = 0 then p.empty else p.entry (((p.visitsOf j).flatMap (s.readItem p)).reverse)

/-- The fallback fetch of a group on core m has ended: the credits pass back to the source. -/
def State.endFallback (s : State) (k g m : Nat) : State :=
  (s.setCore m (fun c => { c with fallbacks := c.fallbacks.filter (fun f => f.group != g) })).setGroup k g (fun x =>
    { x with recvs := x.recvs.map (fun r => if r.core = m then { r with owes := false } else r) })

/-- FALLBACK_FETCH: one entry is fetched and pushed as the source's, when the receiver has space for it. -/
def State.fallbackStep (s : State) (k g m : Nat) : State :=
  match (if (s.suite k).st = 4 then (s.core m).fallbacks.find? (fun f => f.group = g) else none) with
  | none => s
  | some f =>
    match s.runPlan k f.run with
    | none => s
    | some p =>
      let vs := if p.total = 0 then [] else p.visitsOf f.next
      if !vs.all (fun v => s.spansOk p.d.shelf false (p.spans v)) then
        let t := (s.logSkip k f.src f.run.i.idx 9).endFallback k g m
        if (t.suite k).policy = 1 then t.haltAt k 3 f.src f.run.i.idx else t
      else
        let e := s.entryAt p f.next
        let q : QName := { chip := none, core := m, idx := f.qi }
        if s.room f.src q e then
          let t := vs.foldl (fun t v => t.touchSpans p.d.shelf (p.spans v)) s
          let t := ((t.push f.src f.run.i.no q e).setCore m (fun c =>
            { c with fallbacks := c.fallbacks.map (fun x => if x.group = g then { x with next := x.next + 1 } else x) })).handshake k
          if f.total ≤ f.next + 1 then t.endFallback k g m else t
        else s

end Sys2Proof.Machine
end

