-- ==== Sys2Proof/Machine/Streams.lean ====
section
/-! DEFINITION. The stream instructions `st.walk` (R153) and `st.store` (R154), with the reason codes that a core finds on the
operands of any instruction (R236). -/

namespace Sys2Proof.Machine

/-! ## Reason codes of operands (R236) -/

/-- The least reason code among those that apply. -/
def minCode (l : List (Option Nat)) : Option Nat :=
  l.foldl (fun m c => match m, c with
    | some a, some b => some (min a b)
    | none, c => c
    | m, none => m) none

/-- A reason code when a check fails. -/
def codeUnless (ok : Bool) (code : Nat) : Option Nat := if ok then none else some code

/-- A pop operand: it names a bound queue end of the executing core (R140). -/
def State.popCode (s : State) (n : Nat) (q : QName) : Option Nat :=
  let q := s.localName q
  if q.chip.isSome || q.core != n then some 0x0d
  else codeUnless (s.queue? q).isSome 0x03

/-- A push operand: a bound queue end of this chip lists the core; a remote push is never skipped (R236). -/
def State.pushCode (s : State) (n : Nat) (q : QName) : Option Nat :=
  let q := s.localName q
  if q.chip.isSome then none
  else if !bit s.health.present q.core || 32 ≤ q.core then some 0x02
  else match s.queue? q with
    | none => some 0x03
    | some x => codeUnless (x.producers.any (fun p => producerIs s p n)) 0x04

/-- The core or cluster that a flag names exists. -/
def State.flagHome (s : State) : FlagName → Bool
  | .core c _ => c < 32 && bit s.health.present c
  | .shelf x _ => clusterFitted s.fuses.grade x

def State.waitCode (s : State) (k n : Nat) (f : FlagName) : Option Nat :=
  if !s.flagHome f then some 0x02 else codeUnless (s.mayWait k n f) 0x05

def State.signalCode (s : State) (k : Nat) (f : FlagName) : Option Nat :=
  if !s.flagHome f then some 0x02 else codeUnless (s.maySignal k f) 0x05

def targetOk (t : Target) : Bool :=
  match t.sh with
  | some r => r < 16
  | none => true

/-- The clauses of an engine instruction (R141). -/
def State.clauseCode (s : State) (k n : Nat) (c : Clauses) : Option Nat :=
  minCode [
    match c.wait with
    | some w => minCode [s.waitCode k n w.flag, codeUnless (targetOk w.target) 0x01]
    | none => none,
    match c.signal with
    | some g => minCode [s.signalCode k g.flag, codeUnless (g.inc ≤ 65535) 0x01]
    | none => none]

/-- What a wait clause still waits for: nothing once it has been satisfied, else its flag; `none` while its target is
outstanding. -/
def State.clauseWait (s : State) (i : Issued) (c : Clauses) : Option (List Nat) :=
  if i.met then some []
  else match c.wait with
    | none => some []
    | some w => (targetVal i.sh w.target).map (fun v => if flagMet (s.flagValue w.flag) v then [] else [flagWaitWord w.flag])

/-- A push that may leave now: room, and the source's credits are not with a fallback context. -/
def State.free_ (s : State) (k n : Nat) (q : QName) (e : Entry) : Bool := s.room n q e && !s.owed k n q

/-- The unmet waits for space of a list of outputs, each with its granules, in order (R19, R240). `seen` are the outputs before them,
whose granules count too at the same queue end. -/
def State.spaceWaits (s : State) (k n : Nat) : List (QName × Nat) → List (QName × Nat) → List Nat
  | _, [] => []
  | seen, (q, g) :: t =>
    let q := s.localName q
    let before := ((seen.filter (fun d => d.1 = q)).map Prod.snd).sum
    (if s.roomFor n q (before + g) && !s.owed k n q then [] else [pushWaitWord q]) ++ s.spaceWaits k n (seen ++ [(q, g)]) t

/-- Entries as a demand for space. -/
def demandOf (l : List (QName × Entry)) : List (QName × Nat) := l.map (fun p => (p.1, p.2.granules))

/-- Push every entry of a list, in order. Names are made local (R110). -/
def State.sendAll (s : State) (n no : Nat) : List (QName × Entry) → State
  | [] => s
  | (q, e) :: t => (s.push n no (s.localName q) e).sendAll n no t

/-! ## Walks -/

/-- Dispatch words of the suite's present entry or step. -/
def Suite.words (x : Suite) : List Nat :=
  match x.disp with
  | some d => d.words
  | none => []

/-- Reason codes of a walk's guards and signals. -/
def State.guardCode (s : State) (k n : Nat) (g : GuardRec) : Option Nat :=
  match g with
  | .flag _ f _ _ _ => minCode [s.waitCode k n f, codeUnless ((guardSh g).all (· < 16)) 0x01]
  | .row _ f _ _ _ _ _ => minCode [s.waitCode k n f, codeUnless ((guardSh g).all (· < 16)) 0x01]
  | .entry _ q => s.popCode n q

/-- Codes of a descriptor whatever its captured values. -/
def State.descCode (s : State) (k n : Nat) (d : Option WalkDesc) (store : Bool) : Option Nat :=
  match d with
  | none => some 0x01
  | some d =>
    minCode ([codeUnless (descOk d store) 0x01] ++ d.guards.map (s.guardCode k n) ++ d.signals.map (fun g => s.signalCode k g.flag))

/-- Codes of the captured walk: footprint (0x08, 0x09) and alignment (0x0a). `but` lists bases checked otherwise. -/
def State.planCode (s : State) (k : Nat) (p : WalkPlan) (but : List Nat) : Option Nat :=
  minCode [codeUnless p.selectOk 0x01, codeUnless (s.footprint k p but) (if p.d.shelf then 0x08 else 0x09), codeUnless p.aligned 0x0a]

def State.setWalk (s : State) (n u : Nat) (r : Option WalkRun) : State :=
  s.setCore n (fun c => { c with walks := c.walks.set u r })

/-- A walk at its start. -/
def startRun (i : Issued) (w : Nat) (p : WalkPlan) : WalkRun :=
  { i := i, walk := w, bases := p.bases, visit := 0, guardAt := 0, items := [], ready := [], sent := 0, src := none,
    spec := false, taken := [] }

/-- Granules in the main context's staging (R186, R191). -/
def WalkRun.staged (r : WalkRun) : Nat := (r.ready.map Entry.granules).sum

/-- The engine may form another entry ahead of its pushes: fewer than 64 granules are staged, and visits are left (R186). -/
def WalkRun.mayFetch (r : WalkRun) (p : WalkPlan) : Bool := r.staged < 64 && r.visit < p.total

/-- A walk after the item of a visit: a pass that it completes adds an entry to the staging. -/
def WalkRun.next (r : WalkRun) (p : WalkPlan) (items : List (List Nat × Nat)) : WalkRun :=
  let v := r.visit + 1
  if v % p.pass = 0 then { r with visit := v, guardAt := 0, items := [], ready := r.ready ++ [p.entry items] }
  else { r with visit := v, guardAt := 0, items := items }

/-- Why a walk stops within a pass. -/
inductive WalkStop where
  | none
  | wait (w : Nat)
  | skip (code : Nat)
  | overrun
  deriving DecidableEq, Repr, Inhabited

/-- Form items of a fetch walk until an entry is complete or something stops it. -/
def State.fetchVisits (s : State) (k n : Nat) (p : WalkPlan) (r : WalkRun) : Nat → State × WalkRun × WalkStop
  | 0 => (s, r, .none)
  | fuel + 1 =>
    match s.tryGuards k n p r.i.sh none r.visit r.guardAt (p.d.guards.drop r.guardAt) with
    | (t, at_, some w) => (t, { r with guardAt := at_ }, .wait w)
    | (t, _, none) =>
      let sp := p.spans r.visit
      if !t.spansOk p.d.shelf false sp then
        (sp.foldl (fun t e => t.logHostFail e.2.1.toNat e.2.2) t, r, .skip 0x09)
      else
        let q := r.next p ((t.readItem p r.visit).reverse ++ r.items)
        let u := t.touchSpans p.d.shelf sp
        if q.visit % p.pass = 0 then (u, q, .none) else u.fetchVisits k n p q fuel

/-- The oldest staged entry goes to its destination; answers whether it has left, and what it waits for. -/
def State.deliverEntry (s : State) (k n : Nat) (o : StWalkOp) (r : WalkRun) (e : Entry) : State × Bool × List Nat :=
  match o.dest with
  | .queue q =>
    let q := s.localName q
    if s.free_ k n q e then ((s.push n r.i.no q e).handshake k, true, []) else (s, false, [pushWaitWord q])
  | .group g =>
    match s.group? k g with
    | none => (s, true, [])
    | some x =>
      let t := if x.taken then s else if x.offered.isNone then s.present_ k g r.sent e else s.offer k g
      match t.group? k g with
      | some y =>
        let w := (y.recvs.filter (fun r => r.attached && !r.accepted)).map (fun r => queueWaitWord 2 r.core r.qi)
        (if y.taken then t.setGroup k g (fun y => { y with taken := false }) else t, y.taken, w)
      | none => (t, true, [])

/-- Continue a committed `st.walk`: its oldest entry leaves, or it fetches ahead into its staging (R186). -/
def State.stepFetch (s : State) (k n : Nat) (o : StWalkOp) (p : WalkPlan) (r : WalkRun) : Attempt :=
  let fetch := fun (waits : List Nat) =>
    if !r.mayFetch p then Attempt.wait waits
    else match s.fetchVisits k n p r p.pass with
      | (t, q, .skip c) => .skip c (t.setWalk n o.unit (some q))
      | (t, q, .wait w) =>
        if q.visit = r.visit && q.guardAt = r.guardAt then .wait (waits ++ [w]) else .go false (t.setWalk n o.unit (some q))
      | (t, q, _) => .go false (t.setWalk n o.unit (some q))
  match r.ready with
  | e :: rest =>
    match s.deliverEntry k n o r e with
    | (t, true, _) =>
      if p.total ≤ r.visit && rest.isEmpty then .go true (t.setWalk n o.unit none)
      else .go false (t.setWalk n o.unit (some { r with ready := rest, sent := r.sent + 1 }))
    | (t, false, w) => if t.flight.length = s.flight.length then fetch w else .go false t
  | [] => fetch []

/-- The group that a walk feeds names this engine as its source (R130), the walk names class 1 (R131, R171), and the source may push to
each of the receivers. -/
def State.destCode (s : State) (k n : Nat) (o : StWalkOp) : Option Nat :=
  match o.dest with
  | .queue q => s.pushCode n q
  | .group g => match s.group? k g with
    | some x => minCode (codeUnless (x.core = n && x.engine = o.unit) 0x01 :: codeUnless (((s.suite k).walkDesc o.walk).all (fun d => d.cls = 1)) 0x01 ::
        x.recvs.map (fun r => s.pushCode n (recvName r)))
    | none => some 0x01

/-- Codes of an `st.walk`'s own operands. -/
def State.walkCode (s : State) (k n : Nat) (o : StWalkOp) : Option Nat :=
  minCode [codeUnless (o.unit < 4) 0x02, s.descCode k n ((s.suite k).walkDesc o.walk) false, s.destCode k n o, s.clauseCode k n o.cl]

/-- The captured walk of an instruction; none while a shape register that it reads is outstanding (R177). -/
def State.walkPlanOf (s : State) (k : Nat) (i : Issued) (walk : Nat) (bases : List BaseSrc) : Option WalkPlan :=
  match (s.suite k).walkDesc walk with
  | some d => if guardsKnown d i.sh then walkPlan d i (s.suite k).words bases else none
  | none => none

/-- A walk that feeds a group attaches its receivers again (R133). -/
def State.beginDest (s : State) (k : Nat) (o : StWalkOp) : State :=
  match o.dest with
  | .group g => s.reattach k g
  | .queue _ => s

/-- A fetch walk as it begins; a loop product of 0 has its empty entry ready. -/
def fetchRun (i : Issued) (o : StWalkOp) (p : WalkPlan) : WalkRun :=
  let r := startRun i o.walk p
  if p.total = 0 then { r with ready := [p.empty] } else r

/-- The guard of a speculative walk has committed: its footprint is checked, and the entries that its entry guards hold in staging
are popped (R125, R162, R187). -/
def State.commitWalk (s : State) (k n : Nat) (o : StWalkOp) (p : WalkPlan) (r : WalkRun) : Attempt :=
  match s.planCode k p [] with
  | some c => .skip c s
  | none =>
    let t := r.taken.foldl (fun t q => match t.pop n q with
      | some (_, u) => u.handshake k
      | none => t) s
    .go false ((t.setWalk n o.unit (some { r with spec := false, taken := [] })).beginDest k o)

/-- `st.walk`. -/
def State.tryWalk (s : State) (k n : Nat) (i : Issued) (o : StWalkOp) : Attempt :=
  match (s.core n).walks.getD o.unit none with
  | some r =>
    match s.runPlan k r with
    | some p => if r.spec then s.commitWalk k n o p r else s.stepFetch k n o p r
    | none => .later
  | none =>
    match s.walkCode k n o with
    | some c => .skip c s
    | none =>
      match s.walkPlanOf k i o.walk o.bases, s.clauseWait i o.cl with
      | some p, some [] =>
        if M32 ≤ p.total then .overrun s
        else match s.planCode k p [] with
          | some c => .skip c s
          | none => .go false ((s.setWalk n o.unit (some (fetchRun i o p))).beginDest k o)
      | some _, some w => .wait w
      | _, _ => .later

/-! ## Speculative walks (R162, R163, R186) -/

/-- The bytes of a visit lie where a speculative read may go, and the read would not fault. -/
def State.specSpans (s : State) (k : Nat) (p : WalkPlan) (v : Nat) : Bool :=
  (p.spans v).all (fun e => s.hullIn k p.d.shelf (e.2.1, e.2.1 + (e.2.2 : Int))) && s.spansOk p.d.shelf false (p.spans v)

/-- Form items of a speculative walk until an entry is complete or something stops it. Nothing but the walk changes. -/
def State.specVisits (s : State) (k n : Nat) (p : WalkPlan) (r : WalkRun) : Nat → WalkRun
  | 0 => r
  | fuel + 1 =>
    match s.specGuards n p r.i.sh r.visit r.taken r.guardAt (p.d.guards.drop r.guardAt) with
    | (at_, tk, false) => { r with guardAt := at_, taken := tk }
    | (_, tk, true) =>
      if !s.specSpans k p r.visit then { r with guardAt := p.d.guards.length, taken := tk }
      else
        let q := { r with taken := tk }.next p ((s.readItem p r.visit).reverse ++ r.items)
        if q.visit % p.pass = 0 then q else s.specVisits k n p q fuel

/-- An `st.walk` behind an unresolved guard starts, or fetches ahead into its staging; none when it can do neither. -/
def State.specWalk (s : State) (k n : Nat) (i : Issued) (o : StWalkOp) : Option State :=
  match (s.core n).walks.getD o.unit none with
  | some r =>
    match s.runPlan k r with
    | some p =>
      if r.i.no = i.no && r.mayFetch p then
        let q := s.specVisits k n p r p.pass
        if q = r then none else some (s.setWalk n o.unit (some q))
      else none
    | none => none
  | none =>
    match s.walkCode k n o, s.walkPlanOf k i o.walk o.bases, s.clauseWait i o.cl with
    | none, some p, some [] =>
      if M32 ≤ p.total || !p.selectOk || !p.aligned then none else some (s.setWalk n o.unit (some { fetchRun i o p with spec := true }))
    | _, _, _ => none

/-- A squash discards the speculative walks that were issued after the guard (R164). -/
def Core.dropSpec (c : Core) (no : Nat) : Core :=
  { c with walks := c.walks.map (fun w => match w with
      | some r => if r.spec && no < r.i.no then none else some r
      | none => none) }

/-! ## Stores -/

/-- The signals that complete with visit v (R183). -/
def State.walkSignals (s : State) (n : Nat) (p : WalkPlan) (no v : Nat) : State :=
  p.d.signals.foldl (fun t g => if (v + 1) % p.inner g.loop = 0 then t.pendFlag n no g.flag g.inc else t) s

/-- Slot payload length: one past the highest byte written at base b0 (R254). -/
def payloadLen (p : WalkPlan) (vs : List Nat) : Nat :=
  match spanHull (vs.flatMap p.spans) 0 with
  | some h => (h.2 - (p.bases.getD 0 0 : Nat)).toNat
  | none => 0

/-- The ring number behind a result-ring operand. -/
def Suite.resultRing (x : Suite) (r : Nat) : Option Nat := (x.results[r]?).join

/-- Append one slot: payload and header, then P advances and the reservation shrinks (R254). `none`: beyond the reservation. -/
def State.appendSlot (s : State) (k n : Nat) (i : Issued) (ring : Nat) (p : WalkPlan) (e : Entry) (vs : List Nat) : WalkStop × State :=
  let x := s.suite k
  match x.resultRing ring, x.disp with
  | some rn, some d =>
    match s.ring? rn with
    | some r =>
      if d.resv.getD ring 0 = 0 then (.skip 0x0c, s)
      else
        let slot := r.slotAddr r.p
        let p := { p with bases := p.bases.set 0 (slot + 16) }
        let len := payloadLen p vs
        if r.stopped || !s.ringWrites r slot (16 + len) then (.skip 0x09, s.ringStop rn (pageOf slot))
        else if !s.spansOk p.d.shelf true ((vs.flatMap p.spans).filter (fun e => e.1 != 0)) then (.skip 0x09, s)
        else
          let head := toLE 4 len ++ toLE 3 i.idx ++ toLE 1 k ++ toLE 4 d.index ++ toLE 1 d.kernel ++ zeros 3
          let t := vs.foldl (fun t v => (t.writeItem p e v).walkSignals n p i.no v) s
          let t := (t.hubWrite slot head).ringAdvP rn
          let t := t.setRing rn (fun r => { r with resv := r.resv - 1 })
          (.none, t.setSuite k (fun x => { x with disp := x.disp.map (fun d =>
            { d with resv := lMod d.resv ring (fun m => m - 1) }) }))
    | none => (.skip 0x0c, s)
  | _, _ => (.skip 0x0c, s)

/-- The head of a queue end leaves it. -/
def State.dropHead (s : State) (n qi : Nat) : State :=
  match s.pop n qi with
  | some (_, t) => t
  | none => s

/-- The queue end at whose head the entry stands that a store walk is writing. -/
def WalkRun.holds (r : WalkRun) : Option Nat :=
  match r.src, r.i.instr with
  | some _, .stStore o => some o.inp.idx
  | _, _ => none

/-- Visits of a store walk until a pass is complete or something stops it. A result-ring pass is written when it is complete. The
entry is popped when its pass has been written, so that an instruction skipped within a pass has not popped it (R234). -/
def State.storeVisits (s : State) (k n : Nat) (o : StStoreOp) (p : WalkPlan) (r : WalkRun) : Nat → State × WalkRun × WalkStop
  | 0 => (s, r, .none)
  | fuel + 1 =>
    match s.tryGuards k n p r.i.sh (r.src.map (fun _ => o.inp.idx)) r.visit r.guardAt (p.d.guards.drop r.guardAt) with
    | (t, at_, some w) => (t, { r with guardAt := at_ }, .wait w)
    | (t, at_, none) =>
      match r.src.or (t.head? n o.inp.idx) with
      | none => (t, { r with guardAt := at_ }, .wait (queueWaitWord 1 n o.inp.idx))
      | some e =>
        if !p.takes e then (t, r, .overrun)
        else
          let sp := p.spans r.visit
          let v := r.visit + 1
          let last := v % p.pass = 0
          let q := { r with visit := v, guardAt := 0, src := if last then none else some e }
          if o.ring.isNone && !t.spansOk p.d.shelf true sp then (t, { r with src := some e }, .skip 0x09)
          else if o.ring.isNone then
            let u := ((t.writeItem p e r.visit).walkSignals n p r.i.no r.visit).handshake k
            if last then (u.dropHead n o.inp.idx, q, .none) else u.storeVisits k n o p q fuel
          else if last then
            match t.appendSlot k n r.i (o.ring.getD 0) p e (p.visitsOf (r.visit / p.pass)) with
            | (.none, u) => ((u.dropHead n o.inp.idx).handshake k, q, .none)
            | (c, u) => (u, { r with src := some e }, c)
          else t.storeVisits k n o p q fuel

/-- Continue a running `st.store`. -/
def State.stepStore (s : State) (k n : Nat) (o : StStoreOp) (p : WalkPlan) (r : WalkRun) : Attempt :=
  match s.storeVisits k n o p r p.pass with
  | (t, q, .skip c) => .skip c (t.setWalk n o.unit (some q))
  | (t, _, .overrun) => .overrun t
  | (t, q, .wait w) =>
    if q.visit = r.visit && q.guardAt = r.guardAt && q.src = r.src then .wait [w] else .go false (t.setWalk n o.unit (some q))
  | (t, q, .none) => .go (p.total ≤ q.visit) (t.setWalk n o.unit (if p.total ≤ q.visit then none else some q))

/-- A store walk of loop product 0: one entry, which must be empty; a result ring gets a slot of payload length 0 (R180, R254). -/
def State.emptyStore (s : State) (k n : Nat) (i : Issued) (o : StStoreOp) (p : WalkPlan) : Attempt :=
  match s.head? n o.inp.idx with
  | none => .wait [queueWaitWord 1 n o.inp.idx]
  | some e =>
    if !e.isEmpty then .overrun s
    else match o.ring with
      | none => .go true ((s.dropHead n o.inp.idx).handshake k)
      | some r => match s.appendSlot k n i r p e [] with
        | (.none, u) => .go true ((u.dropHead n o.inp.idx).handshake k)
        | (.skip c, u) => .skip c u
        | _ => .later

/-- A footprint at b0 in a slot fits the slot size less 16 bytes (R187, R254). -/
def State.slotFits (s : State) (k : Nat) (o : StStoreOp) (p : WalkPlan) : Bool :=
  match o.ring with
  | none => true
  | some r =>
    match (s.suite k).resultRing r with
    | some rn => match s.ring? rn, spanHull ({ p with bases := p.bases.set 0 0 }).allSpans 0 with
      | some g, some h => decide (0 ≤ h.1) && decide (h.2 ≤ ((2 ^ g.slotLog - 16 : Nat) : Int))
      | _, none => true
      | none, _ => false
    | none => false

/-- Codes of an `st.store`'s own operands. -/
def State.storeCode (s : State) (k n : Nat) (o : StStoreOp) : Option Nat :=
  minCode [codeUnless (o.unit < 4) 0x02, s.descCode k n ((s.suite k).walkDesc o.walk) true, s.popCode n o.inp, s.clauseCode k n o.cl,
    codeUnless (o.ring.all (fun r => ((s.suite k).resultRing r).isSome)) 0x01]

/-- `st.store`. -/
def State.tryStore (s : State) (k n : Nat) (i : Issued) (o : StStoreOp) : Attempt :=
  match (s.core n).walks.getD o.unit none with
  | some r =>
    match s.runPlan k r with
    | some p => s.stepStore k n o p r
    | none => .later
  | none =>
    match s.storeCode k n o with
    | some c => .skip c s
    | none =>
      match s.walkPlanOf k i o.walk o.bases, s.clauseWait i o.cl with
      | some p, some [] =>
        if M32 ≤ p.total then .overrun s
        else if p.total = 0 then s.emptyStore k n i o p
        else match minCode [s.planCode k p (if o.ring.isSome then [0] else []), codeUnless (s.slotFits k o p) 0x09] with
          | some c => .skip c s
          | none => .go false (s.setWalk n o.unit (some (startRun i o.walk p)))
      | some _, some w => .wait w
      | _, _ => .later

end Sys2Proof.Machine
end

