-- ==== Sys2Proof/Machine/Engines.lean ====
section
/-! DEFINITION. One attempt at an issued instruction of the vector engines (R148 to R152), the matrix engine with its drain
chain (R64 to R71, R82 to R106) and the sequencer (R145, R156). -/

namespace Sys2Proof.Machine

/-! ## Vector instructions -/

/-- A vector instruction as the engine sees it: operands in order, extents, checks and the operation on its popped entries. -/
structure VPlan where
  unit  : Nat
  ok    : Bool
  pops  : List QName
  outs  : List QName
  stats : Option QName
  cl    : Clauses
  exts  : List Ext
  lim   : List Nat → Bool
  /-- Granules of its outputs, by extents. An output whose length its data decide needs one to start (log entry 141). -/
  size  : List Nat → List Nat
  run  : List Nat → List Entry → Option Made

def nth (l : List Nat) (i : Nat) : Nat := l.getD i 0

def planMap (flush : Bool) (o : VxMapOp) : VPlan :=
  { unit := o.unit, ok := mapOk o, pops := (mapOperands o).filterMap vQueue ++ o.scales.toList, outs := [o.out], stats := o.stats,
    cl := o.cl, exts := [o.m, o.n], lim := fun x => matrixLimit (nth x 0) (nth x 1),
    size := fun x => [tensorGranules o.fmt (nth x 0) (nth x 1)],
    run := fun x es => mapCalc flush o (nth x 0) (nth x 1) es }

def planReduce (flush : Bool) (own : Nat) (o : VxReduceOp) : VPlan :=
  { unit := o.unit, ok := reduceOk o, pops := List.replicate (if o.axis = 2 then o.e else 1) o.inp ++ o.scales.toList,
    outs := [o.out], stats := o.stats, cl := o.cl, exts := [o.m, o.n], lim := fun x => matrixLimit (nth x 0) (nth x 1),
    size := fun x =>
      let sh := reduceShape o.axis (nth x 0) (nth x 1)
      [if nth x 0 = 0 || nth x 1 = 0 then 1 else tensorGranules o.fmt sh.1 sh.2],
    run := fun x es => reduceCalc flush own o (nth x 0) (nth x 1) es }

/-- The limits of `vx.sort`; a run-time k out of range is an overrun, not a limit (R151). -/
def planSort (flush : Bool) (o : VxSortOp) : VPlan :=
  { unit := o.unit, ok := true, pops := [o.inp], outs := [o.values, o.index], stats := o.stats, cl := o.cl,
    exts := [o.m, o.n, o.k], lim := fun x => nth x 0 ≤ 256 && nth x 1 ≤ 262144, size := fun _ => [1, 1],
    run := fun x es => sortCalc flush o (nth x 0) (nth x 1) (nth x 2) es }

/-- A C that is not a multiple of g is no defined parameter (R199). -/
def planDw (flush : Bool) (o : VxDwOp) : VPlan :=
  { unit := o.unit, ok := dwOk o, pops := [o.inp, o.w] ++ o.bias.toList ++ o.scales.toList, outs := [o.out], stats := o.stats,
    cl := o.cl, exts := [o.oh, o.ow, o.c], lim := fun x => tileLimit (nth x 0) (nth x 1) (nth x 2) && nth x 2 % o.g = 0,
    size := fun x => [tensorGranules o.fmt (nth x 0 * nth x 1) (nth x 2)],
    run := fun x es => dwCalc flush o (nth x 0) (nth x 1) (nth x 2) es }

def planPool (flush : Bool) (o : VxPoolOp) : VPlan :=
  { unit := o.unit, ok := poolOk o, pops := [o.inp] ++ o.scales.toList, outs := [o.out], stats := o.stats, cl := o.cl,
    exts := [o.oh, o.ow, o.c], lim := fun x => tileLimit (nth x 0) (nth x 1) (nth x 2),
    size := fun x => [tensorGranules o.fmt (nth x 0 * nth x 1) (nth x 2)],
    run := fun x es => poolCalc flush o (nth x 0) (nth x 1) (nth x 2) es }

def planBoxdec (flush : Bool) (o : VxBoxdecOp) : VPlan :=
  { unit := o.unit, ok := boxdecOk o, pops := [o.inp, o.params], outs := [o.out], stats := o.stats, cl := o.cl,
    exts := [o.a, o.c], lim := fun x => nth x 0 ≤ 262144 && nth x 1 ≤ 1024, size := fun _ => [1],
    run := fun x es => boxdecCalc flush o (nth x 0) (nth x 1) es }

def planNms (o : VxNmsOp) : VPlan :=
  { unit := o.unit, ok := nmsOk o, pops := List.replicate o.e o.inp, outs := [o.out], stats := o.stats, cl := o.cl,
    exts := [o.k], lim := fun x => nth x 0 ≤ 1024, size := fun _ => [1], run := fun x es => nmsCalc o (nth x 0) es }

/-- The output entries with the record of an operation (R51), the record of an empty operation too (R53, R71). -/
def State.withRecord (s : State) (k n idx source : Nat) (fused : Bool) (outs : List (QName × Entry)) (stats : Option QName)
    (c : Counts) : List (QName × Entry) :=
  let x := s.suite k
  let rec_ := recordOf c idx k n source (b2n x.flush + (if fused then 2 else 0)) (((s.core n).issueCount idx + 1) % M32)
  outs ++ (match stats with
    | some q => [(q, rec_)]
    | none => [])

/-- An operation commits on core n: sticky bits and the issue count (R50, R51). -/
def State.commitOp (s : State) (n idx : Nat) (c : Counts) : State := s.setCore n (fun x => (x.note c).countIssue idx)

/-- Codes of a vector instruction's own operands. -/
def State.vectorCode (s : State) (k n : Nat) (v : VPlan) : Option Nat :=
  minCode ([codeUnless v.ok 0x01, codeUnless (v.exts.all extOk) 0x01, codeUnless (v.unit < 2) 0x02] ++ v.pops.map (s.popCode n) ++
    (v.outs ++ v.stats.toList).map (s.pushCode n) ++ [s.clauseCode k n v.cl])

/-- Statistics outputs take a granule each. -/
def statsDemand (q : Option QName) : List (QName × Nat) := q.toList.map (fun q => (q, 1))

/-- Try a vector instruction: it starts when its wait clause is met, each pop has its entry and each output has space (R19). -/
def State.tryVector (s : State) (k n : Nat) (i : Issued) (v : VPlan) : Attempt :=
  match s.vectorCode k n v with
  | some c => .skip c s
  | none =>
    match extVals i.sh v.exts, s.clauseWait i v.cl with
    | some x, some w =>
      if !v.lim x then .skip 0x01 s
      else
        let ids := v.pops.map QName.idx
        match w ++ s.missing n [] ids ++ s.spaceWaits k n [] (v.outs.zip (v.size x) ++ statsDemand v.stats) with
        | [] =>
          match s.popAll n ids with
          | .inr w => .wait [w]
          | .inl (es, t) =>
            match v.run x es with
            | none => .overrun t
            | some m =>
              let outs := s.withRecord k n i.idx 3 false (v.outs.zip m.outs) v.stats m.counts
              match s.spaceWaits k n [] (demandOf outs) with
              | [] => .go true (((t.sendAll n i.no outs).commitOp n i.idx m.counts).handshake k)
              | ws => .wait ws
        | ws => .wait ws
    | _, _ => .later

/-! ## Matrix instructions -/

/-- The `dr.chain` that binds a matrix instruction: the last one issued before it since the previous tile or bench (R82). -/
def boundChain (l : List Flow) (no : Nat) : Option (Issued × DrChainOp) :=
  l.foldl (fun b f => match f with
    | .work i =>
      if no ≤ i.no then b
      else match i.instr with
        | .drChain o => some (i, o)
        | .mxTile _ => none
        | .mxBench _ => none
        | _ => b
    | _ => b) none

/-- What follows a `dr.chain` in flow: a matrix instruction, another chain, or nothing yet. What stands behind an unresolved guard
may still be discarded and decides nothing (R162). -/
def chainFate : List Flow → Nat → Option Bool
  | [], _ => none
  | .guard _ :: _, _ => none
  | .work i :: t, no =>
    if i.no ≤ no then chainFate t no
    else match i.instr with
      | .drChain _ => some false
      | .mxTile _ => some true
      | .mxBench _ => some true
      | _ => chainFate t no
  | _ :: t, no => chainFate t no

/-- The chain of the suite's program. -/
def Suite.chain (x : Suite) (c : Nat) : Option (List Stage) :=
  match x.prog with
  | some p => p.chains[c]?
  | none => none

/-- The parameters of a core's slot (R99). -/
def Suite.slotParam (x : Suite) (n slot : Nat) : Option SlotParam :=
  match x.prog with
  | some p => p.slots.find? (fun q => q.core = n && q.slot = slot)
  | none => none

/-- Codes of a `dr.chain`'s own operands. A mode-1 chain whose slot has no parameters for this core is skipped with 0x01. DESIGN
CHOICE (log entry 136): R99 takes them from the program container and says nothing of a core without any. -/
def State.chainCode (s : State) (k n : Nat) (o : DrChainOp) : Option Nat :=
  let outs := [o.result] ++ o.scales.toList ++ o.maxima.toList ++ o.stats.toList
  let ok := match (s.suite k).chain o.chain with
    | some l => o.chain < 256 && drSuits o l && (match quantOf l with
      | some q => q.mode != 1 || ((s.suite k).slotParam n q.slot).isSome
      | none => false)
    | none => false
  minCode ([codeUnless ok 0x01] ++ (drPops o).map (s.popCode n) ++ outs.map (s.pushCode n) ++ [s.clauseCode k n o.cl])

/-- Try a `dr.chain` by itself: it runs with its matrix instruction, or is skipped (R82, R106). An illegal operand of its own goes
before 0x0b. DESIGN CHOICE (log entry 138): no rule ranks the codes of one instruction. -/
def State.tryChain (s : State) (k n : Nat) (i : Issued) (o : DrChainOp) : Attempt :=
  match s.chainCode k n o with
  | some c => .skip c s
  | none =>
    match chainFate (s.core n).seq.flow i.no with
    | some true => .later
    | some false => .skip 0x0b s
    | none => if (s.core n).seq.ended then .skip 0x0b s else .later

/-- The popped entries of a drain operation: stage operands, reset mask, merged maxima. -/
structure DrainIn where
  ops    : List Entry
  mask   : Option Entry
  merged : Option Entry

def drainIn (o : DrChainOp) (es : List Entry) : DrainIn :=
  let n := o.ops.length
  { ops := es.take n, mask := o.reset.bind (fun _ => es[n]?), merged := o.merged.bind (fun _ => es.getLast?) }

/-- The extents that a drain operation needs (R88, R92, R99). -/
def drainFits (l : List Stage) (q : QuantRec) (m n : Nat) (d : DrainIn) : Bool :=
  opsFit m n l d.ops && rotateFits n l && (q.mode != 1 || m ≤ 256) &&
    d.mask.all (fun e => e.kind = .fixed && e.cols = 32) && d.merged.all (fun e => e.isVector m)

/-- What a drain operation makes of the array's lanes. -/
def State.drain (s : State) (k n : Nat) (l : List Stage) (q : QuantRec) (m cols : Nat) (x : List Nat) (d : DrainIn) : Drained :=
  let flush := (s.suite k).flush
  let y := runStages flush m cols (l.dropLast) d.ops x Ev.none
  let slot := (s.core n).arr.slots.getD q.slot []
  let p := ((s.suite k).slotParam n q.slot).getD { core := n, slot := q.slot, k := 1, h := 0x3f8000, p0 := 0x3f8000 }
  quantise flush q m cols y.1 y.2 slot p d.mask d.merged

/-- The outputs of a drain operation in the order of R83. -/
def drainOuts (o : DrChainOp) (m : Nat) (r : Drained) : List (QName × Entry) :=
  [(o.result, r.result)] ++ o.scales.toList.map (fun q => (q, wideEntry 0xa 1 m r.scales)) ++
    o.maxima.toList.map (fun q => (q, wideEntry 0xa 1 m r.maxima))

/-- The outputs of an empty drain operation (R105). -/
def drainEmpty (o : DrChainOp) (fmt : Nat) : List (QName × Entry) :=
  [(o.result, emptyEntry .tensor fmt)] ++ (o.scales.toList ++ o.maxima.toList).map (fun q => (q, emptyEntry .tensor 0xa))

/-- The space that a drain operation of M rows and N columns needs at its outputs (R83). -/
def drainDemand (o : DrChainOp) (fmt m cols : Nat) : List (QName × Nat) :=
  [(o.result, tensorGranules fmt m cols)] ++ (o.scales.toList ++ o.maxima.toList).map (fun q => (q, tensorGranules 0xa 1 m)) ++
    statsDemand o.stats

/-- The output format of a chain of the suite's program. -/
def Suite.chainFmt (x : Suite) (c : Nat) : Nat :=
  match (x.chain c).bind quantOf with
  | some q => q.fmt
  | none => 0

/-- The unmet waits of a `dr.chain`'s own operands for a matrix instruction of M rows and N columns, which are both 0 when that
instruction is empty and the drain operation pops nothing (R83, R105). -/
def State.chainWaits (s : State) (k n : Nat) (i : Issued) (o : DrChainOp) (m cols : Nat) : List Nat :=
  (s.clauseWait i o.cl).getD [] ++ (if m = 0 then [] else s.missing n [] ((drPops o).map QName.idx)) ++
    s.spaceWaits k n [] (drainDemand o ((s.suite k).chainFmt o.chain) m cols)

/-- Finish a drain operation: its issue, its signal, its place in the flow. -/
def State.endChain (s : State) (n : Nat) (i : Issued) (o : DrChainOp) (c : Counts) : State :=
  ((s.commitOp n i.idx c).setSeq n (fun q => q.drop i.no)).pendSignal n i.no o.cl.signal

/-- An empty matrix instruction with its empty drain operation (R53, R71, R105). -/
def State.finishEmpty (s : State) (k n : Nat) (i : Issued) (stats : Option QName) (ci : Issued) (co : DrChainOp) : Attempt :=
  let fmt := (s.suite k).chainFmt co.chain
  let t := s.sendAll n ci.no (s.withRecord k n ci.idx 2 false (drainEmpty co fmt) co.stats Counts.zero)
  let u := t.sendAll n i.no (s.withRecord k n i.idx 1 false [] stats Counts.zero)
  .go true (((u.endChain n ci co Counts.zero).commitOp n i.idx Counts.zero).handshake k)

/-- The drain operation of a matrix instruction whose lanes are ready: pops, stages, pushes (R83 to R106). It started with space at
every output. `main` is what the last pass leaves in the main accumulators. -/
def State.finishMatrix (s : State) (k n : Nat) (i : Issued) (stats : Option QName) (fused : Bool) (ci : Issued) (co : DrChainOp)
    (m cols : Nat) (r : Lanes) (main : List (List Nat)) : Attempt :=
  match (s.suite k).chain co.chain, ((s.suite k).chain co.chain).bind quantOf with
  | some l, some q =>
    match s.popAll n ((drPops co).map QName.idx) with
    | .inr w => .wait [w]
    | .inl (es, t) =>
      let d := drainIn co es
      if !drainFits l q m cols d then .overrun t
      else
        let z := s.drain k n l q m cols r.data d
        let u := t.sendAll n ci.no (s.withRecord k n ci.idx 2 false (drainOuts co m z) co.stats z.counts)
        let v := (u.sendAll n i.no (s.withRecord k n i.idx 1 fused [] stats r.counts)).setCore n (fun c =>
          { c with overruns := (c.overruns + z.over_) % M48, reemits := (c.reemits + z.redone) % M48,
                   arr := { (c.arr.gap s.now) with slots := c.arr.slots.set q.slot z.slot, bench := none,
                                                   main := overlay c.arr.main main } })
        .go true (((v.endChain n ci co z.counts).commitOp n i.idx r.counts).handshake k)
  | _, _ => .later

/-- Matrix beats need a fully ramped array (R75); `dry` asks what would happen if it were. -/
def State.ramped (s : State) (n : Nat) (dry : Bool) (a : Attempt) : Attempt :=
  match a with
  | .go c t => if dry || 32 ≤ (s.core n).arr.rows then .go c t else .later
  | a => a

def mxFmt (f : Nat) : Bool := isMx f

/-- Codes of an `mx.seat`'s own operands. -/
def State.seatCode (s : State) (k n : Nat) (o : MxSeatOp) : Option Nat :=
  minCode ([codeUnless (mxFmt o.wfmt && extOk o.n && extOk o.nb) 0x01, s.popCode n o.w, s.clauseCode k n o.cl] ++
    o.stats.toList.map (s.pushCode n))

/-- Try an `mx.seat` (R64). -/
def State.trySeat (s : State) (k n : Nat) (i : Issued) (o : MxSeatOp) : Attempt :=
  match s.seatCode k n o with
  | some c => .skip c s
  | none =>
    match extVal i.sh o.n, extVal i.sh o.nb, s.clauseWait i o.cl with
    | some c, some nb, some w =>
      if 32 < c || 128 < nb then .skip 0x01 s
      else match w ++ s.missing n [] [o.w.idx] ++ s.spaceWaits k n [] (statsDemand o.stats) with
        | [] =>
          match s.pop n o.w.idx with
          | none => .later
          | some (e, t) =>
            let none_ := c = 0 || nb = 0
            if (if none_ then !e.isEmpty else !e.isBlocks o.wfmt c nb) then .overrun t
            else
              let bank := if none_ then none else some (seatBank e o.wfmt c nb)
              let u := t.sendAll n i.no (s.withRecord k n i.idx 1 false [] o.stats Counts.zero)
              .go true (((u.setCore n (fun x => { x with arr :=
                if o.bankB then { x.arr with bankB := bank } else { x.arr with bankA := bank } })).commitOp n i.idx Counts.zero).handshake k)
        | ws => .wait ws
    | _, _, _ => .later

/-- Codes of an `mx.tile`'s own operands. -/
def State.tileCode (s : State) (k n : Nat) (i : Issued) (o : MxTileOp) : Option Nat :=
  minCode ([codeUnless (mxFmt o.afmt && extOk o.m && extOk o.n && extOk o.nb) 0x01, codeUnless (!o.fused || (s.suite k).fusedEn) 0x06,
    codeUnless (boundChain (s.core n).seq.flow i.no).isSome 0x0b, s.popCode n o.act, s.clauseCode k n o.cl] ++
      o.stats.toList.map (s.pushCode n))

/-- Try an `mx.tile` with its drain operation (R65, R66, R83). Mode bit 1 of an empty one's record is 0, for no fused alignment is
used. DESIGN CHOICE (log entry 132). -/
def State.tryTile (s : State) (k n : Nat) (i : Issued) (o : MxTileOp) (dry : Bool) : Attempt :=
  match s.tileCode k n i o, boundChain (s.core n).seq.flow i.no with
  | some c, _ => .skip c s
  | none, none => .skip 0x0b s
  | none, some (ci, co) =>
    match extVals i.sh [o.m, o.n, o.nb], s.clauseWait i o.cl, s.clauseWait ci co.cl with
    | some [m, c, nb], some w, some _ =>
      let bank := if o.bankB then (s.core n).arr.bankB else (s.core n).arr.bankA
      let empty := m = 0 || c = 0 || nb = 0
      if 65536 < m || 32 < c || 128 < nb then .skip 0x01 s
      else if !empty && bank.isNone then .skip 0x07 s
      else match w ++ s.missing n [] [o.act.idx] ++ s.spaceWaits k n [] (statsDemand o.stats) ++
          s.chainWaits k n ci co (if empty then 0 else m) (if empty then 0 else c) with
        | [] =>
          match s.pop n o.act.idx with
          | none => .later
          | some (e, t) =>
            if empty then (if !e.isEmpty then .overrun t else t.finishEmpty k n i o.stats ci co)
            else match bank with
              | none => .skip 0x07 s
              | some b =>
                let out := tileOut (s.suite k).flush o.fused o.afmt e b m c nb
                if b.n < c || b.nb < nb then .overrun s
                else if !e.isBlocks o.afmt m nb then .overrun t
                else s.ramped n dry (t.finishMatrix k n i o.stats o.fused ci co m c out (lastPass o.fused m c out.data))
        | ws => .wait ws
    | _, _, _ => .later

/-- Pop the weight entries of an `mx.bench` that are there, up to its S steps; the K step's extent is checked (R146). Each entry's
granules are free as it is popped. DESIGN CHOICE (log entry 139): R114 frees them "at the moment the popping instruction commits",
and an instruction that pops more than its queue end holds could not wait for that. -/
def State.popSteps (s : State) (n : Nat) (o : MxBenchOp) (flush : Bool) (m c nb : Nat) (b : BenchRun) : Nat → State × BenchRun × Bool
  | 0 => (s, b, true)
  | fuel + 1 =>
    match s.pop n o.w.idx with
    | none => (s, b, true)
    | some (e, t) =>
      if e.isBlocks o.wfmt c (benchBlocks o.wfmt nb b.step o.fused) then
        t.popSteps n o flush m c nb (b.advance flush o.fused o.afmt o.wfmt m c nb e) fuel
      else (t, b, false)

/-- Codes of an `mx.bench`'s own operands. -/
def State.benchCode (s : State) (k n : Nat) (i : Issued) (o : MxBenchOp) : Option Nat :=
  minCode ([codeUnless (mxFmt o.afmt && mxFmt o.wfmt && extOk o.m && extOk o.n && extOk o.nb) 0x01,
    codeUnless (!o.fused || (s.suite k).fusedEn) 0x06, codeUnless (boundChain (s.core n).seq.flow i.no).isSome 0x0b, s.popCode n o.act,
    s.popCode n o.w, s.clauseCode k n o.cl] ++ o.stats.toList.map (s.pushCode n))

/-- An `mx.bench` that has started: it goes on with the K steps whose weights are there, and ends after the last (R68). -/
def State.stepBench (s : State) (k n : Nat) (i : Issued) (o : MxBenchOp) (ci : Issued) (co : DrChainOp) (m c nb : Nat) (b : BenchRun)
    (dry : Bool) : Attempt :=
  let steps := benchSteps o.wfmt nb o.fused
  match s.popSteps n o (s.suite k).flush m c nb b (steps - b.step) with
  | (t, _, false) => .overrun t
  | (t, b2, true) =>
    if steps ≤ b2.step then
      s.ramped n dry (t.finishMatrix k n i o.stats o.fused ci co m c (lanesOf b2.acc) [])
    else if b2.step = b.step then .wait [queueWaitWord 1 n o.w.idx]
    else s.ramped n dry (.go false ((t.setCore n (fun y =>
      { y with arr := { (y.arr.gap s.now) with bench := some b2 } })).handshake k))

/-- Try an `mx.bench` with its drain operation (R68, R70, R83): it starts by popping its activations; its beats need a ramped array. -/
def State.tryBench (s : State) (k n : Nat) (i : Issued) (o : MxBenchOp) (dry : Bool) : Attempt :=
  match s.benchCode k n i o, boundChain (s.core n).seq.flow i.no with
  | some c, _ => .skip c s
  | none, none => .skip 0x0b s
  | none, some (ci, co) =>
    match extVals i.sh [o.m, o.n, o.nb], s.clauseWait i o.cl, s.clauseWait ci co.cl with
    | some [m, c, nb], some w, some _ =>
      let empty := m = 0 || c = 0 || nb = 0
      if 256 < m || 1024 < c || 4096 < nb || (o.fused && 32 < c) then .skip 0x01 s
      else match (s.core n).arr.bench with
        | some b => s.stepBench k n i o ci co m c nb b dry
        | none =>
          match w ++ s.missing n [] [o.act.idx] ++ s.spaceWaits k n [] (statsDemand o.stats) ++
              s.chainWaits k n ci co (if empty then 0 else m) (if empty then 0 else c) with
          | [] =>
            match s.pop n o.act.idx with
            | none => .later
            | some (e, t) =>
              if empty then (if !e.isEmpty then .overrun t else t.finishEmpty k n i o.stats ci co)
              else if !e.isBlocks o.afmt m nb then .overrun t
              else .go false ((t.setCore n (fun y => { y with arr := { y.arr with
                bench := some { i := i, act := e, step := 0, bank0 := none, bank1 := none, acc := [] } } })).handshake k)
          | ws => .wait ws
    | _, _, _ => .later

/-! ## Sequencer instructions in flow -/

/-- Word w of an entry for `ctl.shape` source 2 (R145): index entries and the four wide formats. -/
def shapeWord (e : Entry) (w : Nat) : Option Nat :=
  if (e.kind = .index || (e.kind = .tensor && (fmtOf e.fmt).isSome && !isMx e.fmt)) && w < e.rows * e.cols then e.data[w]? else none

/-- An extent for source 1 (R113). -/
def shapeExtent (e : Entry) (x : Nat) : Nat :=
  match x with
  | 0 => e.rows
  | 1 => e.cols
  | 2 => if e.kind = .tensor && isMx e.fmt then blocksOf e.cols else 0
  | _ => e.rows * e.cols

/-- r = floor((v × a + d − 1) / d) + c (R145). -/
def shapeResult (o : CtlShapeOp) (v : Nat) : Int := (((v * o.a + o.d - 1) / o.d : Nat) : Int) + o.c

/-- The planned maximum of a shape register in the present kernel (R144). -/
def Suite.shMax (x : Suite) (r : Nat) : Nat :=
  match x.prog, x.disp with
  | some p, some d => (p.maxima.getD d.kernel []).getD r 0
  | _, _ => 0

def shapeOk (o : CtlShapeOp) : Bool :=
  o.sh < 16 && 1 ≤ o.a && o.a ≤ 65535 && 1 ≤ o.d && o.d ≤ 65535 && decide (-32768 ≤ o.c) && decide (o.c ≤ 32767) &&
    match o.src with
    | .word w => w < 16
    | .extent _ e => e ≤ 3
    | .popped _ w => w ≤ 127
    | .reg r => r < 16

/-- Put a value where an outstanding `ctl.shape` was to put it. -/
def fillSh (no v : Nat) (l : List ShVal) : List ShVal := l.map (fun x => if x = .pending no then .known v else x)

/-- A shape register's value becomes known to everything issued after its `ctl.shape`. -/
def Seq.fill (q : Seq) (no v : Nat) : Seq :=
  { q with sh := fillSh no v q.sh,
           flow := q.flow.map (fun f => match f with
             | .work i => .work { i with sh := fillSh no v i.sh }
             | .guard g => .guard { g with reg := if g.reg = .pending no then .known v else g.reg, sh := fillSh no v g.sh }
             | .endRegion g => .endRegion g
             | .squashed c => .squashed c) }

/-- The value that a `ctl.shape` produced is written, or overruns. -/
def State.writeShape (s t : State) (k n : Nat) (i : Issued) (o : CtlShapeOp) (v : Nat) : Attempt :=
  let r := shapeResult o v
  if r < 0 || ((s.suite k).shMax o.sh : Int) < r then .overrun t else .go true (t.setSeq n (fun q => q.fill i.no r.toNat))

/-- The value that an entry gives `ctl.shape`: an extent of it, or a word; none where the word overruns. -/
def shapeOf (o : CtlShapeOp) (e : Entry) : Option Nat :=
  match o.src with
  | .extent _ x => some (shapeExtent e x)
  | .popped _ w => shapeWord e w
  | _ => none

/-- The queue end at which a `ctl.shape` finds its entry. -/
def shapeQueue (o : CtlShapeOp) : Option QName :=
  match o.src with
  | .extent q _ => some q
  | .popped q _ => some q
  | _ => none

/-- Codes of a `ctl.shape`'s operands. -/
def State.shapeCode (s : State) (n : Nat) (o : CtlShapeOp) : Option Nat :=
  if !shapeOk o then some 0x01 else (shapeQueue o).bind (s.popCode n)

/-- Try a `ctl.shape` (R145). -/
def State.tryShape (s : State) (k n : Nat) (i : Issued) (o : CtlShapeOp) : Attempt :=
  match s.shapeCode n o with
  | some c => .skip c s
  | none => match o.src with
    | .word w => s.writeShape s k n i o ((s.suite k).words.getD w 0)
    | .reg r => match shVal i.sh r with
      | some v => s.writeShape s k n i o v
      | none => .later
    | .extent q x => match s.head? n q.idx with
      | some e => s.writeShape (s.handshake k) k n i o (shapeExtent e x)
      | none => .wait [queueWaitWord 1 n q.idx]
    | .popped q w => match s.pop n q.idx with
      | none => .wait [queueWaitWord 1 n q.idx]
      | some (e, t) => match shapeWord e w with
        | some v => s.writeShape (t.handshake k) k n i o v
        | none => .overrun t

/-- Codes of a `q.signal`. -/
def State.qSignalCode (s : State) (k : Nat) (o : QSignalOp) : Option Nat :=
  minCode [s.signalCode k o.flag, codeUnless (o.inc ≤ 65535) 0x01]

/-- Try a `q.signal` (R156): its addition waits for its turn under R123. -/
def State.trySignal (s : State) (k n : Nat) (i : Issued) (o : QSignalOp) : Attempt :=
  match s.qSignalCode k o with
  | some c => .skip c s
  | none => .go true (s.pendFlag n i.no o.flag o.inc)

end Sys2Proof.Machine
end

