-- ==== Sys2Proof/Machine/Sequencer.lean ====
section
/-! DEFINITION. The sequencer of a core (R19, R138, R139, R155 to R165, R235): issue, the order in which issued instructions run,
and one command for each instruction of the tile interface. An instruction after an unresolved guard stands in the sequencer's
staging and runs when the guard has committed. -/

namespace Sys2Proof.Machine

/-! ## Queue ends and units of an issued instruction -/

/-- The executing unit (R139): matrix 0, drain 1, vector 2 and 3, stream 4 to 7, sequencer 8; 9 for an engine that no core has. -/
def unitOf : TInstr → Nat
  | .mxSeat _ => 0
  | .mxTile _ => 0
  | .mxBench _ => 0
  | .drChain _ => 1
  | .vxMap o => if o.unit < 2 then 2 + o.unit else 9
  | .vxDw o => if o.unit < 2 then 2 + o.unit else 9
  | .vxPool o => if o.unit < 2 then 2 + o.unit else 9
  | .vxReduce o => if o.unit < 2 then 2 + o.unit else 9
  | .vxBoxdec o => if o.unit < 2 then 2 + o.unit else 9
  | .vxNms o => if o.unit < 2 then 2 + o.unit else 9
  | .vxSort o => if o.unit < 2 then 2 + o.unit else 9
  | .stWalk o => if o.unit < 4 then 4 + o.unit else 9
  | .stStore o => if o.unit < 4 then 4 + o.unit else 9
  | _ => 8

/-- The plan of a vector instruction. -/
def State.vplan (s : State) (k : Nat) : TInstr → Option VPlan
  | .vxMap o => some (planMap (s.suite k).flush o)
  | .vxDw o => some (planDw (s.suite k).flush o)
  | .vxPool o => some (planPool (s.suite k).flush o)
  | .vxReduce o => some (planReduce (s.suite k).flush s.fab.chip o)
  | .vxBoxdec o => some (planBoxdec (s.suite k).flush o)
  | .vxNms o => some (planNms o)
  | .vxSort o => some (planSort (s.suite k).flush o)
  | _ => none

/-- Queue ends that the entry guards of a walk name (R181). -/
def walkGuardQueues (d : Option WalkDesc) : List QName :=
  match d with
  | none => []
  | some d => d.guards.filterMap (fun g => match g with
    | .entry _ q => some q
    | _ => none)

/-- Pop operands. -/
def State.popsOf (s : State) (k : Nat) (i : TInstr) : List QName :=
  match i with
  | .mxSeat o => [o.w]
  | .mxTile o => [o.act]
  | .mxBench o => [o.act, o.w]
  | .drChain o => drPops o
  | .stWalk o => walkGuardQueues ((s.suite k).walkDesc o.walk)
  | .stStore o => o.inp :: walkGuardQueues ((s.suite k).walkDesc o.walk)
  | .ctlShape o => match o.src with
    | .popped q _ => [q]
    | .extent q _ => [q]
    | _ => []
  | i => match s.vplan k i with
    | some v => v.pops
    | none => []

/-- Push operands; a multicast group's receivers count as the source's (R130). -/
def State.pushesOf (s : State) (k : Nat) (i : TInstr) : List QName :=
  match i with
  | .mxSeat o => o.stats.toList
  | .mxTile o => o.stats.toList
  | .mxBench o => o.stats.toList
  | .drChain o => [o.result] ++ o.scales.toList ++ o.maxima.toList ++ o.stats.toList
  | .stWalk o => match o.dest with
    | .queue q => [q]
    | .group g => match s.group? k g with
      | some x => x.recvs.map recvName
      | none => []
  | i => match s.vplan k i with
    | some v => v.outs ++ v.stats.toList
    | none => []

/-- The clauses that an engine instruction carries (R141). -/
def clausesOf : TInstr → Clauses
  | .mxSeat o => o.cl
  | .mxTile o => o.cl
  | .mxBench o => o.cl
  | .drChain o => o.cl
  | .vxMap o => o.cl
  | .vxDw o => o.cl
  | .vxPool o => o.cl
  | .vxReduce o => o.cl
  | .vxBoxdec o => o.cl
  | .vxNms o => o.cl
  | .vxSort o => o.cl
  | .stWalk o => o.cl
  | .stStore o => o.cl
  | _ => { wait := none, signal := none }

/-! ## Running what has been issued -/

/-- An earlier instruction of the same unit, or one that pops or pushes a queue end that this one pops or pushes, stands before
it (R19, R115). So an `mx.seat` behind an `mx.bench` in progress waits for its end, as the matrix engine executes its
instructions in order. DESIGN CHOICE (log entry 133): R64 lets a seat proceed during `mx.tile` beats and says nothing of
`mx.bench`. -/
def State.conflicts (s : State) (k : Nat) (seen : List Issued) (i : Issued) : Bool :=
  let pops := s.popsOf k i.instr
  let outs := (s.pushesOf k i.instr).map s.localName
  seen.any (fun e => unitOf e.instr = unitOf i.instr ||
    (s.popsOf k e.instr).any (fun q => pops.any (fun p => p.idx = q.idx)) ||
    ((s.pushesOf k e.instr).map s.localName).any (fun q => outs.contains q))

/-- The `dr.chain` that a matrix instruction runs with. -/
def State.chainOf (s : State) (n : Nat) (i : Issued) : Option Issued :=
  match i.instr with
  | .mxTile _ => (boundChain (s.core n).seq.flow i.no).map Prod.fst
  | .mxBench _ => (boundChain (s.core n).seq.flow i.no).map Prod.fst
  | _ => none

/-- An instruction may not be tried yet. A matrix instruction also stands behind what its chain stands behind. -/
def State.blocked (s : State) (k n : Nat) (seen : List Issued) (i : Issued) : Bool :=
  match s.chainOf n i with
  | none => s.conflicts k seen i
  | some c => s.conflicts k (seen.filter (fun e => e.no != c.no)) i || s.conflicts k (seen.filter (fun e => e.no < c.no)) c

/-- Try an issued instruction. -/
def State.attempt (s : State) (k n : Nat) (dry : Bool) (i : Issued) : Attempt :=
  match i.instr with
  | .mxSeat o => s.trySeat k n i o
  | .mxTile o => s.tryTile k n i o dry
  | .mxBench o => s.tryBench k n i o dry
  | .drChain o => s.tryChain k n i o
  | .stWalk o => s.tryWalk k n i o
  | .stStore o => s.tryStore k n i o
  | .ctlShape o => s.tryShape k n i o
  | .qSignal o => s.trySignal k n i o
  | t => match s.vplan k t with
    | some v => s.tryVector k n i v
    | none => .later

/-- What a skipped engine instruction leaves behind: no walk, no bench in progress, and no chain (R106). -/
def State.clearSkipped (s : State) (n : Nat) (i : Issued) (chain : Option Issued) : State :=
  let mine := fun (u : Nat) => ((s.core n).walks.getD u none).any (fun r => r.i.no = i.no)
  let t := match i.instr with
    | .stWalk o => if mine o.unit then s.setWalk n o.unit none else s
    | .stStore o => if mine o.unit then s.setWalk n o.unit none else s
    | .mxBench _ => s.setCore n (fun c =>
        if c.arr.bench.any (fun b => b.i.no = i.no) then { c with arr := { c.arr with bench := none } } else c)
    | _ => s
  match chain with
  | some c => t.setSeq n (fun q => q.drop c.no)
  | none => t

/-- A skip by the executing unit: engines under R234, the sequencer under R235. -/
def State.skipped (s t : State) (k n : Nat) (i : Issued) (code : Nat) : State :=
  if unitOf i.instr = 8 then t.skipSequencer k n i.idx code
  else (t.clearSkipped n i (s.chainOf n i)).skipEngine k n i.no i.idx code

/-- The program has ended on a core: its last `ctl.halt` has run and no matrix instruction is left (R75). -/
def Seq.programOver (q : Seq) : Bool :=
  q.ended && q.fin && q.flow.all (fun f => match f with
    | .work i => unitOf i.instr != 0
    | _ => true)

/-- The ramp-down starts at once where the program has ended (R75). -/
def State.endArray (s : State) (n : Nat) : State :=
  s.setCore n (fun c => if c.seq.programOver then { c with arr := c.arr.windDown } else c)

/-- An instruction completes: it leaves the flow and its signal clause waits for its turn (R141). -/
def State.completed (s : State) (n : Nat) (i : Issued) : State :=
  let t := (s.setSeq n (fun q => q.drop i.no)).pendSignal n i.no (clausesOf i.instr).signal
  if unitOf i.instr = 0 then t.endArray n else t

/-- A wait clause is satisfied that was not so far (R121). -/
def State.clauseReady (s : State) (i : Issued) : Bool :=
  !i.met && match (clausesOf i.instr).wait with
    | some w => (targetVal i.sh w.target).any (flagMet (s.flagValue w.flag))
    | none => false

/-- An instruction's wait clause has been satisfied: a handshake, and the instruction waits for its flag no more (R121, R239). -/
def State.meetClause (s : State) (k n no : Nat) : State :=
  (s.setSeq n (fun q => { q with flow := q.flow.map (fun f => match f with
    | .work i => if i.no = no then .work { i with met := true } else .work i
    | f => f) })).handshake k

/-- Codes that an instruction's own operands give, whatever stands at its queue ends (R236). -/
def State.codeOf (s : State) (k n : Nat) (i : Issued) : Option Nat :=
  match i.instr with
  | .mxSeat o => s.seatCode k n o
  | .mxTile o => s.tileCode k n i o
  | .mxBench o => s.benchCode k n i o
  | .drChain o => minCode [s.chainCode k n o, codeUnless (chainFate (s.core n).seq.flow i.no != some false) 0x0b]
  | .stWalk o => s.walkCode k n o
  | .stStore o => s.storeCode k n o
  | .ctlShape o => s.shapeCode n o
  | .qSignal o => s.qSignalCode k o
  | t => (s.vplan k t).bind (s.vectorCode k n)

/-- Squashes that stood behind an unresolved guard are counted, and their mark leaves the flow (R162, R164). -/
def State.countSquash (s : State) (n c : Nat) : State :=
  s.setCore n (fun x => { x with squashes := (x.squashes + c) % M48, seq := { x.seq with flow := x.seq.flow.erase (.squashed c) } })

/-- The first instruction of a flow that makes progress, with the state after it. Behind a guard see `specFlow`. -/
def State.tryFlow (s : State) (k n : Nat) (seen : List Issued) : List Flow → Option State
  | [] => none
  | .guard _ :: _ => none
  | .endRegion _ :: t => s.tryFlow k n seen t
  | .squashed c :: _ => some (s.countSquash n c)
  | .work i :: t =>
    if s.blocked k n seen i then s.tryFlow k n (seen ++ [i]) t
    else if s.clauseReady i && (s.codeOf k n i).isNone then some (s.meetClause k n i.no)
    else match s.attempt k n false i with
      | .go true u => some (u.completed n i)
      | .go false u => some u
      | .skip code u => some (s.skipped u k n i code)
      | .overrun u => some (u.haltAt k 1 n i.idx)
      | .wait _ => s.tryFlow k n (seen ++ [i]) t
      | .later => s.tryFlow k n (seen ++ [i]) t

/-! ## Speculation (R161 to R165) -/

/-- The value that a speculative `ctl.shape` produces, its entry taken into staging behind those that earlier ones took there: none
while it waits, `some none` where it overruns (R145, R161, R165). -/
def State.specValue (s : State) (k n : Nat) (taken : List Nat) (i : Issued) (o : CtlShapeOp) : Option (Option Nat) :=
  let bound := fun (v : Nat) =>
    let r := shapeResult o v
    if r < 0 || ((s.suite k).shMax o.sh : Int) < r then none else some r.toNat
  if (s.shapeCode n o).isSome then none
  else match o.src with
    | .word w => some (bound ((s.suite k).words.getD w 0))
    | .reg r => (shVal i.sh r).map bound
    | _ =>
      match shapeQueue o with
      | some q =>
        ((aGet (s.core n).queues q.idx).bind (fun x => x.entries[(taken.filter (· = q.idx)).length]?)).map (fun e =>
          (shapeOf o e).bind bound)
      | none => none

/-- The queue ends from which a speculative `ctl.shape` takes an entry into staging. -/
def shapePops (o : CtlShapeOp) : List Nat :=
  match o.src with
  | .popped q _ => [q.idx]
  | _ => []

/-- Does anything still wait for the value of a `ctl.shape`? -/
def Seq.awaits (q : Seq) (no : Nat) : Bool :=
  q.sh.contains (.pending no) || q.flow.any (fun f => match f with
    | .work i => i.sh.contains (.pending no)
    | .guard g => g.reg = .pending no || g.sh.contains (.pending no)
    | _ => false)

/-- The first speculative `ctl.shape` of a flow that produces a value for which something waits, or that overruns. `spec`: a guard
stands before; `taken`: what earlier ones have in staging. -/
def State.specShape (s : State) (k n : Nat) : Bool → List Issued → List Nat → List Flow → Option (Issued × Option Nat)
  | _, _, _, [] => none
  | _, seen, taken, .guard _ :: t => s.specShape k n true seen taken t
  | spec, seen, taken, .work i :: t =>
    match i.instr with
    | .ctlShape o =>
      if !spec || s.blocked k n seen i then s.specShape k n spec (seen ++ [i]) taken t
      else match s.specValue k n taken i o with
        | none => s.specShape k n spec (seen ++ [i]) taken t
        | some none => some (i, none)
        | some (some v) =>
          if (s.core n).seq.awaits i.no then some (i, some v) else s.specShape k n spec seen (taken ++ shapePops o) t
    | _ => s.specShape k n spec (seen ++ [i]) taken t
  | spec, seen, taken, _ :: t => s.specShape k n spec seen taken t

/-- The first `st.walk` behind an unresolved guard that starts or fetches ahead, with the state after it (R162, R186). -/
def State.specFlow (s : State) (k n : Nat) : Bool → List Issued → List Flow → Option State
  | _, _, [] => none
  | _, seen, .guard _ :: t => s.specFlow k n true seen t
  | spec, seen, .work i :: t =>
    match i.instr with
    | .stWalk o =>
      match (if spec && !s.blocked k n seen i then s.specWalk k n i o else none) with
      | some u => some u
      | none => s.specFlow k n spec (seen ++ [i]) t
    | _ => s.specFlow k n spec (seen ++ [i]) t
  | spec, seen, _ :: t => s.specFlow k n spec seen t

/-- Speculative progress of core n: a `ctl.shape` produces its value, or a walk goes on. -/
def State.speculate (s : State) (k n : Nat) : Option State :=
  match s.specShape k n false [] [] (s.core n).seq.flow with
  | some (i, some v) => some (s.setSeq n (fun q => q.fill i.no v))
  | _ => s.specFlow k n false [] (s.core n).seq.flow

/-- A speculative `ctl.shape` whose result would overrun stops issue until its guard resolves (R165). -/
def State.specOverruns (s : State) (k n : Nat) : Bool :=
  match s.specShape k n false [] [] (s.core n).seq.flow with
  | some (_, none) => true
  | _ => false

/-- The sequencer's position after an instruction, at the ends of loop bodies (R158). -/
def loopEnd (pc : Nat) : List LoopFrame → Nat × List LoopFrame
  | [] => (pc, [])
  | f :: t =>
    if pc = f.start + f.len then
      if f.iter + 1 < f.count then (f.start, { f with iter := f.iter + 1 } :: t) else loopEnd pc t
    else (pc, f :: t)

/-- Move issue to a stream position. -/
def Seq.goto (q : Seq) (pc : Nat) : Seq :=
  let r := loopEnd pc q.frames
  { q with pc := r.1, frames := r.2 }

/-- A wait at which issue holds is satisfied, and the sequencer moves past it. Under an unresolved guard it is no handshake (R165). -/
def State.tryHold (s : State) (k n : Nat) : Option State :=
  match (s.core n).seq.hold with
  | some (_, _, f, v) =>
    if flagMet (s.flagValue f) v then
      let t := s.setSeq n (fun q => { (q.goto (q.pc + 1)) with hold := none })
      some (if (s.core n).seq.guards = 0 then t.handshake k else t)
    else none
  | none => none

/-- One piece of work of core n, if it can make any. -/
def State.work (s : State) (k n : Nat) : Option State :=
  if (s.suite k).st != 4 then none
  else match s.tryHold k n with
    | some t => some t
    | none => match s.tryFlow k n [] (s.core n).seq.flow with
      | some t => some t
      | none => s.speculate k n

/-- Work of core n until nothing makes progress, at most `fuel` pieces. -/
def State.settleFor (s : State) (k n : Nat) : Nat → State
  | 0 => s
  | fuel + 1 => match s.work k n with
    | some t => t.settleFor k n fuel
    | none => s

/-- Core n runs what it can of what has been issued. -/
def State.settle (s : State) (k n : Nat) : State := s.settleFor k n ((s.core n).seq.flow.length + 16)

/-! ## Issue (R19, R155 to R160) -/

/-- Pass over a squashed region: the position after its `ctl.commit`, or how deep the stream's end still stands in it (R164). -/
def skipScan : List (Nat × TInstr) → Nat → Nat → Nat × Option Nat
  | [], pc, d => (pc, some d)
  | (_, .ctlGuard _) :: t, pc, d => skipScan t (pc + 1) (d + 1)
  | (_, .ctlCommit) :: t, pc, d => if d ≤ 1 then (pc + 1, none) else skipScan t (pc + 1) (d - 1)
  | _ :: t, pc, d => skipScan t (pc + 1) d

/-- Go on passing over a squashed region. -/
def Seq.passOver (q : Seq) : Seq :=
  match q.skipping with
  | none => q
  | some d =>
    let r := skipScan (q.code.drop q.pc) q.pc d
    match r.2 with
    | none => ({ q with skipping := none }).goto r.1
    | some e => { q with pc := r.1, skipping := some e }

/-- The oldest unresolved guard. -/
def Seq.firstGuard (q : Seq) : Option GuardMark :=
  q.flow.findSome? (fun f => match f with
    | .guard g => some g
    | _ => none)

/-- Sequencer instructions that have been issued and not executed. -/
def Seq.seqWork (q : Seq) : Bool :=
  q.flow.any (fun f => match f with
    | .work i => unitOf i.instr = 8
    | _ => false)

/-- Instructions go on beyond an unresolved guard by at most 1,024 (R165). -/
def Seq.mayIssue (q : Seq) : Bool :=
  match q.firstGuard with
  | some g => q.nextNo ≤ g.no + 1024
  | none => true

/-- The instruction at the sequencer's position enters the flow with its captured values. -/
def Seq.enter (q : Seq) (idx : Nat) (i : TInstr) : Seq :=
  { (q.goto (q.pc + 1)) with
    nextNo := q.nextNo + 1,
    flow := q.flow ++ [.work { no := q.nextNo, idx := idx, instr := i, sh := q.sh, lp := q.frames.map LoopFrame.iter,
                               met := false }] }

/-- Issue of a `ctl.shape`: later instructions see its register as outstanding. -/
def Seq.enterShape (q : Seq) (idx : Nat) (o : CtlShapeOp) : Seq :=
  let t := q.enter idx (.ctlShape o)
  { t with sh := t.sh.set o.sh (.pending q.nextNo) }

/-- A `ctl.loop` of a known count. -/
def Seq.enterLoop (q : Seq) (o : CtlLoopOp) (count : Nat) : Seq :=
  let t := { q with nextNo := q.nextNo + 1 }
  if count = 0 then t.goto (q.pc + 1 + o.body)
  else { t with pc := q.pc + 1, frames := { start := q.pc + 1, len := o.body, count := count, iter := 0 } :: q.frames }

/-- A `ctl.guard`. -/
def Seq.enterGuard (q : Seq) (idx : Nat) (o : CtlGuardOp) : Seq :=
  let g : GuardMark := { no := q.nextNo, idx := idx, reg := q.sh.getD o.sh (.known 0), cmp := o.cmp, imm := o.imm % M32,
                         pc := q.pc, frames := q.frames, sh := q.sh, opens := q.opens }
  { (q.goto (q.pc + 1)) with nextNo := q.nextNo + 1, opens := q.nextNo :: q.opens, flow := q.flow ++ [.guard g] }

/-- A `ctl.commit` ends the innermost open region (R159). -/
def Seq.enterCommit (q : Seq) : Seq :=
  let t := { (q.goto (q.pc + 1)) with nextNo := q.nextNo + 1 }
  match q.opens with
  | [] => t
  | g :: r =>
    let open_ := q.flow.any (fun f => match f with
      | .guard m => m.no = g
      | _ => false)
    { t with opens := r, flow := if open_ then q.flow ++ [.endRegion g] else q.flow }

/-- The sequencer stops at an illegal instruction once nothing before it is speculative or of its own (R235, R237). -/
def State.illegal (s : State) (k n idx code : Nat) : State :=
  let q := (s.core n).seq
  if q.seqWork || q.guards != 0 then s else s.skipSequencer k n idx code

/-- Issue of a `q.wait` (R155). -/
def State.issueWait (s : State) (k n idx : Nat) (o : QWaitOp) : State :=
  let q := (s.core n).seq
  match minCode [s.waitCode k n o.flag, codeUnless (targetOk o.target) 0x01] with
  | some c => s.illegal k n idx c
  | none =>
    if q.seqWork then s
    else match targetVal q.sh o.target with
      | some v => s.setSeq n (fun q => { q with nextNo := q.nextNo + 1, hold := some (q.nextNo, idx, o.flag, v) })
      | none => s

/-- The flag of a barrier is a shelf flag that the suite holds. -/
def isShelfFlag : FlagName → Bool
  | .core _ _ => false
  | .shelf _ _ => true

/-- Issue of a `q.barrier` (R157, R159). -/
def State.issueBarrier (s : State) (k n idx : Nat) (o : QBarrierOp) : State :=
  let q := (s.core n).seq
  match minCode [codeUnless (isShelfFlag o.flag && 2 ≤ o.p && o.p ≤ 32 && q.opens.isEmpty) 0x01, s.waitCode k n o.flag] with
  | some c => s.illegal k n idx c
  | none =>
    if q.seqWork || q.guards != 0 then s
    else
      let m := (aGet q.barriers idx).getD 0 + 1
      (s.setSeq n (fun q =>
        { q with nextNo := q.nextNo + 1, barriers := aSet q.barriers idx m,
                 hold := some (q.nextNo, idx, o.flag, m * o.p % M32) })).pendFlag n q.nextNo o.flag 1

/-- Issue of a `ctl.halt` (R160). -/
def State.issueHalt (s : State) (k n idx : Nat) (fin : Bool) : State :=
  let q := (s.core n).seq
  if !q.opens.isEmpty then s.illegal k n idx 0x01
  else if q.seqWork || q.guards != 0 then s
  else
    ((s.setSeq n (fun q => { q with ended := true, fin := fin, nextNo := q.nextNo + 1, pc := q.pc + 1 })).endArray n).handshake k

/-- Issue of a `ctl.loop` (R158). One whose count register is outstanding holds issue until its `ctl.shape` has produced the value.
DESIGN CHOICE (log entry 129): R19 lists the holds of issue and this is none of them, yet what follows depends on the count. -/
def State.issueLoop (s : State) (k n idx : Nat) (o : CtlLoopOp) : State :=
  let q := (s.core n).seq
  if !(1 ≤ o.body && o.body ≤ 4096 && q.frames.length < 8 && extOk o.count) then s.illegal k n idx 0x01
  else match extVal q.sh o.count with
    | some c => s.setSeq n (fun q => q.enterLoop o (c % M32))
    | none => s

/-- Issue of a `ctl.guard` (R159, R165). -/
def State.issueGuard (s : State) (k n idx : Nat) (o : CtlGuardOp) : State :=
  let q := (s.core n).seq
  if !(o.sh < 16 && q.opens.length < 4) then s.illegal k n idx 0x01
  else if 4 ≤ q.guards then s
  else s.setSeq n (fun q => q.enterGuard idx o)

/-- Issue of one instruction. -/
def State.issueOne (s : State) (k n idx : Nat) : TInstr → State
  | .qWait o => s.issueWait k n idx o
  | .qBarrier o => s.issueBarrier k n idx o
  | .ctlHalt fin => s.issueHalt k n idx fin
  | .ctlLoop o => s.issueLoop k n idx o
  | .ctlGuard o => s.issueGuard k n idx o
  | .ctlCommit => s.setSeq n Seq.enterCommit
  | .ctlShape o => s.setSeq n (fun q => q.enterShape idx o)
  | i => s.setSeq n (fun q => q.enter idx i)

/-- The sequencer of core n issues at most one instruction (R19). -/
def State.issue (s : State) (k n : Nat) : State :=
  let q := (s.core n).seq
  if (s.suite k).st != 4 || !q.running || q.ended || q.hold.isSome then s
  else
    let t := s.setSeq n Seq.passOver
    let q := (t.core n).seq
    match q.code[q.pc]? with
    | some (idx, i) => if q.mayIssue && !t.specOverruns k n then t.issueOne k n idx i else t
    | none => t

/-- Core n's stream gets its next instruction (R138); the sequencer issues at most one, and the engines run what they can. Outside
a running kernel no stream is open. -/
def State.instruct (s : State) (n idx : Nat) (i : TInstr) : State :=
  match s.suiteOf n with
  | none => s
  | some k =>
    let q := (s.core n).seq
    if (s.suite k).st = 4 && q.running && !q.ended && q.code.length < 65536 && idx < 0x1000000 then
      ((s.setSeq n (fun q => { q with code := q.code ++ [(idx, i)] })).issue k n).settle k n
    else s

/-- One beat of core n: at most one issue. -/
def State.beatCore (s : State) (n : Nat) : State :=
  match s.suiteOf n with
  | some k => if (s.suite k).st = 4 then (s.issue k n).settle k n else s
  | none => s

/-- A beat of the cores of a cluster, in turn by requesting core: each round begins with the next core (R22). -/
def State.beatCluster (s : State) (x : Nat) : State :=
  let u := (s.cluster x).turn
  (((List.range 4).map (fun j => 4 * x + (u + j) % 4)).foldl State.beatCore s).setCluster x (fun c => { c with turn := (u + 1) % 4 })

/-- A beat of every core: what passes when no command waits. -/
def State.tick (s : State) : State := (List.range 8).foldl State.beatCluster s

/-! ## Commands -/

/-- MX_SEAT (R64). -/
def execMxSeat (n idx : Nat) (o : MxSeatOp) (s : State) : Res := onUnit (n < 32) s (s.instruct n idx (.mxSeat o))

/-- MX_TILE (R65, R66). -/
def execMxTile (n idx : Nat) (o : MxTileOp) (s : State) : Res := onUnit (n < 32) s (s.instruct n idx (.mxTile o))

/-- MX_BENCH (R67 to R70). -/
def execMxBench (n idx : Nat) (o : MxBenchOp) (s : State) : Res := onUnit (n < 32) s (s.instruct n idx (.mxBench o))

/-- DR_CHAIN (R82, R83). -/
def execDrChain (n idx : Nat) (o : DrChainOp) (s : State) : Res := onUnit (n < 32) s (s.instruct n idx (.drChain o))

/-- VX_MAP (R149). -/
def execVxMap (n idx : Nat) (o : VxMapOp) (s : State) : Res := onUnit (n < 32) s (s.instruct n idx (.vxMap o))

/-- VX_DW (R199, R200). -/
def execVxDw (n idx : Nat) (o : VxDwOp) (s : State) : Res := onUnit (n < 32) s (s.instruct n idx (.vxDw o))

/-- VX_POOL (R202). -/
def execVxPool (n idx : Nat) (o : VxPoolOp) (s : State) : Res := onUnit (n < 32) s (s.instruct n idx (.vxPool o))

/-- VX_REDUCE (R150). -/
def execVxReduce (n idx : Nat) (o : VxReduceOp) (s : State) : Res := onUnit (n < 32) s (s.instruct n idx (.vxReduce o))

/-- VX_BOXDEC (R204 to R209). -/
def execVxBoxdec (n idx : Nat) (o : VxBoxdecOp) (s : State) : Res := onUnit (n < 32) s (s.instruct n idx (.vxBoxdec o))

/-- VX_NMS (R211 to R213). -/
def execVxNms (n idx : Nat) (o : VxNmsOp) (s : State) : Res := onUnit (n < 32) s (s.instruct n idx (.vxNms o))

/-- VX_SORT (R151). -/
def execVxSort (n idx : Nat) (o : VxSortOp) (s : State) : Res := onUnit (n < 32) s (s.instruct n idx (.vxSort o))

/-- ST_WALK (R153). -/
def execStWalk (n idx : Nat) (o : StWalkOp) (s : State) : Res := onUnit (n < 32) s (s.instruct n idx (.stWalk o))

/-- ST_STORE (R154). -/
def execStStore (n idx : Nat) (o : StStoreOp) (s : State) : Res := onUnit (n < 32) s (s.instruct n idx (.stStore o))

/-- Q_WAIT (R155). -/
def execQWait (n idx : Nat) (o : QWaitOp) (s : State) : Res := onUnit (n < 32) s (s.instruct n idx (.qWait o))

/-- Q_SIGNAL (R156). -/
def execQSignal (n idx : Nat) (o : QSignalOp) (s : State) : Res := onUnit (n < 32) s (s.instruct n idx (.qSignal o))

/-- Q_BARRIER (R157). -/
def execQBarrier (n idx : Nat) (o : QBarrierOp) (s : State) : Res := onUnit (n < 32) s (s.instruct n idx (.qBarrier o))

/-- CTL_LOOP (R158). -/
def execCtlLoop (n idx : Nat) (o : CtlLoopOp) (s : State) : Res := onUnit (n < 32) s (s.instruct n idx (.ctlLoop o))

/-- CTL_GUARD (R159). -/
def execCtlGuard (n idx : Nat) (o : CtlGuardOp) (s : State) : Res := onUnit (n < 32) s (s.instruct n idx (.ctlGuard o))

/-- CTL_COMMIT (R159). -/
def execCtlCommit (n idx : Nat) (s : State) : Res := onUnit (n < 32) s (s.instruct n idx .ctlCommit)

/-- CTL_SHAPE (R145). -/
def execCtlShape (n idx : Nat) (o : CtlShapeOp) (s : State) : Res := onUnit (n < 32) s (s.instruct n idx (.ctlShape o))

/-- CTL_HALT (R160). -/
def execCtlHalt (n idx : Nat) (fin : Bool) (s : State) : Res := onUnit (n < 32) s (s.instruct n idx (.ctlHalt fin))

end Sys2Proof.Machine
end

