-- ==== Sys2Proof/Machine/Events.lean ====
section
/-! DEFINITION. Events of running cores: guards (R161 to R164), the stall watchdog (R238 to R240), satisfied waits, flag changes,
arrivals and credits (R114 to R123), multicast (R130 to R133), cushion beats and ramps (R74 to R78), and the end of a kernel
(R138). -/

namespace Sys2Proof.Machine

/-! ## Guards -/

/-- The comparison of a guard, unsigned (R159). -/
def guardHolds : Cmp → Nat → Nat → Bool
  | .eq, v, m => v = m
  | .ne, v, m => v != m
  | .lt, v, m => v < m
  | .ge, v, m => m ≤ v

/-- The flow before, at and after the unresolved guard at a place among the unresolved guards. -/
def splitGuard : List Flow → Nat → List Flow → Option (List Flow × GuardMark × List Flow)
  | [], _, _ => none
  | .guard m :: t, 0, seen => some (seen, m, t)
  | .guard m :: t, g + 1, seen => splitGuard t g (seen ++ [.guard m])
  | f :: t, g, seen => splitGuard t g (seen ++ [f])

/-- Unresolved guards of a flow in issue order. -/
def guardsIn (l : List Flow) : List GuardMark :=
  l.filterMap (fun f => match f with
    | .guard m => some m
    | _ => none)

/-- The region of a guard has ended within a flow. -/
def regionEnded (l : List Flow) (no : Nat) : Bool := l.any (fun f => f = .endRegion no)

/-- An enclosing guard is unresolved: an earlier one whose region has not ended. -/
def enclosed (before : List Flow) : Bool := (guardsIn before).any (fun m => !regionEnded before m.no)

/-- The suite in which core n runs a kernel. -/
def State.runningSuite (s : State) (n : Nat) : Option Nat := (s.suiteOf n).bind (fun k => if (s.suite k).st = 4 then some k else none)

/-- Core n in its running suite does something; outside one nothing happens. -/
def State.onRunning (s : State) (n : Nat) (f : Nat → State) : State :=
  match s.runningSuite n with
  | some k => f k
  | none => s

/-- The instructions of a flow before its first unresolved guard. -/
def freed : List Flow → List Issued
  | [] => []
  | .guard _ :: _ => []
  | .work i :: t => i :: freed t
  | _ :: t => freed t

/-- R237: the instructions that a commit has made committed are examined in issue order, and each illegal one is skipped at this
point. -/
def State.examine (s : State) (k n : Nat) : List Issued → State
  | [] => s
  | i :: t =>
    if (s.suite k).st != 4 || !((s.core n).seq.flow.contains (.work i)) then s.examine k n t
    else match s.codeOf k n i with
      | some c => (s.skipped s k n i c).examine k n t
      | none => s.examine k n t

/-- R161: a guard whose comparison holds and whose enclosing guards have committed commits. -/
def State.commitGuard (s : State) (n g : Nat) : State :=
  s.onRunning n (fun k =>
    match splitGuard (s.core n).seq.flow g [] with
    | some (before, m, after_) =>
      match m.reg with
      | .known v =>
        if guardHolds m.cmp v m.imm && !enclosed before then
          let t := s.setSeq n (fun q => { q with flow := before ++ after_.filter (fun f => f != .endRegion m.no) })
          ((if (guardsIn before).isEmpty then t.examine k n (freed after_) else t).settle k n)
        else s
      | .pending _ => s
    | none => s)

/-- Guards that the squash of the first of them discards: itself and those issued inside its region, with the squashes there that
have not been counted (R164). -/
def squashCount (no : Nat) (after_ : List Flow) : Nat :=
  1 + ((after_.takeWhile (fun f => f != .endRegion no)).map (fun f => match f with
    | .guard _ => 1
    | .squashed c => c
    | _ => 0)).sum

/-- An instruction's wait clause is met and its entries are there, past those that the instructions before it hold in staging. -/
def State.specReady (s : State) (n : Nat) (taken : List Nat) (i : Issued) (pops : List Nat) : Bool :=
  s.clauseWait i (clausesOf i.instr) = some [] && (s.missing n taken pops).isEmpty

/-- The seat banks that the discarded instructions of a matrix engine have written in staging, A as false (R79). The engine takes
them in order and stops at the first that still waits. -/
def State.specBanks (s : State) (n : Nat) (taken : List Nat) : List Flow → List Bool
  | [] => []
  | .work i :: t =>
    match i.instr with
    | .mxSeat o =>
      if s.specReady n taken i [o.w.idx] then o.bankB :: s.specBanks n (taken ++ [o.w.idx]) t else []
    | .mxTile o =>
      if s.specReady n taken i [o.act.idx] then s.specBanks n (taken ++ [o.act.idx]) t else []
    | .mxBench o =>
      let steps := match extVal i.sh o.nb with
        | some nb => benchSteps o.wfmt nb o.fused
        | none => 0
      let pops := o.act.idx :: List.replicate steps o.w.idx
      if s.specReady n taken i pops then s.specBanks n (taken ++ pops) t else []
    | _ => s.specBanks n taken t
  | _ :: t => s.specBanks n taken t

/-- Discarded `mx.seat`s have emptied the banks that they wrote in staging (R79). Behind a matrix instruction that is committed and
still waits, none has started. -/
def State.squashSeats (s : State) (n : Nat) (before after_ : List Flow) : State :=
  if before.any (fun f => match f with
      | .work i => unitOf i.instr = 0
      | _ => false) then s
  else (s.specBanks n [] after_).foldl (fun t b => t.setCore n (fun c =>
    { c with arr := if b then { c.arr with bankB := none } else { c.arr with bankA := none } })) s

/-- R161, R164: a guard whose comparison fails squashes. Work issued after it is discarded and issue resumes after its region, with
loops and shape registers as they stood. While an earlier guard is unresolved its squashes stay uncounted (R162). -/
def State.squashGuard (s : State) (n g : Nat) : State :=
  s.onRunning n (fun k =>
    match splitGuard (s.core n).seq.flow g [] with
    | some (before, m, after_) =>
      match m.reg with
      | .known v =>
        if !guardHolds m.cmp v m.imm then
          let t := (s.squashSeats n before after_).setCore n (fun c =>
            { c.dropSpec m.no with
              seq := { c.seq with flow := before ++ [.squashed (squashCount m.no after_)], pc := m.pc + 1, frames := m.frames, sh := m.sh,
                                  opens := m.opens, hold := none, skipping := some 1 } })
          (t.setSeq n Seq.passOver).settle k n
        else s
      | .pending _ => s
    | none => s)

/-! ## The stall watchdog -/

/-- The matrix instruction that a `dr.chain` in flow binds. -/
def State.matrixOf (s : State) (n : Nat) (c : Issued) : Option Issued :=
  (s.core n).seq.flow.findSome? (fun f => match f with
    | .work i => if (s.chainOf n i).any (fun d => d.no = c.no) then some i else none
    | _ => none)

/-- Rows and columns of a matrix instruction's results, both 0 for an empty one (R71). -/
def drainDims (i : Issued) : Nat × Nat :=
  match (match i.instr with
    | .mxTile o => extVals i.sh [o.m, o.n, o.nb]
    | .mxBench o => extVals i.sh [o.m, o.n, o.nb]
    | _ => none) with
  | some [m, n, nb] => if m = 0 || n = 0 || nb = 0 then (0, 0) else (m, n)
  | _ => (1, 1)

/-- The unmet waits of an issued instruction. A `dr.chain` waits for its own clause, entries and space, as far as the instruction
that it binds gives their extent (R83, R240). -/
def State.waitsOf (s : State) (k n : Nat) (i : Issued) : List Nat :=
  match s.attempt k n false i with
  | .wait l => l
  | .later => match i.instr with
    | .drChain o =>
      let d := ((s.matrixOf n i).map drainDims).getD (1, 1)
      s.chainWaits k n i o d.1 d.2
    | _ => []
  | _ => []

/-- The oldest instruction of a flow that has an unmet wait. -/
def State.oldestWait (s : State) (k n : Nat) : List Flow → Option (Issued × List Nat)
  | [] => none
  | .guard _ :: _ => none
  | .endRegion _ :: t => s.oldestWait k n t
  | .squashed _ :: t => s.oldestWait k n t
  | .work i :: t => match s.waitsOf k n i with
    | [] => s.oldestWait k n t
    | l => some (i, l)

/-- The chip of the first wait for credits among those recorded (R241). -/
def waitChip (l : List Nat) : Nat := ((l.find? (fun w => w % M32 / 0x20000000 = 3)).map (· / M32)).getD 0

/-- What a core records at a stall: instruction index, waits and chip (R240). -/
def State.stallRecord (s : State) (k n : Nat) : Nat × List Nat × Nat :=
  match s.oldestWait k n (s.core n).seq.flow with
  | some (i, l) => (i.idx, (l.take 4).map (· % M32), waitChip (l.take 4))
  | none => match (s.core n).seq.hold with
    | some (_, idx, f, v) => (idx, if flagMet (s.flagValue f) v then [] else [flagWaitWord f], 0)
    | none => (((s.core n).seq.oldest).getD 0, [], 0)

/-- The stall halt (R239, R240): every core records its oldest waiting instruction, and the lowest with an unmet wait is named. -/
def State.stallHalt (s : State) (k : Nat) : State :=
  let cs := coresOf (s.suite k).mask
  let recs := cs.map (fun n => (n, s.stallRecord k n))
  let recOf := fun n => ((aGet recs n).getD (0, [], 0))
  let n := (cs.find? (fun n => !(recOf n).2.1.isEmpty)).getD (cs.headD 0)
  let t := recs.foldl (fun (t : State) r => t.setCore r.1 (fun c =>
    { c with stallWait := (List.range 4).map (fun i => r.2.2.1.getD i 0), stallChip := r.2.2.2 })) s
  t.haltSuite k 2 n (recOf n).1 (fun m => (recOf m).1)

/-- A core has ended the kernel and everything issued before its `ctl.halt` has committed (R138). -/
def State.coreDone (s : State) (n : Nat) : Bool :=
  let c := s.core n
  c.seq.ended && c.seq.flow.isEmpty && c.seq.flags.isEmpty && c.fallbacks.isEmpty

/-- The kernel of a suite is complete on every core (R138). -/
def State.kernelOver (s : State) (k : Nat) : Bool := (coresOf (s.suite k).mask).all s.coreDone

/-- The stall limit has passed since the last handshake of a suite whose kernel is not complete (R238, R239). -/
def State.stallExpiry (s : State) (k : Nat) : State :=
  if (s.suite k).st = 4 && !s.kernelOver k && (s.suite k).stallFrom + (s.suite k).stall * 1000 ≤ s.now then s.stallHalt k else s

/-! ## Arrivals and credits -/

/-- Another producer's entry may be complete at the same queue end: its push is on its way, or its core is on another chip. -/
def State.rivalAt (s : State) (n qi src : Nat) : Bool :=
  s.flight.any (fun p => p.core = n && p.qi = qi && p.src != src) || s.remoteProducer n qi (fun _ => true)

/-- A push that reaches a queue end of a halted suite, or of none, is discarded, and no credit returns (R129). -/
def State.discardPush (s : State) (p : Push) : State :=
  State.logDiscard { s with flight := s.flight.erase p } (queueWord p.core p.qi p.src) s.fab.chip

/-- The earliest push of a producer to a queue end arrives and may be popped, between kernels too (R114, R115). On a merge queue with
another producer's entry complete at the same moment the order is a counted choice (R117). -/
def State.arrive (s : State) (n qi src : Nat) (rival : Bool) : State :=
  match s.flight.find? (fun p => p.core = n && p.qi = qi && p.src = src) with
  | none => s
  | some p =>
    match s.suiteOf n, aGet (s.core n).queues qi with
    | some k, some x =>
      if (s.suite k).st = 5 then s.discardPush p
      else
        let t : State := { s with flight := s.flight.erase p }
        let t := t.setQueue n qi (fun y => { y with entries := y.entries ++ [p.entry], used := y.used + p.gr })
        let t := if x.merge && rival && s.rivalAt n qi src then
            t.setSuite k (fun y => { y with tdc := (y.tdc + 1) % M48, merged := true }) else t
        t.onRunning n (fun k => t.settle k n)
    | _, _ => s.discardPush p

/-- Credits that pops have freed reach the producer (R116). -/
def State.returnCredit (s : State) (n qi src : Nat) : State :=
  match aGet (s.core n).queues qi with
  | some x =>
    match x.back.find? (fun c => c.core = src) with
    | some c =>
      let t := s.setQueue n qi (fun y =>
        { y with back := y.back.filter (fun d => d.core != src), credits := addCredit y.credits src c.n })
      match t.runningSuite src with
      | some k => t.settle k src
      | none => t
    | none => s
  | none => s

/-! ## The end of a kernel -/

/-- The kernel is complete on every core: the next kernel starts, or the entry or step is done (R138, R253). -/
def State.kernelEnd (s : State) (k : Nat) : State :=
  match (s.suite k).disp with
  | some d =>
    if (s.suite k).st = 4 && s.firmwareActs && s.kernelOver k then
      let d := { d with done := d.done + 1 }
      let t := s.setSuite k (fun x => { x with disp := some d })
      if d.kernel < d.last then t.startKernel k (d.kernel + 1) else t.entryDone k d
    else s
  | none => s

/-! ## Cushion beats and ramps -/

def State.setArr (s : State) (n : Nat) (f : Arr → Arr) : State := s.setCore n (fun c => { c with arr := f c.arr })

/-- A matrix instruction of core n would work on the array now, were it ramped up. -/
def State.matrixReady (s : State) (k n : Nat) : Bool :=
  let go := fun (i : Issued) (seen : List Issued) =>
    unitOf i.instr = 0 && !s.blocked k n seen i && match s.attempt k n true i with
      | .go _ _ => true
      | _ => false
  let step := fun (a : List Issued × Bool × Bool) (f : Flow) => match f with
    | .work i => (a.1 ++ [i], a.2.1, a.2.2 || (a.2.1 && go i a.1))
    | .guard _ => (a.1, false, a.2.2)
    | _ => a
  ((s.core n).seq.flow.foldl step ([], true, false)).2.2

/-- After the last beat-time of a ramp-up the work that waited for it starts; an array that finds none then has a gap (R74, R75). -/
def State.rampedUp (s : State) (k n : Nat) : State :=
  (s.settle k n).setArr n (fun a => if a.mode = 5 then a.gap s.now else a)

/-- One beat-time of a ramp-up (R75). -/
def State.rampUpCore (s : State) (n : Nat) : State :=
  s.onRunning n (fun k =>
    if (s.core n).arr.rows < 32 && s.matrixReady k n then
      let t := s.setArr n Arr.rampUp
      if 32 ≤ (t.core n).arr.rows then t.rampedUp k n else t
    else s)

/-- A completed check tile is compared, its suite running or not (R76, R77); a mismatch is a fault of the physical core. It stands in
`core.check_fault` during the reseat that it starts and until the next. DESIGN CHOICE (log entry 134): R78 says "since the last
reseat", and also that a reseat clears the core. -/
def State.compareTile (s : State) (n : Nat) (row : Option Nat) : State :=
  let a := (s.core n).arr
  if a.tileBeat != 32 then s
  else
    let t := s.setArr n (fun a => { a with tile := (a.tile + 1) % 64, tileBeat := 0, tilesDone := (a.tilesDone + 1) % M48 })
    match row with
    | none => t
    | some r =>
      let u := t.raiseFault 1 (((s.health.cores[n]?).join).getD n) 0
      u.setArr n (fun b => { b with faultTile := some (a.tile, r % 32) })

/-! ## Commands -/

/-- GUARD_COMMIT (R161). -/
def execGuardCommit (n g : Nat) (s : State) : Res := onUnit (n < 32) s (s.commitGuard n g)

/-- GUARD_SQUASH (R161, R164). -/
def execGuardSquash (n g : Nat) (s : State) : Res := onUnit (n < 32) s (s.squashGuard n g)

/-- STALL_WATCHDOG_EXPIRY (R239). -/
def execStallWatchdogExpiry (k : Nat) (s : State) : Res := onUnit (k < 32) s (s.stallExpiry k)

/-- WAIT_SATISFIED (R121, R124). -/
def execWaitSatisfied (n : Nat) (s : State) : Res := onUnit (n < 32) s (s.onRunning n (fun k => s.settle k n))

/-- FLAG_SIGNAL_EFFECT (R123). -/
def execFlagSignalEffect (n j : Nat) (s : State) : Res :=
  onUnit (n < 32) s ((s.signalEffect n j).onRunning n (fun k => (s.signalEffect n j).settle k n))

/-- ENTRY_ARRIVAL (R114, R115, R117). -/
def execEntryArrival (n qi src : Nat) (rival : Bool) (s : State) : Res := onUnit (n < 32 && src < 32) s (s.arrive n qi src rival)

/-- CREDIT_RETURN (R116). -/
def execCreditReturn (n qi src : Nat) (s : State) : Res := onUnit (n < 32 && src < 32) s (s.returnCredit n qi src)

/-- WALK_GUARD_SATISFIED (R181, R182). -/
def execWalkGuardSatisfied (n e : Nat) (s : State) : Res := onUnit (n < 32 && e < 4) s (s.onRunning n (fun k => s.settle k n))

/-- MCAST_LAG_EXPIRY (R132). -/
def execMcastLagExpiry (k g m : Nat) (s : State) : Res :=
  onUnit (k < 32 && m < 32) s (if (s.suite k).st = 4 then s.lagExpiry k g m else s)

/-- FALLBACK_FETCH (R133). -/
def execFallbackFetch (k g m : Nat) (s : State) : Res := onUnit (k < 32 && m < 32) s (s.fallbackStep k g m)

/-- CUSHION_BEAT (R74). -/
def execCushionBeat (n : Nat) (s : State) : Res :=
  onUnit (n < 32) s (s.setArr n (fun a => a.cushion s.now))

/-- RAMP_DOWN (R75). -/
def execRampDown (n : Nat) (s : State) : Res := onUnit (n < 32) s (s.setArr n (fun a => a.rampDown s.now))

/-- RAMP_UP (R75). -/
def execRampUp (n : Nat) (s : State) : Res := onUnit (n < 32) s (s.rampUpCore n)

/-- CHECK_TILE_COMPARE (R76, R77). -/
def execCheckTileCompare (n : Nat) (row : Option Nat) (s : State) : Res := onUnit (n < 32) s (s.compareTile n row)

/-- KERNEL_COMPLETE (R138, R253). -/
def execKernelComplete (k : Nat) (s : State) : Res := onUnit (k < 32) s (s.kernelEnd k)

end Sys2Proof.Machine
end

