-- ==== Sys2Proof/Machine/Lanes.lean ====
section
/-! DEFINITION. The four 112 Gb/s lanes (R344, R363, R410, R428): their modes, the Ethernet ports and direct groups that they
form, and their training. -/

namespace Sys2Proof.Machine

/-- Mode of pair p (0 A, 1 B) in a value of `fab.lane_mode`. -/
def pairMode (mode p : Nat) : Nat := bits mode (2 * p + 1) (2 * p)

/-- Both pairs are joined: the wide bit with both pairs in mode 2 or both in mode 3 (R344). -/
def joined (mode : Nat) : Bool := bit mode 4 && pairMode mode 0 = pairMode mode 1 && 2 ≤ pairMode mode 0

/-- The lanes of an Ethernet port, when the mode has that port (R344). -/
def portLanes (mode port : Nat) : Option (List Nat) :=
  let p := port / 2
  if 4 ≤ port then none
  else match pairMode mode p with
    | 1 => some [port]
    | 2 => if joined mode then (if port = 0 then some [0, 1, 2, 3] else none)
           else if port % 2 = 0 then some [port, port + 1] else none
    | _ => none

/-- The lanes of an Abapex direct group: path 0 pair A, 1 pair B, 2 all four (R344, R354). -/
def groupLanes (mode path : Nat) : Option (List Nat) :=
  match path with
  | 0 => if pairMode mode 0 = 3 && !joined mode then some [0, 1] else none
  | 1 => if pairMode mode 1 = 3 && !joined mode then some [2, 3] else none
  | 2 => if pairMode mode 0 = 3 && joined mode then some [0, 1, 2, 3] else none
  | _ => none

def State.lane (s : State) (n : Nat) : Lane := s.fab.lanes.getD n Lane.reset

def State.laneUp (s : State) (n : Nat) : Bool := (s.lane n).up

/-- An Ethernet port is up when each of its lanes is. -/
def State.portUp (s : State) (port : Nat) : Bool :=
  match portLanes s.fab.mode port with
  | some l => l.all s.laneUp
  | none => false

/-- Pairs that a packet queue or an Abapex peer uses (R344). -/
def State.pairUsed (s : State) (p : Nat) : Bool :=
  let lanes := [2 * p, 2 * p + 1]
  let hit := fun (l : Option (List Nat)) => match l with
    | some l => l.any lanes.contains
    | none => false
  s.fab.queues.any (fun e => hit (portLanes s.fab.mode e.2.port)) ||
    s.fab.peers.any (fun e => hit (if e.2.path = 3 then portLanes s.fab.mode e.2.port else groupLanes s.fab.mode e.2.path))

/-- A write of a new mode changes pair p: its mode, or whether it is joined to the other. -/
def changesPair (old new p : Nat) : Bool := pairMode old p != pairMode new p || joined old != joined new

def State.setLane (s : State) (n : Nat) (f : Lane → Lane) : State := s.setFab (fun x => { x with lanes := lMod x.lanes n f })

/-- LANE_MODE_WRITE (R344, R363): refused when it changes a used pair; lanes whose pair changes train again. Writing 1 to `refused`
clears it. -/
def State.writeLaneMode (s : State) (v : Nat) : State :=
  let new := v % 32
  let old := s.fab.mode
  let t := if bit v 31 then s.setFab (fun f => { f with refused := false }) else s
  if (List.range 2).any (fun p => changesPair old new p && s.pairUsed p) then t.setFab (fun f => { f with refused := true })
  else
    let u := t.setFab (fun f => { f with mode := new })
    (List.range 4).foldl (fun (u : State) n =>
      if changesPair old new (n / 2) then u.setLane n (fun l => { l with up := false, fails := 0, losses := [], depth := 0 }) else u) u

/-- LANE_FAR_END_CHECK (R410): at most 1,000 errors pass; after three failures the lane stays down and is logged. -/
def State.farEnd (s : State) (n errs : Nat) : State :=
  let l := s.lane n
  if pairMode s.fab.mode (n / 2) = 0 || !l.present || l.retired || l.up || 3 ≤ l.fails then s
  else if errs ≤ 1000 then s.setLane n (fun l => { l with up := true, fails := 0, depth := 6 })
  else
    let t := s.setLane n (fun l => { l with fails := l.fails + 1 })
    if l.fails + 1 = 3 then t.logE 0x0042 0 0xff 0xff 4 n errs 0 0 else t

/-- FEC_LOCK_LOSS (R428): the uncorrectable codewords that cost the lock are counted (R363); the third within 1 s takes the lane down and is logged; before that it trains again. -/
def State.fecLoss (s₀ : State) (n codewords : Nat) : State :=
  let l := s₀.lane n
  if !l.up then s₀
  else
    let s := s₀.setLane n (fun l => { l with uncorr := min (l.uncorr + codewords) 0xffff })
    let ls := ((l.losses ++ [s.now]).reverse.take 3).reverse
    let third : Bool := match ls with
      | [a, _, c] => decide (c ≤ a + 1000000000)
      | _ => false
    let t := s.setLane n (fun l => { l with up := false, depth := 0, losses := if third then [] else ls, fails := if third then 3 else 0 })
    if third then t.logE 0x0042 0 0xff 0xff 4 n 0 0 0 else t

/-! ## Commands -/

/-- LANE_MODE_WRITE (R344): effective only through function 0 (R363). -/
def execLaneModeWrite (f v : Nat) (s : State) : Res := onUnit (f < 17) s (if f = 0 then s.writeLaneMode (v % M32) else s)

/-- LANE_FAR_END_CHECK (R410). -/
def execLaneFarEndCheck (n errs : Nat) (s : State) : Res := onUnit (n < 4) s (s.farEnd n errs)

/-- FEC_LOCK_LOSS (R428). -/
def execFecLockLoss (x : FecLoss) (s : State) : Res := onUnit (x.lane < 4) s (s.fecLoss x.lane x.codewords)

end Sys2Proof.Machine
end

