-- ==== Sys2Proof/Machine/Abapex.lean ====
section
/-! DEFINITION. The Abapex link as it receives and keeps time (R127 to R129, R354 to R361): the chip number, peers, received
frames, acknowledgement, replay, loss and hello. -/

namespace Sys2Proof.Machine

/-! ## Chip number and peers (R354) -/

/-- Chip message: only while no suite and no peer exists; 0xf_ffff is reserved (R110; log entry 43). -/
def actChip (s : State) (r : Req) : State × Option (Nat × List Byte) :=
  let v := fld r.body 0 4
  if 0xfffff ≤ v || !s.fab.peers.isEmpty || (List.range 32).any (fun k => (s.suite k).st != 0) then (s, some (0x80, []))
  else (s.setFab (fun f => { f with chip := v }), some (0, []))

/-- The path's lanes are in Abapex mode, or its port is up (0x41). -/
def State.pathOk (s : State) (path port : Nat) : Bool :=
  if path = 3 then s.portUp port else (groupLanes s.fab.mode path).isSome || 3 < path

/-- The other fields in range (0x43). -/
def State.peerRange (s : State) (b : List Byte) : Bool :=
  byteAt b 1 ≤ 3 && 1 ≤ byteAt b 3 && byteAt b 3 ≤ 8 && fld b 4 4 < 0xfffff && fld b 4 4 != s.fab.chip && byteAt b 51 = 0 &&
    (byteAt b 1 != 3 ||
      (byteAt b 2 ≤ 3 && bits (fld b 46 2) 14 12 = 0 && byteAt b 50 ≤ 63 && 1048576 ≤ fld b 60 4 && fld b 60 4 ≤ 1073741824 &&
        fld b 60 4 % 4096 = 0 && 10 ≤ fld b 64 4 && fld b 64 4 ≤ 100000 && 10 ≤ fld b 68 4 && fld b 68 4 ≤ 60000))

/-- The peer that a message sets up: it waits for a hello; direct paths use 10 µs and 100 ms (R354, R358). -/
def peerOfBody (b : List Byte) (now : Nat) : Peer :=
  let udp := byteAt b 1 = 3
  { st := 1, path := byteAt b 1, port := byteAt b 2, grains := byteAt b 3, chip := fld b 4 4, dstIp := (b.drop 8).take 16,
    srcIp := (b.drop 24).take 16, mac := (b.drop 40).take 6, vlan := fld b 46 2, udp := fld b 48 2, dscp := byteAt b 50,
    bufAddr := fld b 52 8, bufLen := fld b 60 4, timeout := if udp then fld b 64 4 else 10, loss := if udp then fld b 68 4 else 100,
    major := 0, minor := 0, epoch := none, txSeq := 0, rxSeq := 0, sent := [], held := [], partials := [], credOut := [], acked := 0,
    ackedAt := now, sentAt := now, rxSince := 0, rxAt := now, nakAt := none, replays := 0 }

/-- Peer setup (R354): the first check of its table that fails gives the status. -/
def actPeerSetup (s : State) (r : Req) : State × Option (Nat × List Byte) :=
  let b := r.body
  if (s.peer? (byteAt b 0)).isSome || (s.peerOf (fld b 4 4)).isSome then (s, some (0x40, []))
  else if !s.pathOk (byteAt b 1) (byteAt b 2) then (s, some (0x41, []))
  else if byteAt b 1 = 3 && !s.inFn 0 (fld b 52 8) (fld b 60 4) then (s, some (0x42, []))
  else if !s.peerRange b then (s, some (0x43, []))
  else (s.setFab (fun f => { f with peers := aSet f.peers (byteAt b 0) (peerOfBody b s.now) }), some (0, []))

/-! ## Received frames (R355, R357) -/

/-- A frame's check holds and it goes from the peer's chip to this one. -/
def State.frameGood (s : State) (p : Peer) (b : List Byte) : Bool :=
  32 ≤ b.length && crc32c (putAt b 28 (zeros 4)) = fld b 28 4 && fld b 2 2 = b.length - 32 && fld b 4 4 = p.chip && fld b 8 4 = s.fab.chip

/-- A negative acknowledgement for the expected sequence, at most once per replay timeout. -/
def State.sendNak (s : State) (n : Nat) (p : Peer) : State :=
  match p.nakAt with
  | some t => if s.now < t + p.timeout * 1000 then s
              else (s.setPeer n (fun q => { q with nakAt := some s.now })).sendPlain n 4 []
  | none => (s.setPeer n (fun q => { q with nakAt := some s.now })).sendPlain n 4 []

/-- Frames before sequence `sn` are acknowledged and leave the replay buffer. -/
def State.applyAck (s : State) (n sn : Nat) : State :=
  match s.peer? n with
  | none => s
  | some p =>
    let rest := p.sent.filter (fun f => !serialLt f.sn sn)
    if rest.length = p.sent.length then s
    else s.setPeer n (fun q => { q with sent := rest, acked := sn, ackedAt := s.now, sentAt := s.now })

/-- An unreachable peer has answered: replay resumes from the first unacknowledged sequence (R358). -/
def State.revive (s : State) (n : Nat) : State :=
  match s.peer? n with
  | some p =>
    if p.st = 3 then
      let t := s.setPeer n (fun q => { q with st := 2, ackedAt := s.now })
      match p.sent with
      | f :: _ => t.resend n f.sn
      | [] => t
    else s
  | none => s

/-- A remote producer's entry is appended to a merge queue of suite k while another producer's may be complete there: whether one is,
timing decides, and then the append is a counted choice (R117, R274). -/
def State.remoteMerge (s : State) (k n qi chip src : Nat) : State :=
  let rival := s.flight.any (fun p => p.core = n && p.qi = qi) || s.remoteProducer n qi (fun p => p.chip != some chip || p.core != src)
  if rival then
    let d := s.draw
    if Config.mergeRival d.1 then d.2.setSuite k (fun y => { y with tdc := (y.tdc + 1) % M48, merged := true }) else d.2
  else s

/-- A whole entry of a remote producer arrives (R114, R117, R129). -/
def State.remoteArrive (s : State) (chip qword : Nat) (e : Entry) : State :=
  let n := bits qword 17 13
  let qi := bits qword 12 0
  match s.suiteOf n, aGet (s.core n).queues qi with
  | some k, some x =>
    if (s.suite k).st = 5 || s.reseating || !x.producers.any (fun p => p.chip = some chip && p.core = e.core) then s.logDiscard qword chip
    else
      let t := s.setQueue n qi (fun y => { y with entries := y.entries ++ [e], used := y.used + e.granules })
      let t := if x.merge then t.remoteMerge k n qi chip e.core else t
      if (t.suite k).st = 4 then t.settle k n else t
  | _, _ => s.logDiscard qword chip

/-- One data frame in sequence: granules of one entry (R355). -/
def State.takeData (s : State) (n : Nat) (p : Peer) (b : List Byte) : State :=
  let w := fld b 20 4
  let qword := w % 0x800000
  let body := b.drop 32
  let start : Bool := bit w 31
  let old : PartEntry := (p.partials.find? (fun e => e.qword = qword)).getD { qword := qword, desc := [], data := [] }
  let e : PartEntry := if start then { qword := qword, desc := body.take 16, data := body.drop 16 } else { old with data := old.data ++ body }
  let rest := p.partials.filter (fun e => e.qword != qword)
  if bit w 30 then
    (s.setPeer n (fun q => { q with partials := rest })).remoteArrive p.chip qword (entryFrom e.desc e.data p.chip (bits qword 22 18))
  else s.setPeer n (fun q => { q with partials := rest ++ [e] })

/-- Credits of one record reach their producer core, whose work goes on (R356). -/
def State.addRemCredit (s : State) (chip qword g : Nat) : State :=
  let l := s.fab.credits
  let held := l.any (fun c => c.chip = chip && c.qword = qword)
  let more := l.map (fun c => if c.chip = chip && c.qword = qword then { c with n := c.n + g } else c)
  let t := s.setFab (fun f => { f with credits := if held then more else l ++ [{ chip := chip, qword := qword, n := g }] })
  let n := bits qword 22 18
  t.onRunning n (fun k => t.settle k n)

/-- The records of a credit frame. -/
def State.takeCredits (s : State) (p : Peer) (b : List Byte) : State :=
  ((List.range ((b.length - 32) / 8)).map (fun i => (fld b (32 + 8 * i) 4, fld b (36 + 8 * i) 4))).foldl
    (fun (t : State) r => t.addRemCredit p.chip (r.1 % 0x800000) r.2) s

/-- A data or credit frame in sequence: the expected sequence advances. -/
def State.takeKept (s : State) (n : Nat) (b : List Byte) : State :=
  match s.peer? n with
  | none => s
  | some p =>
    let t := s.setPeer n (fun q => { q with rxSeq := (q.rxSeq + 1) % M32, rxSince := q.rxSince + 1,
                                            rxAt := if q.rxSince = 0 then s.now else q.rxAt, nakAt := none })
    if byteAt b 0 = 1 then t.takeData n p b else t.takeCredits p b

/-- Frames of a direct group that were held for their place in sequence. -/
def State.drainHeld (s : State) (n : Nat) : Nat → State
  | 0 => s
  | fuel + 1 =>
    match s.peer? n with
    | none => s
    | some p =>
      match p.held.find? (fun f => f.sn = p.rxSeq) with
      | some f =>
        ((s.setPeer n (fun q => { q with held := q.held.filter (fun g => g.sn != f.sn) })).takeKept n f.bytes).drainHeld n fuel
      | none => s

/-- A frame that takes a sequence (R357): the next one is taken; over a direct group one within 64 is held; a later one is a gap;
an earlier one has been taken before. -/
def State.inSequence (s : State) (n : Nat) (p : Peer) (b : List Byte) : State :=
  let sn := fld b 12 4
  if sn = p.rxSeq then (s.takeKept n b).drainHeld n 64
  else if !serialLt p.rxSeq sn then s
  else if p.path != 3 && (sn + M32 - p.rxSeq) % M32 < 64 then
    if p.held.any (fun f => f.sn = sn) then s
    else s.setPeer n (fun q => { q with held := q.held ++ [{ sn := sn, bytes := b }] })
  else s.sendNak n p

/-! ## Hello (R358, R359) -/

/-- Majors and highest minors that a hello lists (log entry 42). -/
def helloPairs (body : List Byte) : List (Nat × Nat) :=
  (List.range (min 4 ((body.length - 12) / 2))).map (fun i => (byteAt body (12 + 2 * i), byteAt body (13 + 2 * i)))

/-- The payload of this chip's hello: epoch, chip number, version 1.0. -/
def State.helloBody (s : State) : List Byte := toLE 8 s.fab.epoch ++ toLE 4 s.fab.chip ++ [1, 0]

/-- A peer whose epoch has changed: unacknowledged frames are discarded and sequences restart at 0 (R358). -/
def Peer.newEpoch (p : Peer) (e : Nat) : Peer :=
  match p.epoch with
  | some o => if o = e then p
              else { p with epoch := some e, sent := [], txSeq := 0, rxSeq := 0, held := [], partials := [], acked := 0, rxSince := 0, nakAt := none }
  | none => { p with epoch := some e }

/-- A hello is received (R358, R359). -/
def State.takeHello (s : State) (n : Nat) (p : Peer) (b : List Byte) : State :=
  let body := b.drop 32
  let l := helloPairs body
  let t := s.setPeer n (fun q => q.newEpoch (fld body 0 8))
  match l.find? (fun v => v.1 = 1) with
  | none =>
    let u := t.setPeer n (fun q => { q with st := 4 })
    if p.st = 4 then u else u.logE 0x0041 0 0xff 0xff 10 n p.chip ((l.map Prod.fst).foldl max 0) 0
  | some _ =>
    let u := t.setPeer n (fun q => { q with major := 1, minor := 0, st := 2, ackedAt := if p.st = 2 then q.ackedAt else s.now })
    if p.st = 2 then u
    else match (u.peer? n).bind (fun q => q.sent.head?) with
      | some f => u.resend n f.sn
      | none => u

/-- One received frame of a peer. `type` is the kind of frame that the command stands for; a frame with a failed check is discarded
whatever it held. -/
def State.linkIn (s : State) (n type : Nat) (b : List Byte) : State :=
  match s.peer? n with
  | none => s
  | some p =>
    if !s.frameGood p b then (if p.st = 2 then s.sendNak n p else s)
    else if byteAt b 0 != type then s
    else if type = 5 then s.takeHello n p b
    else if p.st != 2 && p.st != 3 then s
    else
      let t := (s.applyAck n (fld b 16 4)).revive n
      match t.peer? n with
      | none => t
      | some q =>
        match type with
        | 1 => t.inSequence n q b
        | 2 => t.inSequence n q b
        | 4 => t.resend n (fld b 16 4)
        | _ => t

/-! ## Timers -/

/-- An acknowledgement is due after 16 frames or 2 µs (R357). -/
def State.ackDue (s : State) (n : Nat) : State :=
  match s.peer? n with
  | some p => if p.st = 2 && (16 ≤ p.rxSince || (p.rxSince != 0 && p.rxAt + 2000 ≤ s.now)) then s.sendPlain n 3 [] else s
  | none => s

/-- The replay timeout has passed without an acknowledgement (R357). -/
def State.replayDue (s : State) (n : Nat) : State :=
  match s.peer? n with
  | some p =>
    match p.sent with
    | f :: _ => if p.st = 2 && p.sentAt + p.timeout * 1000 ≤ s.now then s.resend n f.sn else s
    | [] => s
  | none => s

/-- Nothing has been acknowledged for the loss limit (R358). -/
def State.lossDue (s : State) (n : Nat) : State :=
  match s.peer? n with
  | some p =>
    if p.st = 2 && !p.sent.isEmpty && p.ackedAt + p.loss * 1000000 ≤ s.now then
      (s.setPeer n (fun q => { q with st := 3 })).logE 0x0040 0 0xff 0xff 10 n p.chip 0 0
    else s
  | none => s

/-- A hello to every peer (R358). -/
def State.helloAll (s : State) : State := s.fab.peers.foldl (fun (t : State) e => t.sendPlain e.1 5 t.helloBody) s

/-! ## Commands -/

/-- CHIP (R354). -/
def execChip (p : Nat) (s : State) : Res := message p 0x0031 actChip s

/-- PEER_SETUP (R354). -/
def execPeerSetup (p : Nat) (s : State) : Res := message p 0x0032 actPeerSetup s

/-- DATA_FRAME (R355, R357). -/
def execDataFrame (n : Nat) (b : List Byte) (s : State) : Res := onUnit (n < 256) s (s.linkIn n 1 b)

/-- CREDIT_FRAME (R356). -/
def execCreditFrame (n : Nat) (b : List Byte) (s : State) : Res := onUnit (n < 256) s (s.linkIn n 2 b)

/-- CREDIT_FRAME_SEND (R356). -/
def execCreditFrameSend (n : Nat) (s : State) : Res := onUnit (n < 256) s (s.sendCredits n)

/-- ACKNOWLEDGE (R357). -/
def execAcknowledge (n : Nat) (b : List Byte) (s : State) : Res := onUnit (n < 256) s (s.linkIn n 3 b)

/-- NEGATIVE_ACKNOWLEDGE (R357). -/
def execNegativeAcknowledge (n : Nat) (b : List Byte) (s : State) : Res := onUnit (n < 256) s (s.linkIn n 4 b)

/-- HELLO (R358, R359). -/
def execHello (n : Nat) (b : List Byte) (s : State) : Res := onUnit (n < 256) s (s.linkIn n 5 b)

/-- ACK_TIMER (R357). -/
def execAckTimer (n : Nat) (s : State) : Res := onUnit (n < 256) s (s.ackDue n)

/-- REPLAY_TIMEOUT (R357). -/
def execReplayTimeout (n : Nat) (s : State) : Res := onUnit (n < 256) s (s.replayDue n)

/-- PEER_LOSS_LIMIT (R358). -/
def execPeerLossLimit (n : Nat) (s : State) : Res := onUnit (n < 256) s (s.lossDue n)

/-- HELLO_TIMER (R358). -/
def execHelloTimer (s : State) : Res := whenOn s s.helloAll

end Sys2Proof.Machine
end

