-- ==== Sys2Proof/Machine/Crypto.lean ====
section
/-! DEFINITION. The security block's primitives: SHA-384 (FIPS 180-4), HMAC (RFC 2104), and ECDSA over brainpoolP384r1
(RFC 5639), as R217, R230, R367, R368, R372 and R374 use them. -/

namespace Sys2Proof.Machine

/-! ## SHA-384 -/

/-- The `n` 64-bit words of a number, the highest first. -/
def wideWords (n v : Nat) : List (BitVec 64) := (List.range n).map (fun i => BitVec.ofNat 64 (v >>> (64 * (n - 1 - i))))

/-- The constants of the 80 rounds, sixteen rounds to a number. -/
def shaRounds : List (BitVec 64) :=
  [0x428a2f98d728ae227137449123ef65cdb5c0fbcfec4d3b2fe9b5dba58189dbbc3956c25bf348b53859f111f1b605d019923f82a4af194f9bab1c5ed5da6d8118d807aa98a303024212835b0145706fbe243185be4ee4b28c550c7dc3d5ffb4e272be5d74f27b896f80deb1fe3b1696b19bdc06a725c71235c19bf174cf692694,
   0xe49b69c19ef14ad2efbe4786384f25e30fc19dc68b8cd5b5240ca1cc77ac9c652de92c6f592b02754a7484aa6ea6e4835cb0a9dcbd41fbd476f988da831153b5983e5152ee66dfaba831c66d2db43210b00327c898fb213fbf597fc7beef0ee4c6e00bf33da88fc2d5a79147930aa72506ca6351e003826f142929670a0e6e70,
   0x27b70a8546d22ffc2e1b21385c26c9264d2c6dfc5ac42aed53380d139d95b3df650a73548baf63de766a0abb3c77b2a881c2c92e47edaee692722c851482353ba2bfe8a14cf10364a81a664bbc423001c24b8b70d0f89791c76c51a30654be30d192e819d6ef5218d69906245565a910f40e35855771202a106aa07032bbd1b8,
   0x19a4c116b8d2d0c81e376c085141ab532748774cdf8eeb9934b0bcb5e19b48a8391c0cb3c5c95a634ed8aa4ae3418acb5b9cca4f7763e373682e6ff3d6b2b8a3748f82ee5defb2fc78a5636f43172f6084c87814a1f0ab728cc702081a6439ec90befffa23631e28a4506cebde82bde9bef9a3f7b2c67915c67178f2e372532b,
   0xca273eceea26619cd186b8c721c0c207eada7dd6cde0eb1ef57d4f7fee6ed17806f067aa72176fba0a637dc5a2c898a6113f9804bef90dae1b710b35131c471b28db77f523047d8432caab7b40c724933c9ebe0a15c9bebc431d67c49c100d4c4cc5d4becb3e42b6597f299cfc657e2a5fcb6fab3ad6faec6c44198c4a475817].flatMap (wideWords 16)

/-- A state between two rounds, as two histories of four words, the newest first: the words that FIPS 180-4 calls a to d
and those it calls e to h. -/
structure ShaState where
  top : List (BitVec 64)
  low : List (BitVec 64)
  deriving DecidableEq, Repr

def sha384Start : ShaState :=
  { top := wideWords 4 0xcbbb9d5dc1059ed8629a292a367cd5079159015a3070dd17152fecd8f70e5939,
    low := wideWords 4 0x67332667ffc00b318eb44a8768581511db0c2e0d64f98fa747b5481dbefa4fa4 }

/-- The sum modulo 2 of a word turned right by each of the counts. -/
def turned (x : BitVec 64) (counts : List Nat) : BitVec 64 := counts.foldl (fun a n => a ^^^ x.rotateRight n) 0

/-- One round over the state and the 16 schedule words in force (the oldest first): each history takes its new word, and
the schedule drops its oldest word for the one that follows. -/
def shaStep (c : ShaState × List (BitVec 64)) (k : BitVec 64) : ShaState × List (BitVec 64) :=
  let x (i : Nat) := c.1.top.getD i 0
  let y (i : Nat) := c.1.low.getD i 0
  let w (i : Nat) := c.2.getD i 0
  let pick := y 2 ^^^ (y 0 &&& (y 1 ^^^ y 2))
  let most := (x 0 &&& (x 1 ||| x 2)) ||| (x 1 &&& x 2)
  let t := k + w 0 + y 3 + pick + turned (y 0) [14, 18, 41]
  ({ top := (t + most + turned (x 0) [28, 34, 39]) :: c.1.top.take 3, low := (x 3 + t) :: c.1.low.take 3 },
   c.2.drop 1 ++ [w 0 + w 9 + (w 1 >>> 7 ^^^ turned (w 1) [1, 8]) + (w 14 >>> 6 ^^^ turned (w 14) [19, 61])])

/-- One block of 128 bytes. -/
def shaAbsorb (h : ShaState) (block : List Byte) : ShaState :=
  let r := (shaRounds.foldl shaStep (h, wideWords 16 (beNat block))).1
  { top := h.top.zipWith (· + ·) r.top, low := h.low.zipWith (· + ·) r.low }

/-- Absorb `n` blocks of a padded message. -/
def shaBlocks : Nat → ShaState → List Byte → ShaState
  | 0, h, _ => h
  | n + 1, h, l => shaBlocks n (shaAbsorb h (l.take 128)) (l.drop 128)

/-- SHA-384 of a byte string, 48 bytes: the message ends in 0x80, zeros and its bit length in 16 bytes, and the last two
words of the state are dropped. -/
def sha384 (l : List Byte) : List Byte :=
  let n := (l.length + 144) / 128
  let h := shaBlocks n sha384Start (padTo (128 * n - 16) (l ++ [0x80]) ++ toBE 16 (8 * l.length))
  (h.top ++ h.low.take 2).flatMap (fun w => toBE 8 w.toNat)

/-- HMAC-SHA-384: keys are at most one block of 128 bytes. -/
def hmac384 (key msg : List Byte) : List Byte :=
  let k := padTo 128 key
  sha384 (k.map (· ^^^ 0x5c) ++ sha384 (k.map (· ^^^ 0x36) ++ msg))

/-- The bytes of an ASCII label of R372. -/
def ascii (s : String) : List Byte := s.toList.map (fun c => BitVec.ofNat 8 c.toNat)

/-! ## brainpoolP384r1 -/

def bpP : Nat :=
  0x8cb91e82a3386d280f5d6f7e50e641df152f7109ed5456b412b1da197fb71123acd3a729901d1a71874700133107ec53

def bpA : Nat :=
  0x7bc382c63d8c150c3c72080ace05afa0c2bea28e4fb22787139165efba91f90f8aa5814a503ad4eb04a8c7dd22ce2826

def bpB : Nat :=
  0x04a8c7dd22ce28268b39b55416f0447c2fb77de107dcd2a62e880ea53eeb62d57cb4390295dbc9943ab78696fa504c11

def bpX : Nat :=
  0x1d1c64f068cf45ffa2a63a81b7c13f6b8847a3e77ef14fe3db7fcafe0cbd10e8e826e03436d646aaef87b2e247d4af1e

def bpY : Nat :=
  0x8abe1d7520f9c2a45cb1eb8e95cfd55262b70b29feec5864e19c054ff99129280e4646217791811142820341263c5315

def bpN : Nat :=
  0x8cb91e82a3386d280f5d6f7e50e641df152f7109ed5456b31f166e6cac0425a7cf3ab6af6b7fc3103b883202e9046565

/-- Go on with a number; the match makes an evaluator work the number out first. -/
def numForced {α : Type} (n : Nat) (f : Nat → α) : α :=
  match n with
  | 0 => f 0
  | m + 1 => f (m + 1)

@[simp] theorem numForced_eq {α : Type} (n : Nat) (f : Nat → α) : numForced n f = f n := by cases n <;> rfl

/-- b^e mod m, by the low `fuel` bits of e. -/
def powMod (m : Nat) : Nat → Nat → Nat → Nat → Nat
  | 0, _, _, acc => acc
  | fuel + 1, b, e, acc =>
    numForced (b * b % m) (fun c => numForced (e / 2) (fun d => numForced (if e % 2 = 1 then acc * b % m else acc) (powMod m fuel c d)))

/-- The inverse modulo a prime m below 2^384. -/
def invMod (m a : Nat) : Nat := powMod m 384 (a % m) (m - 2) 1

/-- A point in Jacobian coordinates; z = 0 is the point at infinity. -/
structure Pt where
  x : Nat
  y : Nat
  z : Nat
  deriving DecidableEq, Repr

def ptInf : Pt := { x := 1, y := 1, z := 0 }

def subP (a b : Nat) : Nat := (a + (bpP - b % bpP)) % bpP

def ptDbl (q : Pt) : Pt :=
  if q.z = 0 ∨ q.y = 0 then ptInf
  else
    let yy := q.y * q.y % bpP
    let s := 4 * q.x * yy % bpP
    let zz := q.z * q.z % bpP
    let m := (3 * q.x * q.x + bpA * (zz * zz % bpP)) % bpP
    let x := subP (m * m % bpP) (2 * s)
    { x := x, y := subP (m * subP s x % bpP) (8 * (yy * yy % bpP)), z := 2 * q.y * q.z % bpP }

def ptAdd (q r : Pt) : Pt :=
  if q.z = 0 then r
  else if r.z = 0 then q
  else
    let z1 := q.z * q.z % bpP
    let z2 := r.z * r.z % bpP
    let u1 := q.x * z2 % bpP
    let u2 := r.x * z1 % bpP
    let s1 := q.y * r.z % bpP * z2 % bpP
    let s2 := r.y * q.z % bpP * z1 % bpP
    if u1 = u2 then (if s1 = s2 then ptDbl q else ptInf)
    else
      let h := subP u2 u1
      let w := subP s2 s1
      let hh := h * h % bpP
      let h3 := hh * h % bpP
      let v := u1 * hh % bpP
      let x := subP (subP (w * w % bpP) h3) (2 * v)
      { x := x, y := subP (w * subP v x % bpP) (s1 * h3 % bpP), z := q.z * r.z % bpP * h % bpP }

/-- Go on with a point, its coordinates worked out. -/
def Pt.forced {α : Type} (p : Pt) (f : Pt → α) : α :=
  numForced p.x (fun x => numForced p.y (fun y => numForced p.z (fun z => f { x := x, y := y, z := z })))

@[simp] theorem Pt.forced_eq {α : Type} (p : Pt) (f : Pt → α) : p.forced f = f p := by simp [Pt.forced]

/-- k times a point, for the low `fuel` bits of k. -/
def ptMul : Nat → Nat → Pt → Pt → Pt
  | 0, _, _, acc => acc
  | fuel + 1, k, q, acc =>
    numForced (k / 2) (fun j => (ptDbl q).forced (fun d => (if k % 2 = 1 then ptAdd acc q else acc).forced (ptMul fuel j d)))

def mulPt (k : Nat) (q : Pt) : Pt := ptMul 384 k q ptInf

def basePt : Pt := { x := bpX, y := bpY, z := 1 }

/-- The affine x coordinate of a point that is not infinity. -/
def affX (q : Pt) : Nat := let i := invMod bpP q.z; q.x * (i * i % bpP) % bpP

def affY (q : Pt) : Nat := let i := invMod bpP q.z; q.y * (i * i % bpP * i % bpP) % bpP

def onCurve (x y : Nat) : Bool :=
  x < bpP && y < bpP && y * y % bpP = (x * x % bpP * x + bpA * x + bpB) % bpP

/-- ECDSA verification of signature (r, s) of a digest under public key (x, y). -/
def ecdsaVerify (x y : Nat) (digest : List Byte) (r s : Nat) : Bool :=
  if onCurve x y && 0 < r && r < bpN && 0 < s && s < bpN then
    let w := invMod bpN s
    let q := ptAdd (mulPt (beNat digest * w % bpN) basePt) (mulPt (r * w % bpN) { x := x, y := y, z := 1 })
    q.z != 0 && affX q % bpN = r
  else false

/-- ECDSA signature with private key d and secret number k (taken into 1 to n - 1). -/
def ecdsaSign (d k : Nat) (digest : List Byte) : List Byte :=
  let k := 1 + k % (bpN - 1)
  let r := affX (mulPt k basePt) % bpN
  let s := invMod bpN k * ((beNat digest + r * d) % bpN) % bpN
  toBE 48 r ++ toBE 48 s

/-- The uncompressed encoding of a private key's public point: 0x04, X, Y. -/
def publicKey (d : Nat) : List Byte :=
  let q := mulPt d basePt
  0x04 :: (toBE 48 (affX q) ++ toBE 48 (affY q))

end Sys2Proof.Machine
end

