-- ==== Sys2Proof/Machine/Firmware.lean ====
section
/-! DEFINITION. Firmware and trust (R365 to R374, R381, R385 to R390): images, the flash directory, identity, attestation,
staging, activation, fuses, rescue. -/

namespace Sys2Proof.Machine

/-! ## Images (R367, R368) -/

def slotA : Nat := 0x400000

def slotB : Nat := 0x1400000

def recoveryAt : Nat := 0x2400000

def hostImageAt : Nat := 0x2c00000

def imageMagic : Nat := 0x5746594d

/-- Longest body of an image of a kind. -/
def maxBody (kind : Nat) : Nat := if kind = 1 then 0x800000 - 512 else 0x1000000 - 512

/-- Bit of the steppings byte for a stepping code (R5). -/
def steppingBit (st : Nat) : Nat := if st = 0xa0 then 0 else if st = 0xa1 then 1 else 2

/-- A key slot is usable when programmed and not revoked (R368). -/
def usableKey (f : Fuses) (k : Nat) : Bool := k < 4 && !(f.keys.getD k []).isEmpty && !(f.revoked.getD k true)

/-- The measurement of an image: SHA-384 of bytes 0 to 175 of its header (R372). -/
def measureOf (header : List Byte) : List Byte := sha384 (header.take 176)

/-- The image that a byte string holds, when it is acceptable under R368 and of the kind asked for. -/
def acceptImage (f : Fuses) (kind : Nat) (b : List Byte) : Option Image :=
  let len := fld b 16 4
  let key := byteAt b 5
  let sec := fld b 6 2
  if 512 ≤ b.length && fld b 0 4 = imageMagic && byteAt b 4 = 1 && bit (byteAt b 12) (steppingBit f.stepping) &&
      byteAt b 13 = kind && usableKey f key && sha384 ((b.drop 72).take 97) == f.keys.getD key [] && f.minSec ≤ sec &&
      len ≤ maxBody kind && 512 + len ≤ b.length && sha384 ((b.drop 512).take len) == (b.drop 24).take 48 &&
      byteAt b 72 = 4 &&
      ecdsaVerify (beNat ((b.drop 73).take 48)) (beNat ((b.drop 121).take 48)) (sha384 (b.take 176))
        (beNat ((b.drop 176).take 48)) (beNat ((b.drop 224).take 48)) then
    some { key := key, secVer := sec, version := fld b 8 4, kind := kind, hoW := byteAt b 20 * 256 + byteAt b 21,
           hoR := byteAt b 22 * 256 + byteAt b 23, meas := measureOf b }
  else none

/-- An image in the flash. -/
def State.flashImage (s : State) (a kind : Nat) : Option Image :=
  acceptImage s.fuses kind (s.flashRead a (512 + min (fld (s.flashRead a 512) 16 4) (maxBody kind)))

/-- Key slot and security version of whatever image a flash region holds, by its header. -/
def State.flashHeader (s : State) (a : Nat) : Option (Nat × Nat) :=
  let h := s.flashRead a 512
  if fld h 0 4 = imageMagic then some (byteAt h 5, fld h 6 2) else none

/-! ## The directory (R366) -/

def dirMagic : Nat := 0x5244594d

structure Dir where
  gen    : Nat
  active : Nat
  a      : Nat
  b      : Nat
  deriving DecidableEq, Repr

def parseDir (b : List Byte) : Option Dir :=
  if fld b 0 4 = dirMagic && crc32c (b.take 12) = fld b 12 4 then
    some { gen := fld b 4 4, active := byteAt b 8, a := byteAt b 9, b := byteAt b 10 }
  else none

def Dir.bytes (d : Dir) : List Byte :=
  let b := toLE 4 dirMagic ++ toLE 4 d.gen ++ toLE 1 d.active ++ toLE 1 d.a ++ toLE 1 d.b ++ [0]
  b ++ toLE 4 (crc32c b)

/-- The directory in force and the copy that holds it: the later valid one; slot A active without one (R366, R369). -/
def State.directory (s : State) : Dir × Nat :=
  match parseDir (s.flashRead 0 16), parseDir (s.flashRead 0x10000 16) with
  | some d, some e => if serialLt d.gen e.gen then (e, 1) else (d, 0)
  | some d, none => (d, 0)
  | none, some e => (e, 1)
  | none, none => ({ gen := 0, active := 0, a := 0, b := 0 }, 1)

/-- Overwrite the other copy, with the generation raised by 1. -/
def State.writeDirectory (s : State) (d : Dir) : State :=
  let o := s.directory
  s.flashWrite (if o.2 = 0 then 0x10000 else 0) { d with gen := (o.1.gen + 1) % M32 }.bytes

/-! ## Identity (R372) -/

/-- A private key from a key and a label: 1 + (HMAC mod (n − 1)). -/
def deriveKey (key : List Byte) (label : String) : Nat := 1 + beNat (hmac384 key (ascii label)) % (bpN - 1)

def Fuses.deviceKey (f : Fuses) : Nat := deriveKey f.uds "MYS device-id"

/-- The alias private key of an image. -/
def Fuses.aliasKey (f : Fuses) (i : Image) : Nat := deriveKey (hmac384 f.uds i.meas) "MYS alias"

/-- A fresh alias certificate (R372). It binds the alias public key, the measurement and the versions of the running image under a
signature of the DeviceID key; the layout of what is signed is a free value (log entry 10). -/
def State.newAlias (s : State) : State :=
  let d := s.draw
  let i := s.fw.run.getD default
  let key := publicKey (s.fuses.aliasKey i)
  let bound := key ++ i.meas ++ toLE 4 i.version ++ toLE 2 i.secVer
  let n := 1 + Config.certLength d.1 % 2048
  let der := (List.range n).map (Config.certByte d.1 bound)
  d.2.setFw (fun f => { f with alias_ := some {
      key := key, meas := i.meas, version := i.version, secVer := i.secVer, der := der,
      sig := ecdsaSign s.fuses.deviceKey (Config.nonce d.1) (sha384 der) } })

/-- The alias certificate's bytes: what is signed, then the signature (log entry 10). -/
def AliasCert.bytes (c : AliasCert) : List Byte := c.der ++ c.sig

/-- The length of the DER object that starts with some bytes, or 0 when none does: a sequence, its length in short or long form. -/
def derLength (b : List Byte) : Nat :=
  let n := byteAt b 1
  let k := n - 128
  if byteAt b 0 != 0x30 then 0
  else if n < 128 then 2 + n
  else if 1 ≤ k && k ≤ 3 then 2 + k + beNat ((b.drop 2).take k)
  else 0

/-- The DER objects that stand one after another in the identity store, up to its end (log entry 21). -/
def State.derObjects (s : State) : Nat → Nat → List (List Byte)
  | 0, _ => []
  | fuel + 1, o =>
    let len := derLength (s.flashRead (0x220000 + o) 5)
    if len = 0 || 0x80000 < o + len then [] else s.flashRead (0x220000 + o) len :: s.derObjects fuel (o + len)

/-- The certificate chain of R373: alias, DeviceID, vendor chain, each with its length. -/
def State.certChain (s : State) : List Byte :=
  ((s.fw.alias_.map AliasCert.bytes).toList ++ s.derObjects 0x40000 0).flatMap (fun c => toLE 4 c.length ++ c)

/-- Identity (R373). -/
def actIdentity (s : State) (r : Req) : State × Option (Nat × List Byte) :=
  let a := fld r.body 0 8
  if s.inFn r.fn a (max 16384 s.certChain.length) && s.writable a s.certChain.length then (s.hubWrite a s.certChain, some (0, toLE 4 s.certChain.length)) else (s, some (0x80, []))

/-! ## Registers that messages also carry (R392) -/

def State.bootStatus (s : State) : Nat :=
  let usable := ((List.range 4).map (fun k => b2n (usableKey s.fuses k) * 2 ^ k)).sum
  let key := match s.fw.run with
    | some i => i.key
    | none => 0
  usable * 2 ^ 24 + s.fuses.minSec * 2 ^ 16 + key * 2 ^ 10 + s.fw.bootPath * 2 ^ 8 + b2n s.fw.updated * 8 +
    b2n s.fw.rolled * 4 + b2n (s.fw.slotFail.getD 1 false) * 2 + b2n (s.fw.slotFail.getD 0 false)

def State.updateStatus (s : State) : Nat := s.fw.update * 2 ^ 29 + s.fw.deferMs

/-- Firmware status (R381). -/
def actFirmwareStatus (s : State) (_ : Req) : State × Option (Nat × List Byte) :=
  (s, some (0, toLE 4 s.bootStatus ++ toLE 4 s.fwVersion ++ toLE 4 s.updateStatus))

/-! ## Attestation (R374) -/

/-- Suite record of a report. -/
def State.attestSuite (s : State) (k : Nat) : List Byte :=
  let x := s.suite k
  toLE 1 k ++ toLE 1 x.st ++ toLE 1 x.owner ++ toLE 1 x.mode ++ zeros 4 ++ toLE 8 (s.suiteKey x.mode) ++
    padTo 48 (if x.prog.isSome then x.digest else [])

/-- Suites that a report holds: every suite that is not free, or only the function's own. -/
def State.attestList (s : State) (f : Nat) : List Nat :=
  (List.range 32).filter (fun k => (s.suite k).st != 0 && (f = 0 || (s.suite k).owner = f))

/-- Every byte of a report before its signature. -/
def State.attestBody (s : State) (f nlen : Nat) (nonce : List Byte) : List Byte :=
  let l := s.attestList f
  let run := s.fw.run.getD default
  let rec_ := s.flashRead recoveryAt 512
  toLE 4 0x5441594d ++ toLE 2 1 ++ toLE 2 l.length ++ toLE 1 nlen ++ padTo 64 nonce ++ zeros 7 ++ toLE 8 s.partKey ++
    toLE 8 s.now ++ toLE 1 s.fw.bootPath ++ toLE 1 run.key ++ toLE 2 run.secVer ++ toLE 4 run.version ++ padTo 48 run.meas ++
    padTo 48 (if fld rec_ 0 4 = imageMagic then measureOf rec_ else []) ++
    padTo 48 (match s.fw.staged with | some i => i.meas | none => []) ++ zeros 8 ++ l.flatMap s.attestSuite

/-- Attestation (R374, R382). -/
def actAttestation (s : State) (r : Req) : State × Option (Nat × List Byte) :=
  let n := byteAt r.body 0
  let a := fld r.body 8 8
  let nonce := (r.body.drop 16).take n
  if n < 1 || 64 < n || fld r.body 1 7 != 0 || !allZero (r.body.drop (16 + n)) || !s.inFn r.fn a 8192 then (s, some (0x80, []))
  else
    let body := s.attestBody r.fn n nonce
    if !s.writable a (body.length + 96) then (s, some (0x80, []))
    else
      let d := s.draw
      let rep := body ++ ecdsaSign (s.fuses.aliasKey (s.fw.run.getD default)) (Config.nonce d.1) (sha384 body)
      (d.2.hubWrite a rep, some (0, toLE 4 rep.length))

/-! ## Stage, recovery write, host image (R382, R385) -/

/-- The bytes that a stage-like message names, when its fields are in range and the sender can read them. -/
def State.messageImage (s : State) (r : Req) (lo hi : Nat) : Option (List Byte) :=
  let a := fld r.body 0 8
  let n := fld r.body 8 4
  if lo ≤ n && n ≤ hi && fld r.body 12 4 = 0 && s.fnReads r.fn a n then some (s.devRead a n) else none

/-- The pages of the bytes that such a message names are looked up. -/
def State.touchImage (s : State) (r : Req) : State := s.touchAll (fld r.body 0 8) (fld r.body 8 4)

/-- An image reads the handoff version that another writes. -/
def readsHandoff (new old : Image) : Bool := new.hoR / 256 = old.hoW / 256 && old.hoW % 256 ≤ new.hoR % 256

/-- An update is in progress: staging, deferred or pausing. -/
def State.updating (s : State) : Bool := s.fw.update = 1 || s.fw.update = 3 || s.fw.update = 4

/-- Stage (R385). A flash write that fails is answered 0x56 and changes nothing (R382). -/
def actStage (flashOk : Bool) (s : State) (r : Req) : State × Option (Nat × List Byte) :=
  if s.updating then (s, some (0x54, []))
  else match s.messageImage r 512 0x1000000 with
    | none => (s, some (0x51, []))
    | some b => match acceptImage s.fuses 0 b with
      | none => (s, some (0x51, []))
      | some i =>
        if !readsHandoff i (s.fw.run.getD default) then (s, some (0x52, []))
        else if !flashOk then (s, some (0x56, []))
        else
          let d := s.directory.1
          let t := (s.touchImage r).flashWrite (if d.active = 0 then slotB else slotA) b
          let t := t.writeDirectory (if d.active = 0 then { d with b := 1 } else { d with a := 1 })
          (t.setFw (fun f => { f with staged := some i, update := 2 }), some (0, []))

/-- Recovery write (R381): as stage, into the recovery region, for images of kind 1 only. -/
def actRecoveryWrite (flashOk : Bool) (s : State) (r : Req) : State × Option (Nat × List Byte) :=
  if s.updating then (s, some (0x54, []))
  else match s.messageImage r 512 0x800000 with
  | none => (s, some (0x51, []))
  | some b => match acceptImage s.fuses 1 b with
    | none => (s, some (0x51, []))
    | some i => if !readsHandoff i (s.fw.run.getD default) then (s, some (0x52, []))
      else if flashOk then ((s.touchImage r).flashWrite recoveryAt b, some (0, [])) else (s, some (0x56, []))

/-- Host image write (R382). -/
def actHostImage (flashOk : Bool) (s : State) (r : Req) : State × Option (Nat × List Byte) :=
  match s.messageImage r 1 0x1000000 with
  | none => (s, some (0x80, []))
  | some b => if flashOk then ((s.touchImage r).flashWrite hostImageAt b, some (0, [])) else (s, some (0x56, []))

/-! ## Fuses (R371) -/

/-- Images that R371 protects, as (key slot, security version): running, both slots, recovery. -/
def State.images (s : State) : List (Nat × Nat) :=
  (match s.fw.run with | some i => [(i.key, i.secVer)] | none => []) ++
    [slotA, slotB, recoveryAt].filterMap s.flashHeader

/-- Revoke a key slot. -/
def actRevoke (s : State) (r : Req) : State × Option (Nat × List Byte) :=
  let k := byteAt r.body 0
  if 3 < k || fld r.body 1 3 != 0 || s.images.any (fun i => i.1 = k) || (List.range 4).filter (usableKey s.fuses) == [k] then
    (s, some (0x57, []))
  else ({ s with fuses := { s.fuses with revoked := s.fuses.revoked.set k true } }, some (0, []))

/-- Advance the security version. -/
def actAdvance (s : State) (r : Req) : State × Option (Nat × List Byte) :=
  let v := fld r.body 0 2
  if v < 1 || 64 < v || fld r.body 2 2 != 0 || v ≤ s.fuses.minSec || s.images.any (fun i => i.2 < v) then (s, some (0x58, []))
  else ({ s with fuses := { s.fuses with minSec := v } }, some (0, []))

/-! ## Activation (R386 to R390) -/

/-- The emergency conditions of R386. The fused voltage maximum acts always and is none of them (R400; log entry 22). A device that
stays not ready in phase 6 is past being not yet ready (R390, R415; log entry 144). -/
def State.emergency (s : State) : Bool :=
  s.power.thr0 || s.power.thr1 || s.power.trip || s.power.current || !s.health.units.isEmpty || s.reseating || s.health.phase < 4

/-! ## The handoff block (R388) -/

def handoffMagic : Nat := 0x4f48594d

/-- The firmware's counters, function by function and unit by unit: what it has counted for notices, suites, retirements and limits. -/
def State.firmwareCounts (s : State) : List Nat :=
  s.funcs.map (fun f => f.lost) ++ s.suites.map (fun k => k.stepNo) ++
    [s.fw.boots, s.health.reseats, s.health.faults, s.health.repairs, s.power.thrEvents, s.power.curEvents, s.power.tripEvents,
     s.log.next, s.log.overflow]

/-- The messages that wait in the pairs. They are taken in the order of their arrival by the commands that serve them. -/
def State.waitingMessages (s : State) : List (List Byte) := (s.pairs.filter (fun p => p.reqV)).map (fun p => p.req)

/-- What the image that runs would hand over now; the recovery image hands over no suite, ring or context (R390). -/
def State.handoffOf (s : State) (len : Nat) : Handoff :=
  let i := s.fw.run.getD default
  let main := !s.recovery
  { major := i.hoW / 256, minor := i.hoW % 256, len := len, gen := s.fw.handGen, instant := s.now,
    rings := if main then s.rings else [], suites := if main then s.suites else [], seqs := s.pairs.map (fun p => p.lastSeq),
    funcs := s.funcs, ctxs := if main then s.media.ctxs else [], streams := s.media.streams, sessions := s.media.sessions,
    groups := s.media.groups, peers := s.fab.peers, counts := s.firmwareCounts, messages := s.waitingMessages, copies := s.xlt.copies }

/-- The 64-byte header (R388; the places of its fields are log entry 142). -/
def Handoff.header (h : Handoff) : List Byte :=
  padTo 64 (toLE 4 handoffMagic ++ toLE 1 h.major ++ toLE 1 h.minor ++ zeros 2 ++ toLE 4 h.len ++ toLE 4 h.gen ++ toLE 8 h.instant)

/-- The address in a pseudo-channel's handoff region at which a copy begins (R299), as an HBM byte number. -/
def State.handoffAt (s : State) (ch : Nat) : Nat := frameKey ch (s.fwBase + 192) * 4096

/-- Write bytes into firmware frames, which no translation reaches (R282). -/
def State.hbmWrite (s : State) : Nat → List Byte → State
  | _, [] => s
  | a, b :: t => (s.hbmPut a b).hbmWrite (a + 1) t

def State.hbmRead (s : State) (a n : Nat) : List Byte := (List.range n).map (fun i => s.hbmGet (a + i))

/-- Step 2 of R387: the block, with its SHA-384 after every other byte, in the handoff regions of both copies. -/
def State.writeHandoff (s : State) : State :=
  let d := s.draw
  let n := Config.handoffLength d.1 % (0x800000 - 111)
  let h := d.2.handoffOf (64 + n + 48)
  let b := h.header ++ (List.range n).map (Config.handoffByte d.1)
  let t := h.copies.foldl (fun t ch => t.hbmWrite (s.handoffAt ch) (b ++ sha384 b)) d.2
  t.setFw (fun f => { f with handoff := some h, handGen := (f.handGen + 1) % M32 })

/-- A copy that the new image reads (R387 step 5): the written version and a matching digest. -/
def State.copyReads (s : State) (h : Handoff) (ch : Nat) : Bool :=
  let a := s.handoffAt ch
  let b := s.hbmRead a (h.len - 48)
  s.present ch && b.take 64 == h.header && s.hbmRead (a + h.len - 48) 48 == sha384 b

/-- Does the new image find a copy of the handoff block that it reads? -/
def State.handoffReads (s : State) : Bool :=
  match s.fw.handoff, s.fw.staged with
  | some h, some i => readsHandoff i (s.fw.run.getD default) && h.copies.any (s.copyReads h)
  | _, _ => false

/-- Steps 1 and 2 of R387: dispatch stops, loads in progress are cancelled (R232) and the handoff block is written. -/
def State.beginActivation (s : State) : State :=
  let t := (List.range 32).foldl (fun t k =>
    match (t.suite k).load with
    | some l => if l.phase = 2 then t else (t.endLoad k 0x63 0xff).setSuite k (fun x => { x with st := 1 })
    | none => t) s
  t.writeHandoff.setFw (fun f => { f with update := 4, pause := some s.now })

/-- Activate (R386). -/
def actActivate (s : State) (r : Req) : State × Option (Nat × List Byte) :=
  if s.updating then (s, some (0x54, []))
  else if s.fw.staged.isNone then (s, some (0x50, []))
  else
    let t := s.setFw (fun f => { f with actPair := some r.pair })
    if s.emergency then (t.setFw (fun f => { f with update := 3, deferAt := s.now, deferMs := 0 }), none)
    else (t.beginActivation, none)

/-- The activate message is answered. -/
def State.answerActivate (s : State) (status : Nat) : State :=
  match s.fw.actPair with
  | some p => (s.answerLate p status []).setFw (fun f => { f with actPair := none })
  | none => s

/-- Re-examine the conditions of a deferred activation (R386). -/
def State.recheckActivation (s : State) : State :=
  if s.fw.update != 3 || !s.fwOn then s
  else
    let ms := min ((s.now - s.fw.deferAt) / 1000000) 10000
    let t := s.setFw (fun f => { f with deferMs := ms })
    if !s.emergency then t.beginActivation
    else if ms = 10000 then (t.setFw (fun f => { f with update := 2 })).answerActivate 0x53
    else t

/-- Notice 0x4006: the version of the new image, and 1 in byte 4 when it is rolled back (log entry 23). -/
def State.noticeFirmware (s : State) (version : Nat) (rolled : Bool) : State :=
  s.noticeAll 0x4006 (toLE 4 version ++ toLE 1 (b2n rolled) ++ zeros 3)

/-- Activate messages that came during the pause are answered 0x54 by the image that then holds control (R386). -/
def State.refuseActivates (s : State) : State :=
  (List.range 64).foldl (fun t p => match t.request p with
    | some r => if r.type = 0x0044 then t.serveReq r (fun u _ => (u, some (0x54, []))) else t
    | none => t) s

/-- The old image resumes from its own block (R389): the directory stays, and the rolled-back image stays staged. -/
def State.rollback (s : State) : State :=
  if s.fw.update != 4 || !s.on then s
  else
    let v := match s.fw.staged with
      | some i => i.version
      | none => s.fwVersion
    let t := s.setFw (fun f => { f with update := 5, rolled := true, pause := none, handoff := none })
    ((t.answerActivate 0x55).noticeFirmware v true).refuseActivates.releaseFaults

/-- The new image takes over (R387 steps 3 to 6), or, when it finds no copy of the block that it reads, the old one resumes (R389). What
the block holds changes in the pause by hardware only, and so adopting it keeps it. Every heartbeat deadline moves later by the pause. -/
def State.takeover (s : State) : State :=
  match s.fw.pause, s.fw.staged with
  | some p, some i =>
    if s.fw.update != 4 || !s.on then s
    else if !s.handoffReads then s.rollback
    else
      let d := s.directory.1
      let nw := 1 - min d.active 1
      let t := s.writeDirectory (if nw = 1 then { d with active := 1, a := 3, b := 2 } else { d with active := 0, a := 2, b := 3 })
      let t := t.setFw (fun f => { f with run := some i, staged := none, update := 0, updated := true, pause := none, handoff := none,
                                          bootPath := nw })
      let t : State := { t with funcs := t.funcs.map (fun f => { f with beat := f.beat.map (· + (s.now - p)) }) }
      (((t.newAlias).answerActivate 0x00).noticeFirmware i.version false).refuseActivates.releaseFaults
  | _, _ => s

/-! ## Rescue (R370) -/

/-- The boot ROM runs no image and serves the rescue area. -/
def State.inRescue (s : State) : Bool := s.on && s.fw.run.isNone && s.fw.bootPath = 3

/-- The pseudo-channel of the rescue area: the lowest present one that neither fuses nor record name. -/
def State.rescueChan (s : State) : Nat :=
  ((List.range 64).find? (fun p => s.present p && !s.fuses.badPcs.contains p)).getD 0

/-- Table pages that R285 would put on absent pseudo-channels are placed as R298 says. -/
def State.buildTable (s : State) : State :=
  ((List.range 32768).filter (fun t => !s.present (s.tableFrame t / 196608) || s.xlt.retired.contains (s.tableFrame t))).foldl
    State.placeTable s

/-! ## Training and tests (R277, R281, R294, R406 phases 4 and 5) -/

/-- A pseudo-channel that passes its training: the lanes found bad are repaired and its crossing holds 4 words. -/
def Chan.train (r : TestResults) (p : Nat) (c : Chan) : Chan :=
  { c with trained := true, depth := 4,
           repairs := c.repairs ++ (r.hbmLanes.filter (fun e => e.1 = p && !c.repairs.contains e.2)).map Prod.snd }

/-- The hub die reads each stack's temperature when it trains the stack; the first interval follows that reading (R294). -/
def State.readStacks (s : State) (r : TestResults) : State :=
  s.setXlt (fun x => { x with
    stackTemp := (List.range 2).map (fun k => if 32 * k < s.n0 then r.stackTemps.getD k 0 else 0),
    stackFast := (List.range 2).map (fun k => decide (32 * k < s.n0) && decide (85 < r.stackTemps.getD k 0)) })

/-- Phases 4 and 5: links, lanes and cores that failed their tests are retired or absent. Refresh starts here, pseudo-channel p at
p × 60.9375 ns after the present instant (R294, R411, in sixteenths of a nanosecond). -/
def State.bringupTests (s : State) (r : TestResults) : State :=
  let t := r.pcs.foldl State.retireChan s
  let t := r.d2dLanes.foldl State.retireD2d t
  let t := r.lanes.foldl State.retireLane t
  let t := (r.dies ++ (List.range 2).filter t.linkDead).foldl State.loseDie t
  let t := r.shelves.foldl State.loseCluster t
  let t := (r.cores.filter (fun n => t.usable n)).foldl State.retireCore t
  let t : State := { t with
    chans := t.chans.mapIdx (fun p c => if chanPresent c then { Chan.train r p c with nextRef := 16 * s.now + 975 * p } else c),
    fab := { t.fab with lanes := t.fab.lanes.map (fun l => if l.present && !l.retired then { l with depth := 6 } else l) } }
  (t.readStacks r).placeCopies

/-- The rescue message: its length names a recovery image in the rescue area, which is checked and run from memory. That image trains the
other present pseudo-channels; `r` are the outcomes of the tests that its bring-up runs. -/
def State.rescue (s : State) (p : Nat) (r₀ : TestResults) : State :=
  let x := s.pair p
  let r := parseReq p x.req
  if !s.inRescue || !x.reqV || x.due.isSome || r.type != 0x0048 || 64 ≤ p then s
  else
    let reply := fun (t : State) (st : Nat) => (t.take p).deliver p (t.replyBytes r st [])
    let n := fld r.body 0 4
    if !r.crcOk then reply s 0xf0
    else if r.len != 4 then reply s 0xf3
    else if n < 512 || 0x800000 < n then reply s 0x80
    else match acceptImage s.fuses 1 ((List.range n).map (fun i => s.hbmGet (frameKey s.rescueChan 0 * 4096 + i))) with
      | none => reply s 0x51
      | some i =>
        let t := s.setFw (fun f => { f with run := some i })
        reply ((t.newAlias.bringupTests r₀).buildTable.setHealth (fun h => { h with phase := 1 })) 0

/-! ## Commands -/

/-- IDENTITY (R373). -/
def execIdentity (p : Nat) (s : State) : Res := message p 0x0040 actIdentity s

/-- ATTESTATION (R374). -/
def execAttestation (p : Nat) (s : State) : Res := message p 0x0041 actAttestation s

/-- FIRMWARE_STATUS (R381). -/
def execFirmwareStatus (p : Nat) (s : State) : Res := message p 0x0042 actFirmwareStatus s

/-- STAGE (R385). -/
def execStage (p : Nat) (flashOk : Bool) (s : State) : Res := message p 0x0043 (actStage flashOk) s

/-- ACTIVATE (R386). -/
def execActivate (p : Nat) (s : State) : Res := message p 0x0044 actActivate s

/-- REVOKE_KEY_SLOT (R371). -/
def execRevokeKeySlot (p : Nat) (s : State) : Res := message p 0x0045 actRevoke s

/-- ADVANCE_SECURITY_VERSION (R371). -/
def execAdvanceSecurityVersion (p : Nat) (s : State) : Res := message p 0x0046 actAdvance s

/-- RECOVERY_WRITE (R382). -/
def execRecoveryWrite (p : Nat) (flashOk : Bool) (s : State) : Res := message p 0x0047 (actRecoveryWrite flashOk) s

/-- HOST_IMAGE_WRITE (R382). -/
def execHostImageWrite (p : Nat) (flashOk : Bool) (s : State) : Res := message p 0x0033 (actHostImage flashOk) s

/-- ACTIVATION_RECHECK (R386). -/
def execActivationRecheck (s : State) : Res := whenOn s s.recheckActivation

/-- ACTIVATION_TAKEOVER (R387). -/
def execActivationTakeover (s : State) : Res := whenOn s s.takeover

/-- ACTIVATION_ROLLBACK (R389). -/
def execActivationRollback (s : State) : Res := whenOn s s.rollback

/-- RESCUE (R370). -/
def execRescue (x : RescueTry) (s : State) : Res := onUnit (x.pair < 64) s (s.rescue x.pair x.tests)

end Sys2Proof.Machine
end

