-- ==== Sys2Proof/Machine/Bringup.lean ====
section
/-! DEFINITION. From power-good to ready (R343, R349, R369, R404, R406 to R415, R446). -/

namespace Sys2Proof.Machine

/-! ## Power-good (R406 phases 1 to 5) -/

/-- What loss of power leaves: fuses, flash (with the retirement record's copies), the boot count, and the outside world (R404). -/
def State.cold (s : State) : State :=
  { State.reset with
    fuses := s.fuses, flash := s.flash, hostMem := s.hostMem, free := s.free, pending := s.pending,
    out := s.out, fw := { Fw.reset with boots := s.fw.boots } }

/-- POWER_GOOD_FALL. -/
def State.powerDown (s : State) : State := s.cold

/-- Mark every fused-bad and retired unit; the fused lane repairs of a stack are applied (R281). -/
def State.markRecorded (s : State) : State :=
  let rec_ := fun k u => s.recorded k u
  { s with
    phys := (List.range 40).map (fun n =>
      { Phys.reset with bad := s.fuses.badCores.contains n, retired := rec_ 1 n }),
    clusters := (List.range 8).map (fun _ =>
      { Cluster.reset with ceil := min 850 s.fuses.vmax, curCeil := s.fuses.vmax, thrCeil := s.fuses.vmax }),
    chans := (List.range 64).map (fun p =>
      { Chan.reset with
        fitted := p < s.n0 && !s.fuses.badPcs.contains p,
        repairs := (s.fuses.hbmLanes.filter (fun e => e.1 = p)).map Prod.snd, retired := rec_ 2 p,
        frames := min 64 (s.record.filter (fun e => e.kind = 3 && e.unit = p)).length }),
    xlt := { Xlt.reset with
      retired := (s.record.filter (fun e => e.kind = 3)).map (fun e => frameKey e.unit e.index) },
    media := { Media.reset with
      ports := (List.range 4).map (fun p => { Port.reset with retired := rec_ 6 p }),
      badSlots := (s.record.filter (fun e => e.kind = 7)).map RetEntry.unit },
    fab := { Fab.reset with
      lanes := (List.range 4).map (fun n => { Lane.reset with present := !s.fuses.badLanes.contains n, retired := rec_ 4 n }) } }

/-- Phase 3: the firmware reads both copies of the retirement record and marks the units (R391, R406). -/
def State.markUnits (s : State) : State := ({ s with record := s.flashRecord } : State).markRecorded

/-- Steps 1 to 5 of R369: the image that the boot ROM runs, its path, and the slots that failed. -/
def State.bootChoice (s : State) : Option Image × Nat × List Bool :=
  let act := min s.directory.1.active 1
  let at_ := fun k => s.flashImage (if k = 0 then slotA else slotB) 0
  let fails := fun (l : List Nat) => (List.range 2).map (fun k => l.contains k)
  match at_ act with
  | some i => (some i, act, fails [])
  | none => match at_ (1 - act) with
    | some i => (some i, 1 - act, fails [act])
    | none => match s.flashImage recoveryAt 1 with
      | some i => (some i, 2, fails [0, 1])
      | none => (none, 3, fails [0, 1])

/-- POWER_GOOD: a new Abapex epoch is drawn (R358), the time base starts at 0, the mode is sampled, the boot ROM runs, units are marked and tested. -/
def State.powerUp (s : State) (mode : Nat) (r : TestResults) (epoch : Nat) : State :=
  if s.on then s
  else
    let t := s.cold.markUnits
    let b := t.bootChoice
    let t := t.setFw (fun f => { f with boots := f.boots + 1, bootPath := b.2.1, slotFail := b.2.2, run := b.1,
                                        attach := if mode % 4 = 3 then 0 else mode % 4 })
    let t := (t.setHealth (fun h => { h with powered := true })).setFab (fun f => { f with epoch := epoch })
    match b.1 with
    | none =>
      if t.presentChans.isEmpty then t else (t.setChan t.rescueChan (Chan.train r t.rescueChan)).readStacks r
    | some _ => (((t.newAlias).bringupTests r).buildTable).setHealth (fun h => { h with phase := 1 })

/-! ## Self-hosted start (R343) -/

/-- Map pages in ascending order over a rotating list of (channel, next frame). -/
def selfMap (mappable : Nat) (bad : Nat → Bool) : Nat → List (Nat × Nat) → Nat → List (Nat × XEntry) → List (Nat × XEntry)
  | 0, _, _, acc => acc
  | _, [], _, acc => acc
  | fuel + 1, (c, f) :: q, v, acc =>
    if 1048576 ≤ v then acc
    else if mappable ≤ f then selfMap mappable bad fuel q v acc
    else if bad (frameKey c f) then selfMap mappable bad fuel ((c, f + 1) :: q) v acc
    else selfMap mappable bad fuel (q ++ [(c, f + 1)]) (v + 1) ((v, .hbm f c true) :: acc)

/-- The four steps of R343, and the start of the host cores. The blob describes the memory up to the first unmapped page; how its bytes say
so is a free value (log entry 15). -/
def State.selfStart (s : State) : State :=
  let l := (selfMap s.mappable (fun k => s.xlt.retired.contains k || s.xlt.taken.contains k)
    (1048576 + 64 * 196608) (s.presentChans.map (fun c => (c, 0))) 0 []).reverse
  let t := s.setXlt (fun x => { x with
    windows := aSet x.windows 0 { first := 0, count := 1048576, owner := 0, mask := 0 },
    table := l,
    owners := l.foldl (fun m e => match e.2 with | .hbm f c _ => aSet m (frameKey c f) 0 | _ => m) x.owners })
  let t := t.devWrite 0x200000 (s.flashRead hostImageAt 0x1000000)
  let d := t.draw
  let n := Config.blobLength d.1 % 0x100000
  let t := d.2.devWrite 0x100000 ((List.range n).map (Config.blobByte d.1 (4096 * l.length)))
  t.startHost 0x200000 0x100000

/-! ## Ready (R413 to R415) -/

/-- READY: logical numbers, the stool set, and in self-hosted mode the host cores. `host` says that the USB
link has trained, its crossing aligned (R277); in PCIe mode a trained PCIe link is a host attachment too. -/
def State.becomeReady (s : State) (host : Bool) : State :=
  if !s.fwOn || s.health.phase != 1 then s
  else
    let t := s.setHealth (fun h => { h with cores := s.fillAll, present := presentMask s.fillAll, usbDepth := if host then 8 else 0 })
    let t := t.powerClusters
    if t.presentChans.isEmpty then t.setHealth (fun h => { h with phase := 6, reason := 1 })
    else if t.health.present = 0 then t.setHealth (fun h => { h with phase := 6, reason := 2 })
    else if t.recovery then t.setHealth (fun h => { h with phase := 6, reason := 3 })
    else if !host && !(t.fw.attach = 0 && t.fw.linkUp) then s
    else
      let t := t.setHealth (fun h => { h with phase := 4, reason := 0, readyMs := min (s.now / 1000000) 0xffff })
      if t.fw.attach = 2 then t.selfStart else t

/-! ## Commands -/

/-- POWER_GOOD (R406). -/
def execPowerGood (on : PowerOn) (r : TestResults) (s : State) : Res :=
  .next (if s.on then s else ({ s with health := { s.health with powered := true } } : State).sameInputs (s.powerUp on.mode r on.epoch))

/-- POWER_GOOD_FALL (R446). -/
def execPowerGoodFall (s : State) : Res := .next s.powerDown

/-- READY (R415). -/
def execReady (host : Bool) (s : State) : Res := whenOn s (s.becomeReady host)

end Sys2Proof.Machine
end

