-- ==== Sys2Proof/Machine/Isp.lean ====
section
/-! DEFINITION. The image pipeline's arithmetic (R309 to R317, R322, R326): every stage computed exactly, rounded once and
clipped. A plane is an array of rows. -/

namespace Sys2Proof.Machine

abbrev Plane := Array (Array Nat)

def Plane.at_ (p : Plane) (x y : Nat) : Nat := (p.getD y #[]).getD x 0

def mkPlane (w h : Nat) (f : Nat → Nat → Nat) : Plane :=
  ((List.range h).map (fun y => ((List.range w).map (fun x => f x y)).toArray)).toArray

/-- An exact fraction rounded once to an integer (R41). -/
def rneInt (n : Int) (d : Nat) : Int := if 0 ≤ n then (rneDiv n.toNat d : Nat) else -((rneDiv (-n).toNat d : Nat) : Int)

def clipTo (m : Nat) (x : Int) : Nat := (min (max x 0) (m : Int)).toNat

def max28 : Nat := 0xfffffff

/-- n / d rounded once and clipped to 28 bits. -/
def rnd28 (n : Int) (d : Nat) : Nat := clipTo max28 (rneInt n d)

/-- A two's-complement field of 16 bits. -/
def sig16 (n : Nat) : Int := if n < 0x8000 then n else (n : Int) - 0x10000

/-! ## The parameter block (R309) -/

def pU16 (b : List Byte) (o i : Nat) : Nat := fld b (o + 2 * i) 2

def pU32 (b : List Byte) (o i : Nat) : Nat := fld b (o + 4 * i) 4

/-- Reserved byte ranges of the block: offset and length. -/
def paramReserved : List (Nat × Nat) :=
  [(2, 2), (50, 2), (65, 3), (86, 2), (100, 28), (320, 192), (1540, 60), (4006, 90)]

/-- The fields outside the tap descriptors lie in range. -/
def paramRange (b : List Byte) : Bool :=
  paramReserved.all (fun r => allZero ((b.drop r.1).take r.2)) &&
    pU32 b 12 0 < pU32 b 12 1 && pU32 b 12 1 ≤ 0xfffff &&
    (List.range 2).all (fun i => 256 ≤ pU16 b 20 i && pU16 b 20 i ≤ 4096) &&
    byteAt b 64 ≤ 4 && (List.range 257).all (fun i => pU32 b 512 i ≤ 0xfffff)

/-! ## Tap descriptors (R315) -/

structure Tap where
  kind   : Nat
  fmt    : Nat
  layout : Nat
  chans  : Nat
  cx     : Nat
  cy     : Nat
  cw     : Nat
  ch     : Nat
  ow     : Nat
  oh     : Nat
  px     : Nat
  py     : Nat
  pw     : Nat
  ph     : Nat
  filter : Nat
  mean   : List Nat
  scale  : List Nat
  pad    : List Nat
  deriving DecidableEq, Repr, Inhabited

def tapBytes (b : List Byte) (i : Nat) : List Byte := (b.drop (128 + 64 * i)).take 64

def parseTap (d : List Byte) : Tap :=
  { kind := byteAt d 0, fmt := byteAt d 1, layout := byteAt d 2, chans := byteAt d 3, cx := pU16 d 4 0, cy := pU16 d 4 1,
    cw := pU16 d 4 2, ch := pU16 d 4 3, ow := pU16 d 12 0, oh := pU16 d 12 1, px := pU16 d 16 0, py := pU16 d 16 1,
    pw := pU16 d 16 2, ph := pU16 d 16 3, filter := byteAt d 24,
    mean := (List.range 3).map (fun c => pU32 d 28 c % 0x1000000), scale := (List.range 3).map (fun c => pU32 d 40 c % 0x1000000),
    pad := (List.range 3).map (pU16 d 52) }

/-- Tap i of a parameter block. -/
def tapAt (b : List Byte) (i : Nat) : Tap := parseTap (tapBytes b i)

/-- A bilinear ratio of placed to crop size within 1/16 to 2. -/
def ratioOk (p c : Nat) : Bool := p ≤ 2 * c && c ≤ 16 * p && p != 0

/-- A descriptor within range for frames of w × h: reserved bytes are 0 in every descriptor. `select` is the colour space select, `none` for a decoder (R326). -/
def tapOk (w h : Nat) (select : Option Nat) (d : List Byte) : Bool :=
  let t := parseTap d
  allZero ((d.drop 25).take 3) && allZero (d.drop 58) &&
  if t.kind = 0 then true
  else
    t.kind ≤ 2 &&
      (if t.kind = 1 then
        ([1, 2, 3, 4].contains t.fmt && t.layout = 0 || [8, 9].contains t.fmt && (t.layout = 0 || t.layout = 2)) &&
          (t.chans = 1 || t.chans = 3)
      else
        (t.fmt = 0x10 || t.fmt = 0x11) && t.layout = 0 && t.chans = 3 && t.ow % 2 = 0 && t.oh % 2 = 0 && select != some 0) &&
      [t.cx, t.cy, t.cw, t.ch].all (fun v => v % 2 = 0) && t.cx + t.cw ≤ w && t.cy + t.ch ≤ h &&
      16 ≤ t.ow && t.ow ≤ 4096 && 16 ≤ t.oh && t.oh ≤ 4096 && t.px + t.pw ≤ t.ow && t.py + t.ph ≤ t.oh && t.filter ≤ 1 &&
      (if t.filter = 0 then t.pw ≤ t.cw && t.ph ≤ t.ch else ratioOk t.pw t.cw && ratioOk t.ph t.ch)

/-! ## Slot layout (R317) -/

/-- Elements of a tensor tap. -/
def Tap.elems (t : Tap) : Nat := if t.layout = 2 then t.ow * t.oh * 16 else t.ow * t.oh * t.chans

/-- Bytes of plane 0 and of plane 1. -/
def Tap.planes (t : Tap) : Nat × Nat :=
  if t.kind = 2 then
    let k := if t.fmt = 0x11 then 2 else 1
    (t.ow * t.oh * k, t.ow * t.oh / 2 * k)
  else if isMx t.fmt then
    let n := (t.elems + 31) / 32
    (n * mxBytes t.fmt, n)
  else (t.elems * elemBytes t.fmt, 0)

/-- Offset of plane 1: the next multiple of 4,096 after plane 0. -/
def Tap.plane1 (t : Tap) : Nat := (4096 + t.planes.1 + 4095) / 4096 * 4096

/-- Bytes that a slot needs. -/
def Tap.slotBytes (t : Tap) : Nat := if t.planes.2 = 0 then 4096 + t.planes.1 else t.plane1 + t.planes.2

/-! ## Stages 1 to 3 -/

/-- Bits of a raw data type (R304). -/
def rawBits : Nat → Nat
  | 0x2a => 8
  | 0x2b => 10
  | 0x2c => 12
  | 0x2d => 14
  | 0x2e => 16
  | 0x2f => 20
  | _ => 0

/-- Place of a site in the CFA order. -/
def sitePos (x y : Nat) : Nat := y % 2 * 2 + x % 2

/-- Stage 1 (R311). -/
def linearise (b : List Byte) (width x y code : Nat) : Nat :=
  let u := (code - pU16 b 4 (sitePos x y)) * 2 ^ (20 - width)
  let t0 : Int := (pU32 b 512 (u / 4096) : Nat)
  let t1 : Int := (pU32 b 512 (u / 4096 + 1) : Nat)
  clipTo 0xfffff (rneInt (t0 * 4096 + (t1 - t0) * ((u % 4096 : Nat) : Int)) 4096)

/-- The weight of R312 in units of 1 / (t1 - t0). -/
def mergeWeight (t0 t1 l : Nat) : Nat := if l ≤ t0 then 0 else if t1 ≤ l then t1 - t0 else l - t0

/-- Stage 2 (R312) on one site's exposures, longest first. -/
def mergeExp (b : List Byte) (l : List Nat) : Nat :=
  let t0 := pU32 b 12 0
  let t1 := pU32 b 12 1
  let d := t1 - t0
  let w := mergeWeight t0 t1
  match l with
  | [l1] => l1
  | [l1, l2] => rnd28 ((l1 * (d - w l1) * 256 + l2 * pU16 b 20 0 * w l1 : Nat) : Int) (256 * d)
  | l1 :: l2 :: l3 :: _ =>
    let m := l1 * (d - w l1) * 256 + l2 * pU16 b 20 0 * w l1
    rnd28 ((m * (d - w l2) + l3 * pU16 b 20 1 * w l2 * d : Nat) : Int) (256 * d * d)
  | [] => 0

/-- Stage 3. -/
def whiteBalance (b : List Byte) (x y v : Nat) : Nat := rnd28 ((v * pU16 b 24 (sitePos x y) : Nat) : Int) 4096

/-! ## Stage 4: demosaic (R314) -/

/-- Colour of a site: 0 red, 1 green, 2 blue (R306: RGGB, GRBG, GBRG, BGGR). -/
def cfaColour (order x y : Nat) : Nat :=
  match order with
  | 0 => [0, 1, 1, 2].getD (sitePos x y) 1
  | 1 => [1, 0, 2, 1].getD (sitePos x y) 1
  | 2 => [1, 2, 0, 1].getD (sitePos x y) 1
  | _ => [2, 1, 1, 0].getD (sitePos x y) 1

/-- A coordinate reflected about the edge without repeating it. -/
def reflect (n : Nat) (k : Int) : Nat :=
  if k < 0 then (-k).toNat else if (n : Int) ≤ k then (2 * (n : Int) - 2 - k).toNat else k.toNat

/-- The value at a reflected place. -/
def Plane.rf (p : Plane) (w h : Nat) (x y : Int) : Int := ((p.at_ (reflect w x) (reflect h y) : Nat) : Int)

/-- Pick the estimate of the smaller gradient, or the mean; estimates in quarters. -/
def pickEst (d1 d2 e1 e2 : Int) : Nat :=
  if d1 < d2 then rnd28 e1 4 else if d2 < d1 then rnd28 e2 4 else rnd28 (e1 + e2) 8

def absI (x : Int) : Int := if x < 0 then -x else x

/-- Pass 1 at a red or blue site. -/
def greenEst (v : Plane) (w h : Nat) (x y : Nat) : Nat :=
  let p := fun (dx dy : Int) => v.rf w h ((x : Int) + dx) ((y : Int) + dy)
  let cH := 2 * p 0 0 - p (-2) 0 - p 2 0
  let cV := 2 * p 0 0 - p 0 (-2) - p 0 2
  pickEst (absI (p (-1) 0 - p 1 0) + absI cH) (absI (p 0 (-1) - p 0 1) + absI cV)
    (2 * (p (-1) 0 + p 1 0) + cH) (2 * (p 0 (-1) + p 0 1) + cV)

def greenPass (order w h : Nat) (v : Plane) : Plane :=
  mkPlane w h (fun x y => if cfaColour order x y = 1 then v.at_ x y else greenEst v w h x y)

/-- Pass 2 at a green site, along one axis. -/
def lineEst (v g : Plane) (w h : Nat) (x y : Nat) (dx dy : Int) : Nat :=
  let a := fun (p : Plane) (k : Int) => p.rf w h ((x : Int) + k * dx) ((y : Int) + k * dy)
  rnd28 (a v (-1) + a v 1 + (2 * a g 0 - a g (-1) - a g 1)) 2

/-- Pass 3 at a red or blue site. -/
def diagEst (v g : Plane) (w h : Nat) (x y : Nat) : Nat :=
  let p := fun (q : Plane) (dx dy : Int) => q.rf w h ((x : Int) + dx) ((y : Int) + dy)
  let c1 := 2 * p g 0 0 - p g (-1) (-1) - p g 1 1
  let c2 := 2 * p g 0 0 - p g 1 (-1) - p g (-1) 1
  pickEst (absI (p v (-1) (-1) - p v 1 1) + absI c1) (absI (p v 1 (-1) - p v (-1) 1) + absI c2)
    (2 * (p v (-1) (-1) + p v 1 1) + 2 * c1) (2 * (p v 1 (-1) + p v (-1) 1) + 2 * c2)

/-- One colour at one site after the three passes. -/
def siteColour (order w h : Nat) (v g : Plane) (c x y : Nat) : Nat :=
  let own := cfaColour order x y
  if c = own then v.at_ x y
  else if c = 1 then g.at_ x y
  else if own = 1 then
    if cfaColour order (x + 1) y = c then lineEst v g w h x y 1 0 else lineEst v g w h x y 0 1
  else diagEst v g w h x y

/-- Stage 4: red, green and blue planes; monochrome copies (R310). -/
def demosaic (order w h : Nat) (v : Plane) : List Plane :=
  if order = 4 then [v, v, v]
  else
    let g := greenPass order w h v
    [mkPlane w h (siteColour order w h v g 0), g, mkPlane w h (siteColour order w h v g 2)]

/-! ## Stages 5 to 7 -/

/-- Stage 5: one output channel. -/
def colourMatrix (b : List Byte) (c : Nat) (r g bl : Nat) : Nat :=
  let m := fun i => sig16 (pU16 b 32 (3 * c + i))
  rnd28 (m 0 * (r : Int) + m 1 * (g : Int) + m 2 * (bl : Int) + 4096 * signed32 (pU32 b 52 c)) 4096

/-- Stage 6 (R313). -/
def toneCurve (b : List Byte) (c v : Nat) : Nat :=
  let t := fun i => ((pU16 b (1600 + 802 * c) i : Nat) : Int)
  if v < 16 then (t v).toNat
  else
    let o := v.log2
    let q := 16 * (v - 2 ^ o)
    let i := 16 * (o - 3) + q / 2 ^ o
    clipTo 0xffff (rneInt (t i * (2 ^ o : Nat) + (t (i + 1) - t i) * ((q % 2 ^ o : Nat) : Int)) (2 ^ o))

/-- The luma weights of ITU-R BT.601 and BT.709 in units of 1/10,000: red, blue (PRESUMED, log entry 27). -/
def lumaWeights (bt601 : Bool) : Int × Int := if bt601 then (2990, 1140) else (2126, 722)

/-- Stage 7 for full and limited range: channel c of Y, Cb, Cr, an 8-bit code x standing at 257x (PRESUMED, log entry 27). -/
def toYcc (bt601 full : Bool) (c : Nat) (r g b : Nat) : Nat :=
  let k := lumaWeights bt601
  let y : Int := k.1 * (r : Int) + (10000 - k.1 - k.2) * (g : Int) + k.2 * (b : Int)
  match c with
  | 0 => if full then clipTo 0xffff (rneInt y 10000) else clipTo 0xffff (rneInt (219 * y + 4112 * 2550000) 2550000)
  | _ =>
    let w := if c = 1 then k.2 else k.1
    let e : Int := (10000 * ((if c = 1 then b else r : Nat) : Int) - y)
    let d := 2 * (10000 - w)
    if full then clipTo 0xffff (rneInt (e + 32896 * d) d.toNat)
    else clipTo 0xffff (rneInt (224 * e + 32896 * 255 * d) (255 * d).toNat)

/-- Stage 7: channel c of the output. -/
def colourSpace (b : List Byte) (c : Nat) (r g bl : Nat) : Nat :=
  match byteAt b 64 with
  | 0 => [r, g, bl].getD c 0
  | 1 => toYcc true true c r g bl
  | 2 => toYcc false true c r g bl
  | 3 => toYcc false false c r g bl
  | _ =>
    let m := fun i => sig16 (pU16 b 68 (3 * c + i))
    clipTo 0xffff (rneInt (m 0 * (r : Int) + m 1 * (g : Int) + m 2 * (bl : Int) + 4096 * signed32 (pU32 b 88 c)) 4096)

/-- A 16-bit R, G or B from the 16-bit Y, Cb, Cr of a decoded picture (R326): the inverse of the colour matrix on codes of 8
or 10 bits (PRESUMED, log entry 27). -/
def fromYcc (bt601 full deep : Bool) (c : Nat) (y cb cr : Nat) : Nat :=
  let k := lumaWeights bt601
  let kg := 10000 - k.1 - k.2
  let q : Int := if deep then 4 else 1
  let n : Int := if deep then 1023 else 255
  let yn : Int := if full then y * n else y * n - 16 * q * 65535
  let yd : Int := if full then n else 219 * q
  let b : Int := cb * n - 128 * q * 65535
  let r : Int := cr * n - 128 * q * 65535
  let cd : Int := if full then n else 224 * q
  match c with
  | 0 => clipTo 0xffff (rneInt (yn * cd * 10000 + 2 * (10000 - k.1) * r * yd) (yd * cd * 10000).toNat)
  | 2 => clipTo 0xffff (rneInt (yn * cd * 10000 + 2 * (10000 - k.2) * b * yd) (yd * cd * 10000).toNat)
  | _ => clipTo 0xffff (rneInt (yn * cd * 10000 * kg - (2 * (10000 - k.2) * k.2 * b + 2 * (10000 - k.1) * k.1 * r) * yd)
      (yd * cd * 10000 * kg).toNat)

/-! ## Output taps (R316) -/

/-- Covered length of source pixel i in output sample o, in units of 1 / p. -/
def overlapOf (c p o i : Nat) : Nat := min ((i + 1) * p) ((o + 1) * c) - max (i * p) (o * c)

/-- Pixels that output sample o covers. -/
def footprint (c p o : Nat) : List Nat :=
  (List.range (((o + 1) * c + p - 1) / p - o * c / p)).map (· + o * c / p)

def areaSample (v : Plane) (t : Tap) (ox oy : Nat) : Nat :=
  let s := ((footprint t.ch t.ph oy).map (fun j =>
    ((footprint t.cw t.pw ox).map (fun i =>
      overlapOf t.cw t.pw ox i * overlapOf t.ch t.ph oy j * v.at_ (t.cx + i) (t.cy + j))).sum)).sum
  rneDiv s (t.cw * t.ch)

/-- Source position of a bilinear sample: whole part and remainder in units of 1 / 2p. -/
def bilinearPos (c p o : Nat) : Nat × Nat :=
  let n := min ((2 * o + 1) * c - p) (2 * p * (c - 1))
  (n / (2 * p), n % (2 * p))

def bilinearSample (v : Plane) (t : Tap) (ox oy : Nat) : Nat :=
  let x := bilinearPos t.cw t.pw ox
  let y := bilinearPos t.ch t.ph oy
  let at_ := fun i j => v.at_ (t.cx + min (x.1 + i) (t.cw - 1)) (t.cy + min (y.1 + j) (t.ch - 1))
  let a := 2 * t.pw
  let b := 2 * t.ph
  rneDiv (at_ 0 0 * (a - x.2) * (b - y.2) + at_ 1 0 * x.2 * (b - y.2) + at_ 0 1 * (a - x.2) * y.2 + at_ 1 1 * x.2 * y.2) (a * b)

/-- The 16-bit value v of channel c at an output place. -/
def tapValue (img : List Plane) (t : Tap) (c x y : Nat) : Nat :=
  if t.px ≤ x && x < t.px + t.pw && t.py ≤ y && y < t.py + t.ph then
    let v := img.getD c #[]
    if t.filter = 0 then areaSample v t (x - t.px) (y - t.py) else bilinearSample v t (x - t.px) (y - t.py)
  else t.pad.getD c 0

/-- A tensor sample at its exact value. -/
def tensorValue (img : List Plane) (t : Tap) (c x y : Nat) : Num :=
  ((Num.fin false (tapValue img t c x y) 65535).sub (v24 (t.mean.getD c 0))).mul (v24 (t.scale.getD c 0))

/-- The elements of a tensor tap in the order of its layout. -/
def tapElems (img : List Plane) (t : Tap) : List Num :=
  (List.range t.oh).flatMap (fun y => (List.range t.ow).flatMap (fun x =>
    if t.layout = 2 then
      (List.range 16).map (fun c => if c < t.chans then tensorValue img t c x y else .fin false 0 1)
    else (List.range t.chans).map (fun c => tensorValue img t c x y)))

/-- Planes of a tensor tap and its saturations. -/
def tensorPlanes (img : List Plane) (t : Tap) : List Byte × List Byte × Nat :=
  match fmtOf t.fmt with
  | none => ([], [], 0)
  | some f =>
    if isMx t.fmt then
      let bs := (chunks 32 (tapElems img t)).map (fun l =>
        mxChosen t.fmt f (l ++ List.replicate (32 - l.length) (.fin false 0 1)))
      (bs.flatMap (fun b => packBlock t.fmt b.codes), bs.map (fun b => BitVec.ofNat 8 b.scale), satCount (bs.map MxOut.sat).sum)
    else
      let es := (tapElems img t).map (encode f false)
      (es.flatMap (fun e => toLE (elemBytes t.fmt) e.1), [], satCount (es.map (fun e => e.2.sat)).sum)

/-- A 16-bit value, or n of them summed, in 8 bits (NV12) or in the upper 10 bits of a word (P010), rounded once (log entry
28). -/
def picSample (deep : Bool) (sum n : Nat) : List Byte :=
  if deep then toLE 2 (rneDiv (sum * 1023) (65535 * n) * 64) else toLE 1 (rneDiv (sum * 255) (65535 * n))

/-- Planes of a picture tap: luma, then interleaved chroma. -/
def picturePlanes (img : List Plane) (t : Tap) : List Byte × List Byte :=
  let deep := t.fmt = 0x11
  let luma := (List.range t.oh).flatMap (fun y => (List.range t.ow).flatMap (fun x => picSample deep (tapValue img t 0 x y) 1))
  let quad := fun c x y => tapValue img t c (2 * x) (2 * y) + tapValue img t c (2 * x + 1) (2 * y) +
    tapValue img t c (2 * x) (2 * y + 1) + tapValue img t c (2 * x + 1) (2 * y + 1)
  let chroma := (List.range (t.oh / 2)).flatMap (fun y => (List.range (t.ow / 2)).flatMap (fun x =>
    picSample deep (quad 1 x y) 4 ++ picSample deep (quad 2 x y) 4))
  (luma, chroma)

/-- Plane 0, plane 1 and saturations of a tap. -/
def tapPlanes (img : List Plane) (t : Tap) : List Byte × List Byte × Nat :=
  if t.kind = 2 then
    let p := picturePlanes img t
    (p.1, p.2, 0)
  else tensorPlanes img t

/-! ## Statistics (R322) -/

/-- The 256-bin histogram of luma after stage 6. -/
def histogram (w h : Nat) (rgb : List Plane) : List Byte :=
  let p := fun c x y => (rgb.getD c #[]).at_ x y
  let bins := (List.range h).foldl (fun (a : Array Nat) y => (List.range w).foldl (fun (a : Array Nat) x =>
    let i := rneDiv (p 0 x y + 2 * p 1 x y + p 2 x y) 4 / 256
    a.setIfInBounds i (a.getD i 0 + 1)) a) (Array.replicate 256 0)
  bins.toList.flatMap (toLE 4)

/-- The 96 zones of stage-5 sums, row by row. -/
def zones (w h : Nat) (rgb : List Plane) : List Byte :=
  (List.range 6).flatMap (fun zy => (List.range 16).flatMap (fun zx =>
    let xs := (List.range w).filter (fun x => zx * w / 16 ≤ x && x < (zx + 1) * w / 16)
    let ys := (List.range h).filter (fun y => zy * h / 6 ≤ y && y < (zy + 1) * h / 6)
    (List.range 3).flatMap (fun c =>
      toLE 8 ((ys.map (fun y => (xs.map (fun x => (rgb.getD c #[]).at_ x y)).sum)).sum)) ++ toLE 4 (xs.length * ys.length)))

end Sys2Proof.Machine
end

