-- ==== Sys2Proof/Machine/Camera.lean ====
section
/-! DEFINITION. Camera ports, contexts and lock groups (R304 to R324, R331, R332, R426). -/

namespace Sys2Proof.Machine

/-! ## Units and loads -/

def State.ctx? (s : State) (c : Nat) : Option Ctx := aGet s.media.ctxs c

def State.setCtx (s : State) (c : Nat) (f : Ctx → Ctx) : State := s.setMedia (fun m => { m with ctxs := aMod m.ctxs c f })

def State.setPort (s : State) (p : Nat) (f : Port → Port) : State := s.setMedia (fun m => { m with ports := lMod m.ports p f })

def State.port (s : State) (p : Nat) : Port := s.media.ports.getD p Port.reset

/-- Contexts of the grade (R306). -/
def State.ctxCount (s : State) : Nat := if s.fuses.grade = 3 then 32 else 64

/-- A context's load in thousandths of a pixel per second (R307). -/
def Ctx.load (c : Ctx) : Nat := c.width * c.height * c.exps * c.rate

def State.pipeCtxs (s : State) (p : Nat) : List (Nat × Ctx) := s.media.ctxs.filter (fun e => e.2.pipe = p)

/-- Sum of a pipeline's loads. -/
def State.pipeLoad (s : State) (p : Nat) : Nat := ((s.pipeCtxs p).map (fun e => e.2.load)).sum

/-- Slots of a pipeline that are not retired (R426). -/
def State.slotsLeft (s : State) (p : Nat) : Nat := 32 - (s.media.badSlots.filter (fun u => u / 32 = p)).length

/-- The slots of a pipeline that no context holds and that are not retired, lowest first. -/
def State.freeSlots (s : State) (p : Nat) : List Nat :=
  (List.range 32).filter (fun k =>
    !s.media.badSlots.contains (32 * p + k) && (s.pipeCtxs p).all (fun e => e.2.slot != k || e.2.st = 4))

/-- Ring field: 0xffff names none. -/
def ringField (b : List Byte) (o : Nat) : Option Nat := if fld b o 2 = 0xffff then none else some (fld b o 2)

/-- At least 4 s of frames at a rate limit in millihertz. -/
def ringDeep (r : Ring) (rate : Nat) : Bool := 4 * rate ≤ r.slots * 1000

/-- A named ingest ring is the sender's, free, large and deep enough (R307 status 0x33). -/
def State.ingestOk (s : State) (f rate need : Nat) (n : Option Nat) : Bool :=
  match n with
  | none => true
  | some n => s.ringUnused f n 4 && match s.ring? n with
    | some r => need ≤ 2 ^ r.slotLog && ringDeep r rate
    | none => false

/-- No ring is named twice. -/
def ringsDistinct (l : List (Option Nat)) : Bool := decide (l.filterMap id).Nodup

/-- Bind or unbind the rings of a media unit. -/
def State.mediaRings (s : State) (l : List (Option Nat)) (on : Bool) : State :=
  (l.filterMap id).foldl (fun t n => t.setRing n (fun r => { r with media := on })) s

/-- Bytes that a tap of a parameter block needs in its slot. -/
def tapNeed (params : List Byte) (i : Nat) : Nat :=
  if (tapAt params i).kind = 0 then 0 else (tapAt params i).slotBytes

/-- Retire a unit of the media chapter: record, notice 0x4003 and event-log entry. -/
def State.retireMedia (s : State) (kind unit : Nat) : State :=
  ((s.recordRet kind unit 0).noticeUnit kind unit 0xff 0 []).logRet kind unit 0

/-! ## Setup (R306 to R308) -/

def rawTypes : List Nat := [0x2a, 0x2b, 0x2c, 0x2d, 0x2e, 0x2f, 0x24, 0x1e]

/-- Fields of a context-setup body in range, other than those that other statuses name. -/
def ctxRange (b : List Byte) : Bool :=
  byteAt b 2 ≤ 15 && rawTypes.contains (byteAt b 3) && 64 ≤ fld b 4 2 && fld b 4 2 ≤ 8192 && fld b 4 2 % 2 = 0 &&
    64 ≤ fld b 6 2 && fld b 6 2 ≤ 8192 && fld b 6 2 % 2 = 0 && 1000 ≤ fld b 8 4 && fld b 8 4 ≤ 240000 &&
    1 ≤ byteAt b 13 && byteAt b 13 ≤ (if byteAt b 3 = 0x24 || byteAt b 3 = 0x1e then 1 else 3) &&
    byteAt b 2 + byteAt b 13 ≤ 16 && (byteAt b 3 = 0x24 || byteAt b 3 = 0x1e || byteAt b 15 ≤ 4) &&
    fld b 24 8 % 4096 = 0 && allZero (b.drop 32)

/-- A parameter block and its tap descriptors in range for frames of w × h. -/
def paramOk (w h : Nat) (params : List Byte) : Bool :=
  paramRange params && (List.range 3).all (fun i => tapOk w h (some (byteAt params 64)) (tapBytes params i))

/-- The context that a setup body describes. -/
def ctxOf (f : Nat) (b params : List Byte) : Ctx :=
  { st := 1, owner := f, port := byteAt b 1, vc := byteAt b 2, dt := byteAt b 3, width := fld b 4 2, height := fld b 6 2,
    rate := fld b 8 4, pipe := byteAt b 12, exps := byteAt b 13,
    group := if byteAt b 14 = 0xff then none else some (byteAt b 14), cfa := byteAt b 15, stat := ringField b 16,
    taps := [ringField b 18, ringField b 20, ringField b 22], params := params, pend := none, slot := 0, nextNum := 0,
    frame := none, lastDone := 0, dropped := 0, missed := 0, window := none }

/-- The first failing status of R307, or 0. -/
def State.ctxStatus (s : State) (f : Nat) (b : List Byte) : Nat :=
  let c := ctxOf f b (s.devRead (fld b 24 8) 4096)
  let g := match c.group with
    | some g => (match aGet s.media.groups g with | some x => x.owner = f | none => false)
    | none => true
  let okBlock := s.fnReads f (fld b 24 8) 4096
  if s.ctxCount ≤ byteAt b 0 || (s.ctx? (byteAt b 0)).isSome then 0x30
  else if 4 ≤ c.port || (s.port c.port).retired || 2 ≤ c.pipe || (s.fuses.grade = 3 && c.pipe = 1) || !g then 0x31
  else if 2000000000000 < s.pipeLoad c.pipe + c.load || min 32 (s.slotsLeft c.pipe) ≤ (s.pipeCtxs c.pipe).length then 0x32
  else if !(s.ingestOk f c.rate 4096 c.stat &&
      (List.range 3).all (fun i => s.ingestOk f c.rate (if okBlock then tapNeed c.params i else 0) (c.taps.getD i none)) &&
      ringsDistinct (c.stat :: c.taps) &&
      (match c.stat with | some n => (match s.ring? n with | some r => r.slotLog = 12 | none => false) | none => true)) then 0x33
  else if !(ctxRange b && okBlock && paramOk c.width c.height c.params) then 0x34
  else 0

/-- Take the first free slot of a pipeline that passes its march test; slots that fail are retired (R426). -/
def State.takeSlot (s : State) (pipe : Nat) (bad : List Nat) : List Nat → State × Option Nat
  | [] => (s, none)
  | k :: t =>
    if bad.contains k then
      ((s.setMedia (fun m => { m with badSlots := m.badSlots ++ [32 * pipe + k] })).retireMedia 7 (32 * pipe + k)).takeSlot
        pipe bad t
    else (s, some k)

/-- A port has a permanent fault (R305): it is retired, and its contexts enter state 4 (R331). -/
def State.retirePort (s : State) (p : Nat) : State :=
  let t := s.setPort p (fun q => { q with locked := false, retired := true, depth := 0 })
  let t := t.setMedia (fun m => { m with ctxs := m.ctxs.map (fun e =>
    if e.2.port = p then (e.1, { e.2 with st := 4, frame := none, window := none }) else e) })
  t.retireMedia 6 p

/-- Enable a port at its first context (log entry 26): its lanes lock and its crossings are aligned to 4 words (R277, R305), or, where
`lock` says that they fail to lock after three retrains, it is retired. -/
def State.enablePort (s : State) (p : Nat) (lock : Bool) : State :=
  if (s.port p).enabled then s
  else
    let d := s.draw
    let rate := Config.portRate d.1 % 8192
    let depth := if lock then 4 else 0
    let t := d.2.setPort p (fun q => { q with
      enabled := true, locked := lock, lanes := Config.portLanes d.1 % 3, rate := rate, deskew := decide (1500 < rate), depth := depth })
    if lock then t else t.retirePort p

/-- Context setup (R307). -/
def actCtxSetup (lock : Bool) (bad : List Nat) (s : State) (r : Req) : State × Option (Nat × List Byte) :=
  let st := s.ctxStatus r.fn r.body
  if st != 0 then (s, some (st, []))
  else
    let s := s.touchBlock r.fn (fld r.body 24 8)
    let c := ctxOf r.fn r.body (s.devRead (fld r.body 24 8) 4096)
    let t := s.takeSlot c.pipe bad (s.freeSlots c.pipe)
    let c := match t.2 with
      | some k => { c with slot := k }
      | none => { c with st := 4 }
    let u := t.1.mediaRings (c.stat :: c.taps) true
    let u := u.setMedia (fun m => { m with ctxs := aSet m.ctxs (byteAt r.body 0) c })
    (u.enablePort c.port lock, some (0, []))

/-- Context parameter (R308): status 0x34 for the block and the context's number, then 0x33 for the slots. -/
def actCtxParam (s : State) (r : Req) : State × Option (Nat × List Byte) :=
  let a := fld r.body 8 8
  match s.ctx? (byteAt r.body 0) with
  | none => (s, some (0x34, []))
  | some c =>
    if c.owner != r.fn || !allZero ((r.body.drop 1).take 7) || a % 4096 != 0 || !s.fnReads r.fn a 4096 ||
        !paramOk c.width c.height (s.devRead a 4096) then (s, some (0x34, []))
    else
      let p := s.devRead a 4096
      let fits := (List.range 3).all (fun i => match c.taps.getD i none with
        | some n => (match s.ring? n with | some g => tapNeed p i ≤ 2 ^ g.slotLog | none => false)
        | none => true)
      if !fits then (s, some (0x33, []))
      else ((s.touchBlock r.fn a).setCtx (byteAt r.body 0) (fun c => { c with pend := some p }), some (0, []))

/-! ## Stop (R307, R382) -/

/-- Free a context: a frame in progress is discarded and its slots stay unwritten. -/
def State.freeCtx (s : State) (n : Nat) : State :=
  match s.ctx? n with
  | some c => (s.mediaRings (c.stat :: c.taps) false).setMedia (fun m => { m with ctxs := aErase m.ctxs n })
  | none => s

/-- One stop message: it is the event of its own kind only. A kind that R382 does not list counts with kind 0 and is out of
range. -/
def stopMessage (p kind : Nat) (act : Act) (s : State) : State :=
  match s.request p with
  | some r =>
    let k := byteAt r.body 1
    if r.type = 0x0022 && (if 3 < k then 0 else k) = kind then s.serveReq r act else s
  | none => s

def actStopCtx (s : State) (r : Req) : State × Option (Nat × List Byte) :=
  match s.ctx? (byteAt r.body 0) with
  | some c =>
    if byteAt r.body 1 != 0 || fld r.body 2 2 != 0 || c.owner != r.fn then (s, some (0x34, []))
    else (s.freeCtx (byteAt r.body 0), some (0, []))
  | none => (s, some (0x34, []))

/-! ## Lock groups (R323, R324) -/

def lockUnit : Nat := 65536

/-- T_k in units of 2^-16 ns. -/
def LockGroup.t (g : LockGroup) (k : Nat) : Nat := g.epoch + k * g.period

/-- The first k with T_k at or after an instant. -/
def firstTrigger (epoch period now : Nat) : Nat :=
  if now * lockUnit ≤ epoch then 0 else (now * lockUnit - epoch + period - 1) / period

def lockRange (b : List Byte) : Bool :=
  byteAt b 0 ≤ 15 && byteAt b 3 = 0 && 1000000 ≤ fld b 16 4 && fld b 16 4 ≤ 1000000000 && 100 ≤ fld b 20 4 &&
    fld b 20 4 ≤ 1000000 && fld b 20 4 < fld b 16 4 && 2 * fld b 24 4 ≤ fld b 16 4 && allZero (b.drop 28)

def State.groupMembers (s : State) (g : Nat) : List (Nat × Ctx) := s.media.ctxs.filter (fun e => e.2.group = some g)

/-- Lock-group setup (R323): refused with 0x34 while it has members, when a pin serves another group, or out of range. -/
def actLockSetup (s : State) (r : Req) : State × Option (Nat × List Byte) :=
  let b := r.body
  let n := byteAt b 0
  let taken := s.media.groups.any (fun e => e.1 != n && e.2.pins &&& byteAt b 1 != 0)
  let foreign := match aGet s.media.groups n with
    | some g => g.owner != r.fn
    | none => false
  if !lockRange b || !(s.groupMembers n).isEmpty || taken || foreign then (s, some (0x34, []))
  else
    let epoch := fld b 4 8 * lockUnit + fld b 12 2
    let period := fld b 16 4 * lockUnit + fld b 14 2
    let g : LockGroup := { owner := r.fn, pins := byteAt b 1, polarity := byteAt b 2, epoch := epoch, period := period,
                           pulse := fld b 20 4, window := fld b 24 4, next := firstTrigger epoch period s.now, high := none }
    (s.setMedia (fun m => { m with groups := aSet m.groups n g }), some (0, []))

def actStopGroup (s : State) (r : Req) : State × Option (Nat × List Byte) :=
  match aGet s.media.groups (byteAt r.body 0) with
  | some g =>
    if fld r.body 2 2 != 0 || g.owner != r.fn || !(s.groupMembers (byteAt r.body 0)).isEmpty then (s, some (0x34, []))
    else (s.setMedia (fun m => { m with groups := aErase m.groups (byteAt r.body 0) }), some (0, []))
  | none => (s, some (0x34, []))

/-- A locked context's window closes: a trigger that no frame took counts as missed. -/
def Ctx.closeWindow (c : Ctx) : Ctx :=
  match c.window with
  | some (_, _, false) => { c with window := none, missed := inc32 c.missed }
  | some _ => { c with window := none }
  | none => c

/-- Contexts that take frames. -/
def Ctx.live (c : Ctx) : Bool := c.st = 1 || c.st = 2

/-- The time base reaches T_k: the pins assert for the pulse width and each member's window opens. -/
def State.fire (s : State) (n : Nat) : State :=
  match aGet s.media.groups n with
  | none => s
  | some g =>
    let at_ := g.t g.next / lockUnit
    if s.now < at_ then s
    else s.setMedia (fun m => { m with
      groups := aSet m.groups n { g with next := g.next + 1, high := some (at_ + g.pulse) },
      ctxs := m.ctxs.map (fun e =>
        if e.2.group = some n && e.2.live then (e.1, { e.2.closeWindow with window := some (g.next % M32, at_, false) }) else e) })

/-- The window of a group's trigger lies behind the present instant. -/
def State.windowPast (s : State) (c : Ctx) : Bool :=
  match c.window, c.group.bind (aGet s.media.groups) with
  | some w, some g => decide (w.2.1 + g.window < s.now)
  | _, _ => false

/-- The level of trigger pin i: asserted, under its group's polarity, while a pulse lasts. -/
def State.triggerPin (s : State) (i : Nat) : Bool :=
  match s.media.groups.find? (fun e => bit e.2.pins i) with
  | some e => (match e.2.high with | some a => decide (s.now < a) | none => false) != bit e.2.polarity i
  | none => false

/-! ## Frames (R319, R320) -/

/-- The first page of a range that the ring's owner may not write. -/
def State.badPage (s : State) (f a n : Nat) : Option Nat :=
  if s.inFn f a n then (pagesOf a n).find? (fun v => !s.entryWrites (s.xentry v)) else some (pageOf a)

/-- What taking a slot came to: a slot, a drop for that tap, or an index word that cannot be written. -/
inductive SlotTaken where
  | slot (k : TapSlot)
  | dropped
  | failed (page : Nat)
  deriving DecidableEq, Repr

/-- Take a slot of an ingest ring (R320). A ring whose device side has stopped gives none (R288). -/
def State.takeIngest (s : State) (rn : Nat) (orphan : Bool) : Nat → State × SlotTaken
  | 0 => (s, .dropped)
  | fuel + 1 =>
    match s.ring? rn with
    | none => (s, .dropped)
    | some r =>
      if r.stopped then (s, .dropped)
      else match s.badPage r.owner (r.base - 16) 16 with
        | some v => (s, .failed v)
        | none =>
          if r.held = r.slots then
            if orphan then ((s.setRing rn (fun x => { x with c := (x.c + 1) % M32 })).ringIndexWord rn).takeIngest rn orphan fuel
            else (s, .dropped)
          else if s.pinned rn (r.p % r.slots) then (s.ringAdvP rn).takeIngest rn orphan fuel
          else (s, .slot { ring := rn, index := r.p })

/-- What taking slots on several rings came to: the slots, the number of drops, and the page of a failed translation. -/
structure Taken where
  slots : List (Option TapSlot)
  drops : Nat
  fail  : Option Nat
  deriving DecidableEq, Repr

/-- Note the outcome on one more ring. -/
def Taken.add (t : Taken) : SlotTaken → Taken
  | .slot k => { t with slots := t.slots ++ [some k] }
  | .dropped => { t with slots := t.slots ++ [none], drops := t.drops + 1 }
  | .failed v => { t with slots := t.slots ++ [none], fail := some v }

/-- Take a slot on each ring of a list. -/
def State.takeSlots (s : State) (f : Nat) (l : List (Option Nat)) : State × Taken :=
  l.foldl (fun a n => match n with
    | none => (a.1, { a.2 with slots := a.2.slots ++ [none] })
    | some n =>
      let fuel := match a.1.ring? n with | some r => 2 * r.slots + 2 | none => 0
      let t := a.1.takeIngest n (a.1.func f).orphan fuel
      (t.1, a.2.add t.2)) (s, { slots := [], drops := 0, fail := none })

/-- Rings of the taps that are on, and of the statistics. -/
def Ctx.frameRings (c : Ctx) : List (Option Nat) :=
  (List.range 3).map (fun i => if (tapAt c.params i).kind = 0 then none else c.taps.getD i none) ++ [c.stat]

/-- Counts of `isp.ctx_dropped`. -/
def addStop (n k : Nat) : Nat := min (n + k) 0xffffffff

/-- A slot of R318: what a written frame says of itself. -/
structure SlotInfo where
  number : Nat
  start  : Nat
  source : Nat
  tap    : Nat
  status : Nat
  gen    : Nat
  pts    : Nat
  deriving DecidableEq, Repr

/-- The 256-byte header. `dims` are format, layout, channels, width, height; planes as offset and length. -/
def slotHeader (i : SlotInfo) (index stop : Nat) (fmt layout chans w h sat : Nat) (p0 p1 : Nat × Nat) : List Byte :=
  padTo 256 (toLE 4 index ++ toLE 4 i.number ++ toLE 8 i.start ++ toLE 8 stop ++ toLE 1 i.source ++ toLE 1 i.tap ++
    toLE 1 i.status ++ toLE 1 fmt ++ toLE 1 layout ++ toLE 1 chans ++ toLE 2 i.gen ++ toLE 2 w ++ toLE 2 h ++ toLE 4 sat ++
    toLE 4 p0.1 ++ toLE 4 p0.2 ++ toLE 4 p1.1 ++ toLE 4 p1.2 ++ toLE 8 i.pts)

/-- The header of a tap's slot. -/
def tapHeader (i : SlotInfo) (index stop sat : Nat) (t : Tap) : List Byte :=
  slotHeader i index stop t.fmt (if t.kind = 2 then 0 else t.layout) t.chans t.ow t.oh sat (4096, t.planes.1)
    (if t.planes.2 = 0 then (0, 0) else (t.plane1, t.planes.2))

/-- What a write of a slot came to: written, dropped because its slot is pinned now, or a failed translation. -/
inductive SlotEnd where
  | written | dropped
  | failed (page : Nat)
  deriving DecidableEq, Repr

/-- Write pieces (offset, bytes) of a slot in order, then advance P under R249 and signal the flag of R246. A slot that a pin has taken
since stays unwritten (R255; log entry 29), and so does one of a ring that has stopped (R288). -/
def State.writeSlot (s : State) (k : TapSlot) (pieces : List (Nat × List Byte)) : State × SlotEnd :=
  match s.ring? k.ring with
  | none => (s, .dropped)
  | some r =>
    if r.stopped || r.p != k.index || s.pinned k.ring (k.index % r.slots) then (s, .dropped)
    else
      let base := r.slotAddr k.index
      let places : List (Nat × Nat) := pieces.map (fun p => (base + p.1, p.2.length)) ++ [(r.base - 16, 16)]
      match places.findSome? (fun p => s.badPage r.owner p.1 p.2) with
      | some v => (s, .failed v)
      | none =>
        let t := pieces.foldl (fun t p => t.hubWrite (base + p.1) p.2) s
        ((t.ringAdvP k.ring).ringFlag k.ring 1, .written)

/-- Pieces of a tap's slot: planes, then the header. -/
def tapPieces (img : List Plane) (i : SlotInfo) (index stop : Nat) (t : Tap) : List (Nat × List Byte) :=
  let p := tapPlanes img t
  [(4096, p.1)] ++ (if p.2.1.isEmpty then [] else [(t.plane1, p.2.1)]) ++ [(0, tapHeader i index stop p.2.2 t)]

/-! ## From lines to planes -/

/-- Lines of one exposure, in order of arrival. -/
def FrameRun.ofExp (f : FrameRun) (e : Nat) : List CamLine := f.lines.reverse.filter (fun l => l.exp = e)

/-- Components of one sample position: RGB888 carries three, YUV422 two, raw one. -/
def compsOf (dt : Nat) : Nat := if dt = 0x24 then 3 else if dt = 0x1e then 2 else 1

/-- Sample k of a line. One that never arrived is a free value of the sample's width (log entry 24). -/
def sampleAt (lines : Array (Array Nat)) (free : Nat) (dt y k : Nat) : Nat :=
  let w := if dt = 0x24 || dt = 0x1e then 8 else rawBits dt
  match (lines.getD y #[])[k]? with
  | some v => v % 2 ^ w
  | none => Config.lostSample free (y * 0x10000 + k) % 2 ^ w

def linesOf (f : FrameRun) (e : Nat) : Array (Array Nat) := ((f.ofExp e).map (fun l => l.samples.toArray)).toArray

/-- Exposures that arrived: the longest alone when a shorter one sent no line (R312). -/
def Ctx.expsOf (c : Ctx) (f : FrameRun) : List Nat :=
  if (List.range c.exps).all (fun e => !(f.ofExp e).isEmpty) then List.range c.exps else [0]

/-- Stages 1 to 5 of a raw frame: three 28-bit planes. -/
def Ctx.rawPlanes (c : Ctx) (f : FrameRun) (free : Nat) : List Plane :=
  let b := c.params
  let es := (c.expsOf f).map (fun e => (e, linesOf f e))
  let v := mkPlane c.width c.height (fun x y =>
    whiteBalance b x y (mergeExp b (es.map (fun e =>
      linearise b (rawBits c.dt) x y (sampleAt e.2 (free + e.1) c.dt y x)))))
  demosaic c.cfa c.width c.height v

/-- Three planes from a function of channel and place. -/
def threePlanes (w h : Nat) (f : Nat → Nat → Nat → Nat) : List Plane := (List.range 3).map (fun c => mkPlane w h (f c))

/-- The planes after stage 5 (28 bits), after stage 6 and after stage 7. -/
structure Stages where
  s5 : List Plane
  s6 : List Plane
  s7 : List Plane

def Ctx.stages (c : Ctx) (f : FrameRun) (free : Nat) : Stages :=
  let b := c.params
  let at_ := fun (l : List Plane) c x y => (l.getD c #[]).at_ x y
  if c.dt = 0x1e then
    let l := linesOf f 0
    let img := threePlanes c.width c.height (fun k x y =>
      sampleAt l free c.dt y (if k = 0 then 2 * x + 1 else x / 2 * 4 + 2 * (k - 1)) * 256)
    { s5 := [], s6 := [], s7 := img }
  else
    let s4 := if c.dt = 0x24 then
        threePlanes c.width c.height (fun k x y => sampleAt (linesOf f 0) free c.dt y (3 * x + k) * 2 ^ 20)
      else c.rawPlanes f free
    let s5 := threePlanes c.width c.height (fun k x y => colourMatrix b k (at_ s4 0 x y) (at_ s4 1 x y) (at_ s4 2 x y))
    let s6 := threePlanes c.width c.height (fun k x y => toneCurve b k (at_ s5 k x y))
    { s5 := s5, s6 := s6,
      s7 := threePlanes c.width c.height (fun k x y => colourSpace b k (at_ s6 0 x y) (at_ s6 1 x y) (at_ s6 2 x y)) }

/-- Status byte of a slot header: complete; CRC errors; lines missing, always so of a frame whose lines stopped without a frame end;
exposures missing (log entry 30). -/
def Ctx.slotStatus (c : Ctx) (f : FrameRun) (cut : Bool) : Nat :=
  let short := (List.range c.exps).any (fun e => (f.ofExp e).length < c.height)
  let absent := (c.expsOf f).length < c.exps
  let missing := if absent then decide ((f.ofExp 0).length < c.height) else short
  1 + 2 * b2n (f.lines.any (fun l => !l.crcOk)) + 4 * b2n (missing || cut) + 16 * b2n absent

/-- A statistics slot (R322). Fields that no rule gives are free values (log entry 25). -/
def Ctx.statPieces (c : Ctx) (f : FrameRun) (st : Stages) (i : SlotInfo) (index stop free : Nat) : List (Nat × List Byte) :=
  let g := fun o n => (List.range n).map (fun k => Config.statByte free (o + k))
  let h := padTo 256 ((slotHeader i index stop 0x20 0 0 0 0 0 (0, 0) (0, 0)).take 29 ++ g 29 1 ++ toLE 2 i.gen ++ g 32 4 ++
    toLE 4 0 ++ g 40 8 ++ zeros 16)
  let body := if c.dt = 0x1e then g 256 3712 else histogram c.width c.height st.s6 ++ zones c.width c.height st.s5
  [(256, body ++ padTo 128 (f.emb.map (BitVec.ofNat 8))), (0, h)]

/-- Discard the frame in progress after a ring error (R288, R331): the context stops in state 3. -/
def State.ctxFail (s : State) (n page : Nat) : State :=
  match s.ctx? n with
  | some c => (s.setCtx n (fun c => { c with st := 3, frame := none })).logE 0x0022 4 c.owner 0xff 11 n page 0 0
  | none => s

/-- Write one slot of frame `num`; `f` builds its pieces from the entry index. -/
def State.ctxSlot (s : State) (n num : Nat) (k : Option TapSlot) (f : Nat → List (Nat × List Byte)) : State × Bool :=
  match k with
  | none => (s, true)
  | some k => match s.writeSlot k (f k.index) with
    | (t, .written) => (t.setCtx n (fun c => { c with lastDone := num }), true)
    | (t, .dropped) => (t.setCtx n (fun c => { c with dropped := inc32 c.dropped }), true)
    | (t, .failed v) => (t.ctxFail n v, false)

/-- The frame in progress ends: planes and headers are written tap by tap and the context runs. `cut` says that its lines stopped without
a frame end (R320). -/
def State.endFrame (s : State) (cut : Bool) (n : Nat) : State :=
  match s.ctx? n with
  | none => s
  | some c =>
    match c.frame with
    | none => s
    | some f =>
      let s1 : State := { s with free := s.free + 4 }
      let st := c.stages f s.free
      let info := fun tap => ({ number := f.number, start := f.stamp, source := n, tap := tap, status := c.slotStatus f cut,
                                gen := fld c.params 0 2, pts := 0 } : SlotInfo)
      let one := fun (a : State × Bool) (i : Nat) =>
        if a.2 then
          a.1.ctxSlot n f.number (f.slots.getD i none) (fun index =>
            if i = 3 then c.statPieces f st (info 3) index s.now s.free
            else tapPieces st.s7 (info i) index s.now (tapAt c.params i))
        else a
      let o := (List.range 4).foldl one (s1, true)
      if o.2 then o.1.setCtx n (fun c => { c with st := 2, frame := none }) else o.1

/-- The number and stamp of a frame that starts now (R319, R323), or none when it is unsynchronised. -/
def State.frameId (s : State) (c : Ctx) : Option (Nat × Nat) :=
  match c.group with
  | none => some (c.nextNum, s.now)
  | some g =>
    match c.window, aGet s.media.groups g with
    | some (k, at_, false), some x => if at_ ≤ s.now && s.now ≤ at_ + x.window then some (k, at_) else none
    | _, _ => none

/-- A frame-start packet for one context: a frame still open is written with what it has (log entry 31). -/
def State.startFrame (s : State) (n : Nat) : State :=
  let s0 := s.endFrame false n
  match s0.ctx? n with
  | none => s0
  | some c =>
    if !c.live then s0
    else
      let c := { c with params := c.pend.getD c.params, pend := none }
      match s.frameId c with
      | none => s0.setCtx n (fun _ => { c with missed := inc32 c.missed })
      | some (num, stamp) =>
        let t := s0.takeSlots c.owner c.frameRings
        let fr : FrameRun := { number := num, stamp := stamp, slots := t.2.slots, lines := [], emb := [] }
        let u := t.1.setCtx n (fun _ => { c with
          frame := some fr, dropped := addStop c.dropped t.2.drops,
          nextNum := if c.group.isNone then (c.nextNum + 1) % M32 else c.nextNum,
          window := c.window.map (fun w => (w.1, w.2.1, true)) })
        match t.2.fail with
        | some v => u.ctxFail n v
        | none => u

/-- Contexts on a port whose channels include a virtual channel. -/
def State.ctxsOn (s : State) (p vc : Nat) (test : Ctx → Bool) : List Nat :=
  (s.media.ctxs.filter (fun e => e.2.port = p && e.2.vc ≤ vc && test e.2)).map Prod.fst

/-- Count a corrected packet header. -/
def State.countEcc (s : State) (p : Nat) (ecc : Bool) : State :=
  if ecc then s.setPort p (fun q => { q with ecc := incTo 0xffff q.ecc }) else s

/-- A port receives: enabled, locked and not retired. -/
def State.portOpen (s : State) (p : Nat) : Bool := (s.port p).enabled && (s.port p).locked && !(s.port p).retired

/-- FRAME_START on a virtual channel: it starts the frame of contexts whose first channel it is. -/
def State.frameStartOn (s : State) (p vc : Nat) (ecc : Bool) : State :=
  if !s.portOpen p then s
  else (s.ctxsOn p vc (fun c => c.vc = vc)).foldl State.startFrame (s.countEcc p ecc)

/-- A line reaches a context: embedded data, or a line of exposure vc − first channel. Further lines than the height are not
part of the frame. -/
def Ctx.addLine (c : Ctx) (vc dt : Nat) (crcOk : Bool) (samples : List Nat) : Ctx :=
  match c.frame with
  | none => c
  | some f =>
    if dt = 0x12 then (if vc = c.vc then { c with frame := some { f with emb := f.emb ++ samples } } else c)
    else if dt = c.dt && (f.ofExp (vc - c.vc)).length < c.height then
      { c with frame := some { f with lines := { exp := vc - c.vc, crcOk := crcOk, samples := samples } :: f.lines } }
    else c

/-- LINE_ARRIVAL: a CRC failure counts in the port's error register and marks the frame. A packet of another type is discarded, its
corrected header counted as any (R304, R305). -/
def State.lineOn (s : State) (p vc dt : Nat) (crcOk ecc : Bool) (samples : List Nat) : State :=
  if !s.portOpen p then s
  else if !(dt = 0x12 || rawTypes.contains dt) then s.countEcc p ecc
  else
    let t := s.countEcc p ecc
    let t := if crcOk then t else t.setPort p (fun q => { q with crc := incTo 0xffff q.crc })
    (t.ctxsOn p vc (fun c => c.live && vc < c.vc + c.exps)).foldl
      (fun t n => t.setCtx n (fun c => c.addLine vc dt crcOk samples)) t

/-- The last channel on which a context's exposures arrive. -/
def Ctx.lastVc (c : Ctx) : Nat := c.vc + c.exps - 1

/-- FRAME_END: the frame ends with the frame end of its last channel; with shorter exposures absent, with that of its first
(log entry 31). -/
def State.frameEndOn (s : State) (p vc : Nat) (ecc : Bool) : State :=
  if !s.portOpen p then s
  else
    let ends := fun (c : Ctx) => match c.frame with
      | some f => vc = c.lastVc || (vc = c.vc && (c.expsOf f).length < c.exps)
      | none => false
    (s.ctxsOn p vc ends).foldl (fun t n => t.endFrame false n) (s.countEcc p ecc)

/-! ## Ports and slots that fail (R305, R426) -/

/-- A port's lanes lose lock: they retrain, and the third loss within 1 s retires the port (R305, R331). -/
def State.lockLoss (s : State) (p : Nat) : State :=
  let q := s.port p
  if !q.enabled || q.retired then s
  else
    let l := q.losses ++ [s.now]
    let third := match l[l.length - 3]? with
      | some a => 3 ≤ l.length && s.now - a ≤ 1000000000
      | none => false
    let t := s.setPort p (fun q => { q with losses := l })
    if third then t.retirePort p else t

/-- The context that holds a slot of a pipeline. -/
def State.slotHolder (s : State) (pipe k : Nat) : Option (Nat × Ctx) :=
  (s.pipeCtxs pipe).find? (fun e => e.2.slot = k && e.2.st != 4)

/-- An uncorrectable error in a context slot (R426). -/
def State.slotError (s : State) (pipe k : Nat) (pass : Bool) : State :=
  match s.slotHolder pipe k with
  | none => s
  | some (n, c) =>
    let t := if c.frame.isSome then s.setCtx n (fun c => { c with frame := none, dropped := inc32 c.dropped }) else s
    if pass then t.logTransient 7 (32 * pipe + k) 0 0
    else
      let u := (t.setMedia (fun m => { m with badSlots := m.badSlots ++ [32 * pipe + k] })).retireMedia 7 (32 * pipe + k)
      match u.freeSlots pipe with
      | j :: _ => u.setCtx n (fun c => { c with slot := j })
      | [] => u.setCtx n (fun c => { c with st := 4 })

/-! ## Commands -/

/-- CONTEXT_SETUP (R307). -/
def execContextSetup (p : Nat) (x : SetupFinds) (s : State) : Res := message p 0x0020 (actCtxSetup x.lock x.bad) s

/-- CONTEXT_PARAMETER (R308). -/
def execContextParameter (p : Nat) (s : State) : Res := message p 0x0021 actCtxParam s

/-- STOP_CONTEXT (R307). -/
def execStopContext (p : Nat) (s : State) : Res := onUnit (p < 64) s (stopMessage p 0 actStopCtx s)

/-- STOP_LOCK_GROUP (R324). -/
def execStopLockGroup (p : Nat) (s : State) : Res := onUnit (p < 64) s (stopMessage p 3 actStopGroup s)

/-- FRAME_START (R320). -/
def execFrameStart (p vc : Nat) (ecc : Bool) (s : State) : Res := onUnit (p < 4 && vc < 16) s (s.frameStartOn p vc ecc)

/-- LINE_ARRIVAL (R310). Samples in order of arrival: R, G, B for RGB888; Cb, Y, Cr, Y for YUV422. -/
def execLineArrival (p vc dt : Nat) (crcOk ecc : Bool) (samples : List Nat) (s : State) : Res :=
  onUnit (p < 4 && vc < 16) s (s.lineOn p vc dt crcOk ecc samples)

/-- FRAME_END (R320). -/
def execFrameEnd (p vc : Nat) (ecc : Bool) (s : State) : Res := onUnit (p < 4 && vc < 16) s (s.frameEndOn p vc ecc)

/-- LINE_TIMEOUT (R320): lines have stopped for more than twice the sensor's line time. -/
def execLineTimeout (n : Nat) (s : State) : Res := onUnit (n < 64) s (s.endFrame true n)

/-- PORT_LOCK_LOSS (R305). -/
def execPortLockLoss (p : Nat) (s : State) : Res := onUnit (p < 4) s (s.lockLoss p)

/-- LOCK_GROUP_SETUP (R323). -/
def execLockGroupSetup (p : Nat) (s : State) : Res := message p 0x0023 actLockSetup s

/-- TRIGGER (R323). -/
def execTrigger (g : Nat) (s : State) : Res := onUnit (g < 16) s (s.fire g)

/-- TRIGGER_WINDOW_EXPIRY (R324). -/
def execTriggerWindowExpiry (n : Nat) (s : State) : Res :=
  onUnit (n < 64) s (match s.ctx? n with
    | some c => if s.windowPast c then s.setCtx n Ctx.closeWindow else s
    | none => s)

/-- CONTEXT_SLOT_ERROR (R426). -/
def execContextSlotError (pipe slot : Nat) (pass : Bool) (s : State) : Res :=
  onUnit (pipe < 2 && slot < 32) s (s.slotError pipe slot pass)

end Sys2Proof.Machine
end

