-- ==== Sys2Proof/Machine/Ethernet.lean ====
section
/-! DEFINITION. Ethernet (R345 to R348): packet queues, steering, received and transmitted frames. A frame is its bytes without
the FCS (log entry 45). -/

namespace Sys2Proof.Machine

/-! ## Fields of a frame -/

/-- What stands behind the MAC addresses: the outermost VLAN identifier, the EtherType behind it, the innermost EtherType and where
its payload starts. -/
structure EthHead where
  vlan  : Option Nat
  ether : Nat
  inner : Nat
  off   : Nat
  deriving DecidableEq, Repr

def isTag (t : Nat) : Bool := t = 0x8100 || t = 0x88a8

def be16 (b : List Byte) (o : Nat) : Nat := beNat ((b.drop o).take 2)

def ethHead (b : List Byte) : EthHead :=
  let t := be16 b 12
  if !isTag t then { vlan := none, ether := t, inner := t, off := 14 }
  else
    let v := some (be16 b 14 % 4096)
    let u := be16 b 16
    if isTag u then { vlan := v, ether := u, inner := be16 b 20, off := 22 } else { vlan := v, ether := u, inner := u, off := 18 }

/-- The transport part of an unfragmented IP packet: protocol, its place, its length and the addresses. -/
structure IpPart where
  v4    : Bool
  proto : Nat
  off   : Nat
  len   : Nat
  src   : List Byte
  dst   : List Byte
  deriving DecidableEq, Repr

def ipPart (b : List Byte) : Option IpPart :=
  let h := ethHead b
  let o := h.off
  if h.inner = 0x0800 && o + 20 ≤ b.length then
    let ihl := byteAt b o % 16 * 4
    if be16 b (o + 6) % 0x4000 != 0 || ihl < 20 then none
    else some { v4 := true, proto := byteAt b (o + 9), off := o + ihl, len := be16 b (o + 2) - ihl, src := (b.drop (o + 12)).take 4,
                dst := (b.drop (o + 16)).take 4 }
  else if h.inner = 0x86dd && o + 40 ≤ b.length then
    some { v4 := false, proto := byteAt b (o + 6), off := o + 40, len := be16 b (o + 4), src := (b.drop (o + 8)).take 16,
           dst := (b.drop (o + 24)).take 16 }
  else none

/-- UDP destination port (R347). -/
def udpDest (b : List Byte) : Option Nat :=
  match ipPart b with
  | some p => if p.proto = 17 then some (be16 b (p.off + 2)) else none
  | none => none

/-! ## Checksums (R345) -/

/-- Where a transport header keeps its checksum. -/
def sumPlace (proto : Nat) : Option Nat := if proto = 17 then some 6 else if proto = 6 then some 16 else none

/-- Sum over the pseudo-header and the transport part of a frame's bytes. -/
def IpPart.total (p : IpPart) (b : List Byte) : Nat :=
  sum16 (p.src ++ p.dst ++ toBE 4 p.len ++ toBE 4 p.proto) + sum16 ((b.drop p.off).take p.len)

def v4Header (b : List Byte) (off : Nat) : List Byte := (b.drop off).take (byteAt b off % 16 * 4)

/-- Insert the IPv4 header checksum. -/
def insertHeaderSum (b : List Byte) : List Byte :=
  let h := ethHead b
  if h.inner = 0x0800 && h.off + 20 ≤ b.length then
    let z := putAt b (h.off + 10) (zeros 2)
    putAt z (h.off + 10) (toBE 2 (onesSum (sum16 (v4Header z h.off))))
  else b

/-- Insert the UDP or TCP checksum. -/
def insertTransportSum (b : List Byte) : List Byte :=
  match ipPart b with
  | some p =>
    match sumPlace p.proto with
    | some o =>
      let z := putAt b (p.off + o) (zeros 2)
      let c := onesSum (p.total z)
      putAt z (p.off + o) (toBE 2 (if c = 0 && p.proto = 17 then 65535 else c))
    | none => b
  | none => b

/-- Every checksum that the frame has was checked and is good; a frame that is no IP packet has none. -/
def sumsGood (b : List Byte) : Bool :=
  let h := ethHead b
  let header := h.inner != 0x0800 || onesSum (sum16 (v4Header b h.off)) = 0
  match ipPart b with
  | some p =>
    header && match sumPlace p.proto with
      | some o => (p.v4 && p.proto = 17 && be16 b (p.off + o) = 0) || onesSum (p.total b) = 0
      | none => p.v4
  | none => h.inner = 0x0800 && header

/-! ## Packet queues -/

def State.pq? (s : State) (q : Nat) : Option PktQ := aGet s.fab.queues q

def State.setPq (s : State) (q : Nat) (f : PktQ → PktQ) : State := s.setFab (fun x => { x with queues := aMod x.queues q f })

def PktQ.slots (q : PktQ) : Nat := 2 ^ q.log

def PktQ.held (q : PktQ) : Nat := (q.p + M32 - q.c) % M32

def PktQ.slotAddr (q : PktQ) (i : Nat) : Nat := q.base + i % q.slots * 32

/-- The device side of a packet queue stops at a disallowed access (R288). -/
def State.pqStop (s : State) (q page : Nat) : State :=
  match s.pq? q with
  | some x => (s.setPq q (fun x => { x with stopped := true })).logE 0x0022 4 x.owner 0xff 0 q page 0 0
  | none => s

/-- Index word and interrupt after the device has advanced its index (R249, R346). -/
def State.pqAdvanced (s : State) (q vector : Nat) : State :=
  match s.pq? q with
  | none => s
  | some x =>
    if s.fnWrites x.owner (x.base - 16) 16 then
      let t := s.hubWrite (x.base - 16) (toLE 4 x.p ++ toLE 4 x.c ++ zeros 8)
      if vector = 0 then t else t.ringIrq x.owner vector
    else s.pqStop q (pageOf (x.base - 16))

/-- A doorbell write: the host advances P of a transmit queue or C of a receive queue (R248, R346). -/
def State.pqDoorbell (s : State) (f q v : Nat) : State :=
  match s.pq? q with
  | none => s.logE 0x0020 4 f 0xff 0 q v 0 0
  | some x =>
    let n := if x.rx then (x.p + M32 - v) % M32 else (v + M32 - x.c) % M32
    if x.owner != f || x.slots < n then s.logE 0x0020 4 f 0xff 0 q v x.p x.c
    else s.setPq q (fun x => if x.rx then { x with c := v } else { x with p := v })

/-! ## Messages (R347) -/

/-- A queue that holds no entry. -/
def State.pqEmpty (s : State) (q : Nat) : Bool :=
  match s.pq? q with
  | some x => x.p = x.c
  | none => true

/-- The index word and the slots lie in the owner's windows, and the base is aligned (check 0x46). -/
def State.pqPlaced (s : State) (b : List Byte) : Bool :=
  fld b 8 8 % 4096 = 0 && 16 ≤ fld b 8 8 && s.inFn (byteAt b 4) (fld b 8 8 - 16) (16 + 32 * 2 ^ byteAt b 5)

/-- The other fields of a packet-queue body in range. -/
def pqRange (b : List Byte) : Bool :=
  byteAt b 3 ≤ 1 && byteAt b 4 ≤ 16 && 1 ≤ byteAt b 5 && byteAt b 5 ≤ 16 && fld b 6 2 = 0

/-- The checks 0x45, 0x46 and 0x48 of R347, which a set-up and a delete share; 0 when all hold. -/
def State.pqStatus (s : State) (b : List Byte) : Nat :=
  if (portLanes s.fab.mode (byteAt b 2)).isNone then 0x45
  else if !s.pqPlaced b then 0x46
  else if 1 < byteAt b 1 || !pqRange b then 0x48
  else 0

def actPqSetup (s : State) (r : Req) : State × Option (Nat × List Byte) :=
  let b := r.body
  if !s.pqEmpty (byteAt b 0) then (s, some (0x44, []))
  else if s.pqStatus b != 0 then (s, some (s.pqStatus b, []))
  else
    let q : PktQ := { port := byteAt b 2, rx := byteAt b 3 = 1, owner := byteAt b 4, log := byteAt b 5, base := fld b 8 8, p := 0, c := 0,
                      stopped := false }
    (s.setFab (fun f => { f with queues := aSet f.queues (byteAt b 0) q }), some (0, []))

/-- Rules that name a queue are disabled. -/
def dropRules (q : Nat) (l : AMap Steer) : AMap Steer :=
  l.map (fun e => if e.2.queue = q then (e.1, { e.2 with flags := e.2.flags % 128 }) else e)

def actPqDelete (s : State) (r : Req) : State × Option (Nat × List Byte) :=
  let q := byteAt r.body 0
  if (s.pq? q).isNone || !s.pqEmpty q then (s, some (0x44, []))
  else if s.pqStatus r.body != 0 then (s, some (s.pqStatus r.body, []))
  else
    let rx := match s.pq? q with
      | some x => x.rx
      | none => false
    (s.setFab (fun f => { f with queues := aErase f.queues q, rules := if rx then dropRules q f.rules else f.rules }), some (0, []))

/-- Set up and delete are operations 0 and 1 of one message; any other operation is out of range, the last check. -/
def actPacketQueue (s : State) (r : Req) : State × Option (Nat × List Byte) :=
  if byteAt r.body 1 = 0 then actPqSetup s r
  else if byteAt r.body 1 = 1 then actPqDelete s r
  else (s, some (s.pqStatus r.body, []))

/-- Steering rule (R347). -/
def actSteering (s : State) (r : Req) : State × Option (Nat × List Byte) :=
  let b := r.body
  let port := byteAt b 0
  let own := match s.pq? (fld b 6 2) with
    | some x => x.rx && x.port = port
    | none => false
  if (portLanes s.fab.mode port).isNone then (s, some (0x45, []))
  else if !own then (s, some (0x47, []))
  else if byteAt b 1 != 0 || 255 < fld b 2 2 || bits (byteAt b 4) 6 4 != 0 || byteAt b 5 != 0 || 4096 ≤ fld b 14 2 || fld b 20 4 != 0 then
    (s, some (0x48, []))
  else
    let t : Steer := { flags := byteAt b 4, queue := fld b 6 2, mac := beNat ((b.drop 8).take 6), vlan := fld b 14 2, ether := fld b 16 2,
                       udp := fld b 18 2 }
    (s.setFab (fun f => { f with rules := aSet f.rules (port * 256 + fld b 2 2) t }), some (0, []))

/-! ## Frames (R346) -/

/-- A rule matches a frame; a clear match bit matches any value. -/
def Steer.hits (r : Steer) (b : List Byte) : Bool :=
  let h := ethHead b
  bit r.flags 7 && (!bit r.flags 0 || beNat (b.take 6) = r.mac) && (!bit r.flags 1 || h.vlan = some r.vlan) &&
    (!bit r.flags 2 || h.ether = r.ether) && (!bit r.flags 3 || udpDest b = some r.udp)

/-- The receive queue of the first enabled rule that matches. -/
def State.steer (s : State) (port : Nat) (b : List Byte) : Option Nat :=
  (List.range 256).findSome? (fun i => match aGet s.fab.rules (port * 256 + i) with
    | some r => if r.hits b then some r.queue else none
    | none => none)

/-- The peer whose addresses and port a received datagram carries (R354). -/
def State.udpPeer (s : State) (b : List Byte) : Option (Nat × List Byte) :=
  match ipPart b with
  | some p =>
    if p.v4 || p.proto != 17 then none
    else
      (s.fab.peers.find? (fun e => e.2.path = 3 && e.2.dstIp = p.src && e.2.srcIp = p.dst && e.2.udpPort = be16 b (p.off + 2))).map
        (fun e => (e.1, (b.drop (p.off + 8)).take (be16 b (p.off + 4) - 8)))
  | none => none

/-- A dropped frame is counted. -/
def State.dropFrame (s : State) (port : Nat) : State := s.setFab (fun f => { f with dropped := lMod f.dropped port (· + 1) })

/-- A frame goes into a receive queue: buffer, descriptor, index (R346). -/
def State.receiveInto (s : State) (q port : Nat) (b : List Byte) : State :=
  match s.pq? q with
  | none => s.dropFrame port
  | some x =>
    let d := x.slotAddr x.p
    if x.slots ≤ x.held || x.stopped then s.dropFrame port
    else if !s.fnReads x.owner d 32 || !s.fnWrites x.owner d 32 then s.pqStop q (pageOf d)
    else
      let desc := s.devRead d 32
      let s := s.touchAll d 32
      let buf := fld desc 0 8
      let size := fld desc 8 4
      let part := b.take size
      if !s.fnWrites x.owner buf part.length then s.pqStop q (pageOf buf)
      else
        let flags := 2 * b2n (sumsGood b) + 4 * b2n (ethHead b).vlan.isSome
        let back := toLE 4 b.length ++ toLE 1 flags ++ toLE 1 (b2n (decide (size < b.length))) ++ (desc.drop 14).take 2 ++ toLE 8 s.now
        let t := (s.hubWrite buf part).hubWrite (d + 8) back
        (t.setPq q (fun x => { x with p := (x.p + 1) % M32 })).pqAdvanced q (fld desc 14 2)

/-- A received frame (R345, R346): one with a bad FCS or a size outside 64 to 9,216 bytes is dropped and counted, a pause or priority
flow control frame dropped; an Abapex datagram goes to the link; the rules steer the rest. -/
def State.receive (s : State) (port : Nat) (fcsOk : Bool) (b : List Byte) : State :=
  if !s.portUp port then s
  else if !fcsOk || b.length < 60 || 9212 < b.length then s.dropFrame port
  else if (ethHead b).inner = 0x8808 then s
  else match s.udpPeer b with
    | some (n, f) => s.linkIn n (byteAt f 0) f
    | none => match s.steer port b with
      | some q => s.receiveInto q port b
      | none => s.dropFrame port

/-- The device takes the next transmit descriptor, sends its frame and completes it (R346, R428). -/
def State.transmit (s : State) (q : Nat) : State :=
  match s.pq? q with
  | none => s
  | some x =>
    if x.rx || x.held = 0 || x.stopped then s
    else
      let d := x.slotAddr x.c
      if !s.fnReads x.owner d 32 || !s.fnWrites x.owner d 32 then s.pqStop q (pageOf d)
      else
        let desc := s.devRead d 32
        let s := s.touchAll d 32
        let buf := fld desc 0 8
        let len := fld desc 8 4
        let flags := byteAt desc 12
        let done := fun (t : State) (st : Nat) =>
          let stamp := if st = 0 && bit flags 0 then toLE 8 t.now else (desc.drop 16).take 8
          let t := t.hubWrite (d + 13) (toLE 1 st ++ (desc.drop 14).take 2 ++ stamp)
          (t.setPq q (fun x => { x with c := (x.c + 1) % M32 })).pqAdvanced q (fld desc 14 2)
        if !s.portUp x.port || len < 60 || 9212 < len then done s 2
        else if !s.fnReads x.owner buf len then s.pqStop q (pageOf buf)
        else
          let b := s.devRead buf len
          let b := if bit flags 1 then insertTransportSum (insertHeaderSum b) else b
          done ((s.touchAll buf len).setOut (fun o => { o with eth := o.eth ++ [(x.port, b)] })) 0

/-! ## Commands -/

/-- PACKET_QUEUE_SETUP (R347): operation 0 of the packet-queue message. -/
def execPacketQueueSetup (p : Nat) (s : State) : Res :=
  onUnit (p < 64) s (match s.request p with
    | some r => if byteAt r.body 1 != 1 then s.serve p 0x0034 actPacketQueue else s
    | none => s)

/-- PACKET_QUEUE_DELETE (R347): operation 1 of the packet-queue message. -/
def execPacketQueueDelete (p : Nat) (s : State) : Res :=
  onUnit (p < 64) s (match s.request p with
    | some r => if byteAt r.body 1 = 1 then s.serve p 0x0034 actPacketQueue else s
    | none => s)

/-- STEERING_RULE (R347). -/
def execSteeringRule (p : Nat) (s : State) : Res := message p 0x0035 actSteering s

/-- PQ_DOORBELL (R346, R363). -/
def execPqDoorbell (f q v : Nat) (s : State) : Res := onUnit (f < 17 && q < 256) s (s.pqDoorbell f q (v % M32))

/-- FRAME_RECEIVE (R346). -/
def execFrameReceive (port : Nat) (ok : Bool) (b : List Byte) (s : State) : Res := onUnit (port < 4) s (s.receive port ok b)

/-- FRAME_TRANSMIT (R346). -/
def execFrameTransmit (q : Nat) (s : State) : Res := onUnit (q < 256) s (s.transmit q)

end Sys2Proof.Machine
end

