-- ==== Sys2Proof/Machine/Video.lean ====
section
/-! DEFINITION. Decode streams and encode sessions (R325 to R331, R333). -/

namespace Sys2Proof.Machine

def State.stream? (s : State) (n : Nat) : Option Stream := aGet s.media.streams n

def State.setStream (s : State) (n : Nat) (f : Stream → Stream) : State :=
  s.setMedia (fun m => { m with streams := aMod m.streams n f })

def State.session? (s : State) (n : Nat) : Option Session := aGet s.media.sessions n

def State.setSession (s : State) (n : Nat) (f : Session → Session) : State :=
  s.setMedia (fun m => { m with sessions := aMod m.sessions n f })

/-- Loads in thousandths of a sample or pixel per second (R307, R325). -/
def Stream.load (x : Stream) : Nat := x.width * x.height * x.rate

def Session.load (x : Session) : Nat := x.width * x.height * x.rate

def State.decodeLoad (s : State) : Nat := (s.media.streams.map (fun e => e.2.load)).sum

def State.encodeLoad (s : State) : Nat := (s.media.sessions.map (fun e => e.2.load)).sum

/-- A ring of a kind that a codec unit may bind. -/
def State.codecRing (s : State) (f kind : Nat) (n : Option Nat) : Bool :=
  match n with
  | some n => s.ringUnused f n kind
  | none => true

/-! ## Setup (R326, R329) -/

/-- A decoder's parameter block: tap descriptors at offset 128, all else 0. -/
def decodeParams (w h : Nat) (b : List Byte) : Bool :=
  allZero (b.take 128) && allZero (b.drop 320) && (List.range 3).all (fun i => tapOk w h none (tapBytes b i))

def streamOf (f : Nat) (b params : List Byte) : Stream :=
  { st := 1, owner := f, codec := byteAt b 1, width := fld b 2 2, height := fld b 4 2, rate := fld b 6 4, bits := fld b 10 2,
    comp := ringField b 12, taps := [ringField b 14, ringField b 16, ringField b 18], colour := byteAt b 20, params := params,
    store := fld b 32 8, storeLen := fld b 40 4, job := none, stamps := [], gap := false, nextNum := 0, pics := 0, errors := 0 }

/-- Ranges of a decode-setup body. The store's least size for 8-bit pictures is checked here, and for 10-bit pictures when one comes
(log entry 33). -/
def streamRange (b : List Byte) : Bool :=
  64 ≤ fld b 2 2 && fld b 2 2 ≤ 4096 && 64 ≤ fld b 4 2 && fld b 4 2 ≤ 2304 && 1000 ≤ fld b 6 4 && fld b 6 4 ≤ 240000 &&
    byteAt b 20 ≤ 4 && fld b 21 3 = 0 && fld b 24 8 % 4096 = 0 && fld b 32 8 % 4096 = 0 && 27 * fld b 2 2 * fld b 4 2 ≤ fld b 40 4

def State.streamStatus (s : State) (f : Nat) (b : List Byte) : Nat :=
  let okBlock := s.fnReads f (fld b 24 8) 4096
  let x := streamOf f b (s.devRead (fld b 24 8) 4096)
  if 64 ≤ byteAt b 0 || (s.stream? (byteAt b 0)).isSome then 0x30
  else if 2 < x.codec then 0x31
  else if 4000000000000 < s.decodeLoad + x.load then 0x32
  else if !(s.ringUnused f x.bits 0 && s.codecRing f 1 x.comp &&
      (List.range 3).all (fun i => s.ingestOk f x.rate (if okBlock then tapNeed x.params i else 0) (x.taps.getD i none)) &&
      ringsDistinct x.taps) then 0x33
  else if !(streamRange b && okBlock && decodeParams x.width x.height x.params && s.fnWrites f x.store x.storeLen) then 0x34
  else 0

/-- Decode setup (R326). -/
def actDecodeSetup (s : State) (r : Req) : State × Option (Nat × List Byte) :=
  let st := s.streamStatus r.fn r.body
  if st != 0 then (s, some (st, []))
  else
    let s := s.touchBlock r.fn (fld r.body 24 8)
    let x := streamOf r.fn r.body (s.devRead (fld r.body 24 8) 4096)
    let t := s.mediaRings (some x.bits :: x.comp :: x.taps) true
    (t.setMedia (fun m => { m with streams := aSet m.streams (byteAt r.body 0) x }), some (0, []))

def sessionOf (f : Nat) (b : List Byte) : Session :=
  { st := 1, owner := f, codec := byteAt b 1, width := fld b 2 2, height := fld b 4 2, rate := fld b 6 4, jobs := fld b 10 2,
    comp := fld b 12 2, rc := byteAt b 14, qp := byteAt b 15, target := fld b 16 4, intra := fld b 20 2, job := none, force := false, since := 0,
    pics := 0, errors := 0 }

/-- QP, or JPEG quality, in the codec's range. -/
def qpOk (codec q : Nat) : Bool := if codec = 0 then q ≤ 51 else if codec = 1 then q ≤ 255 else 1 ≤ q && q ≤ 100

def sessionRange (b : List Byte) : Bool :=
  64 ≤ fld b 2 2 && fld b 2 2 ≤ 4096 && fld b 2 2 % 2 = 0 && 64 ≤ fld b 4 2 && fld b 4 2 ≤ 2304 && fld b 4 2 % 2 = 0 &&
    byteAt b 14 ≤ (if byteAt b 1 = 2 then 0 else 2) && qpOk (byteAt b 1) (byteAt b 15) && 64 ≤ fld b 16 4 &&
    fld b 16 4 ≤ 1000000 && 1 ≤ fld b 20 2 && fld b 22 2 = 0

def State.sessionStatus (s : State) (f : Nat) (b : List Byte) : Nat :=
  let x := sessionOf f b
  if 16 ≤ byteAt b 0 || (s.session? (byteAt b 0)).isSome then 0x30
  else if 2 < x.codec || (s.fuses.grade = 3 && x.codec != 2) then 0x31
  else if 1000000000000 < s.encodeLoad + x.load then 0x32
  else if !(s.ringUnused f x.jobs 0 && s.ringUnused f x.comp 1) then 0x33
  else if !sessionRange b then 0x34
  else 0

/-- Encode setup (R329). -/
def actEncodeSetup (s : State) (r : Req) : State × Option (Nat × List Byte) :=
  let st := s.sessionStatus r.fn r.body
  if st != 0 then (s, some (st, []))
  else
    let x := sessionOf r.fn r.body
    let t := s.mediaRings [some x.jobs, some x.comp] true
    (t.setMedia (fun m => { m with sessions := aSet m.sessions (byteAt r.body 0) x }), some (0, []))

/-! ## Stop (R382) -/

def State.freeStream (s : State) (n : Nat) : State :=
  match s.stream? n with
  | some x => (s.mediaRings (some x.bits :: x.comp :: x.taps) false).setMedia (fun m => { m with streams := aErase m.streams n })
  | none => s

def State.freeSession (s : State) (n : Nat) : State :=
  match s.session? n with
  | some x => (s.mediaRings [some x.jobs, some x.comp] false).setMedia (fun m => { m with sessions := aErase m.sessions n })
  | none => s

def actStopStream (s : State) (r : Req) : State × Option (Nat × List Byte) :=
  match s.stream? (byteAt r.body 0) with
  | some x => if fld r.body 2 2 != 0 || x.owner != r.fn then (s, some (0x34, [])) else (s.freeStream (byteAt r.body 0), some (0, []))
  | none => (s, some (0x34, []))

def actStopSession (s : State) (r : Req) : State × Option (Nat × List Byte) :=
  match s.session? (byteAt r.body 0) with
  | some x => if fld r.body 2 2 != 0 || x.owner != r.fn then (s, some (0x34, [])) else (s.freeSession (byteAt r.body 0), some (0, []))
  | none => (s, some (0x34, []))

/-! ## Decoding (R326 to R328) -/

/-- A stream stops in state 3 after a failed access (R288, R331). -/
def State.streamFail (s : State) (n page : Nat) : State :=
  match s.stream? n with
  | some x => (s.setStream n (fun x => { x with st := 3, job := none })).logE 0x0022 4 x.owner 0xff 12 n page 0 0
  | none => s

/-- A completion entry of a codec unit still waits for a slot. -/
def State.codecWaits (s : State) (rn : Nat) : Bool := s.comps.any (fun c => c.ring = rn)

def bitEntryOk (b : List Byte) : Bool :=
  1 ≤ fld b 8 4 && fld b 8 4 ≤ 0x1000000 && byteAt b 12 ≤ 3 && fld b 13 3 = 0 && allZero (b.drop 24)

/-- A codec's completion entry (R327, R330): kind 0, the entry index as tag, byte 11 0xff. -/
def State.dueCodec (s : State) (rn : Option Nat) (index status count : Nat) : State :=
  match rn with
  | some rn => s.due rn index 0 status 0 0xff count .none
  | none => s

/-- BITSTREAM_ENTRY: the next entry of an idle stream goes to the decoder; a bad one completes at once. -/
def State.feedStream (s : State) (n : Nat) : State :=
  match s.stream? n with
  | none => s
  | some x =>
    match s.ring? x.bits with
    | none => s
    | some r =>
      let held := match x.comp with | some c => s.codecWaits c | none => false
      if !s.firmwareActs || x.st != 1 || r.held = 0 || r.stopped || held then s
      else if !s.ringReads r (r.slotAddr r.c) 256 then s.ringStop x.bits (pageOf (r.slotAddr r.c))
      else
        let b := s.devRead (r.slotAddr r.c) 256
        let s := s.touchAll (r.slotAddr r.c) 256
        if !bitEntryOk b then (s.ringAdvC x.bits).dueCodec x.comp r.c 0x05 0
        else if !s.fnReads x.owner (fld b 0 8) (fld b 8 4) then s.streamFail n (pageOf (fld b 0 8))
        else (s.touchAll (fld b 0 8) (fld b 8 4)).setStream n (fun x => { x with
          st := 2, job := some (r.c, byteAt b 12), stamps := aSet x.stamps r.c (fld b 16 8), gap := x.gap || bit (byteAt b 12) 1 })

/-- A decoded sample as a 16-bit value (R326). -/
def wide16 (deep : Bool) (v : Nat) : Nat := if deep then rneDiv (v * 65535) 1023 else 257 * v

/-- Sample of component k at a luma place; chroma is repeated in both directions (log entry 34). A place outside the picture is
a free value, and monochrome has chroma at mid-scale. -/
def pictureSample (p : Picture) (free k x y : Nat) : Nat :=
  if p.width ≤ x || p.height ≤ y then Config.lostSample free (k * 0x1000000 + y * 0x1000 + x) % 65536
  else if k = 0 then wide16 p.deep (p.luma.getD (y * p.width + x) 0)
  else wide16 p.deep ((if k = 1 then p.cb else p.cr).getD (y / 2 * ((p.width + 1) / 2) + x / 2) (if p.deep then 512 else 128))

/-- Y, Cb, Cr planes of a picture. -/
def pictureYcc (p : Picture) (w h free : Nat) : List Plane := threePlanes w h (pictureSample p free)

/-- The colour code that converts a picture (R326). -/
def colourCode (setup pic : Nat) : Nat := if setup = 0 then (if pic = 0 then 2 else pic) else setup

/-- R, G, B planes of a picture. -/
def pictureRgb (p : Picture) (w h free colour : Nat) : List Plane :=
  let k := colourCode colour p.colour
  threePlanes w h (fun c x y => fromYcc (k = 1 || k = 3) (3 ≤ k) p.deep c (pictureSample p free 0 x y) (pictureSample p free 1 x y) (pictureSample p free 2 x y))

/-- A picture that a stream's decoder supports (R325, R326): within the stream's size, 10-bit and monochrome only in the codecs that have
them, and a 10-bit one only with a picture store of twice the size. -/
def Stream.supports (x : Stream) (p : Picture) : Bool :=
  p.width ≤ x.width && p.height ≤ x.height && (!p.deep || (x.codec != 0 && 54 * x.width * x.height ≤ x.storeLen)) &&
    (!p.cb.isEmpty || x.codec = 2)

/-- One tap's slot of a picture; nothing is written once the stream has stopped. -/
def State.putTap (s : State) (n : Nat) (x : Stream) (p : Picture) (free i : Nat) (k : Option TapSlot) : State :=
  match k, s.stream? n with
  | some q, some y =>
    if y.st != 2 then s
    else
      let tap := tapAt x.params i
      let img := if tap.kind = 2 then pictureYcc p x.width x.height free else pictureRgb p x.width x.height free x.colour
      let info : SlotInfo := { number := x.nextNum, start := s.now, source := 64 + n, tap := i, status := 1, gen := 0,
                               pts := (aGet x.stamps p.entry).getD 0 }
      match s.writeSlot q (tapPieces img info q.index s.now tap) with
      | (u, .failed v) => u.streamFail n v
      | (u, _) => u
  | _, _ => s

/-- One picture of a stream through its taps; a picture dropped for a tap consumes its number. A stream that stops counts no picture. -/
def State.putPicture (s : State) (n : Nat) (p : Picture) : State :=
  match s.stream? n with
  | none => s
  | some x =>
    if x.st != 2 then s
    else
      let k := s.takeSlots x.owner ((List.range 3).map (fun i => if (tapAt x.params i).kind = 0 then none else x.taps.getD i none))
      match k.2.fail with
      | some v => k.1.streamFail n v
      | none =>
        let s1 : State := { k.1 with free := k.1.free + 1 }
        let t := (List.range 3).foldl (fun t i => t.putTap n x p k.1.free i (k.2.slots.getD i none)) s1
        t.setStream n (fun x => if x.st != 2 then x else
          { x with nextNum := (x.nextNum + 1) % M32, pics := inc32 x.pics, gap := x.gap && !p.point })

/-- A picture that is not output: counted and logged when a bitstream error costs it, logged alone when a discontinuity does (R328). -/
def State.losePicture (s : State) (n index owner : Nat) (count : Bool) : State :=
  (if count then s.setStream n (fun x => { x with errors := inc32 x.errors }) else s).logE 0x0050 0 owner 0xff 12 n index 0 0

/-- Pictures lost to bitstream errors, one by one. -/
def State.losePictures (s : State) (n index owner : Nat) : Nat → State
  | 0 => s
  | k + 1 => (s.losePicture n index owner true).losePictures n index owner k

/-- A picture that the decoder gives: one that it does not support is lost as to an error, one behind a discontinuity that is no random
access point is lost to it (log entry 148), and any other is output. -/
def State.givePicture (s : State) (n index : Nat) (p : Picture) : State :=
  match s.stream? n with
  | none => s
  | some x =>
    if x.st != 2 then s
    else if !x.supports p then s.losePicture n index x.owner true
    else if x.gap && !p.point && (p.entry = index || (aGet x.stamps p.entry).isNone) then s.losePicture n index x.owner false
    else s.putPicture n p

/-- The decoder writes its picture store, whose bytes are free values (log entry 32). -/
def State.fillStore (s : State) (n : Nat) (x : Stream) : State :=
  match s.badPage x.owner x.store x.storeLen with
  | some v => s.streamFail n v
  | none =>
    let d := s.draw
    d.2.hubWrite x.store ((List.range x.storeLen).map (Config.storeByte d.1))

/-- BITSTREAM_ENTRY_CONSUMED: pictures leave in display order, C advances and the completion entry follows with the number of pictures
that were decoded from the entry. -/
def State.entryConsumed (s : State) (n decoded : Nat) (pics : List Picture) (lost : Nat) : State :=
  match s.stream? n with
  | none => s
  | some x =>
    match x.job with
    | none => s
    | some (index, _) =>
      if x.st != 2 || !s.firmwareActs then s
      else
        let t := (pics.foldl (fun t p => t.givePicture n index p) (s.fillStore n x)).losePictures n index x.owner lost
        match t.stream? n with
        | some y =>
          if y.st != 2 then t
          else ((t.setStream n (fun x => { x with st := 1, job := none })).ringAdvC x.bits).dueCodec x.comp index 0 decoded
        | none => t

/-! ## Encoding (R329, R330) -/

/-- A session stops in state 3 after a failed access; its number follows the streams' in `vid.stream_probe`. -/
def State.sessionFail (s : State) (n page : Nat) : State :=
  match s.session? n with
  | some x => (s.setSession n (fun x => { x with st := 3, job := none })).logE 0x0022 4 x.owner 0xff 12 (64 + n) page 0 0
  | none => s

/-- A job entry's reserved bytes, flags and capacity. -/
def jobOk (x : Session) (b : List Byte) : Bool :=
  fld b 2 2 = 0 && byteAt b 12 ≤ 1 && fld b 13 3 = 0 && allZero (b.drop 28) && x.width * x.height * 2 ≤ fld b 24 4

/-- The status of a job entry: 0x05 bad, 0x04 a failed pin, 0 taken (R330). -/
def State.jobStatus (s : State) (x : Session) (b : List Byte) : Nat :=
  if !jobOk x b then 0x05
  else match s.ring? (fld b 0 2) with
    | none => 0x05
    | some r =>
      if r.kind != 4 || r.owner != x.owner then 0x05
      else if !s.pinHolds (fld b 0 2, fld b 4 4, fld b 8 4) then 0x04
      else
        let h := s.devRead (r.slotAddr (fld b 4 4)) 36
        if byteAt h 27 = 0x10 && fld h 32 2 = x.width && fld h 34 2 = x.height then 0 else 0x05

/-- The page at which the header of a job's source slot cannot be read in the owner's windows: the session stops there (R288, R331). -/
def State.sourceFails (s : State) (x : Session) (b : List Byte) : Option Nat :=
  match s.ring? (fld b 0 2) with
  | some r =>
    if jobOk x b && r.kind = 4 && r.owner = x.owner && !s.ringReads r (r.slotAddr (fld b 4 4)) 36 then
      some (pageOf (r.slotAddr (fld b 4 4)))
    else none
  | none => none

/-- ENCODE_JOB: the next job entry of an idle session pins its source and goes to the encoder. -/
def State.feedSession (s : State) (n : Nat) : State :=
  match s.session? n with
  | none => s
  | some x =>
    match s.ring? x.jobs with
    | none => s
    | some r =>
      if !s.firmwareActs || x.st != 1 || r.held = 0 || r.stopped || s.codecWaits x.comp then s
      else if !s.ringReads r (r.slotAddr r.c) 256 then s.ringStop x.jobs (pageOf (r.slotAddr r.c))
      else
        let b := s.devRead (r.slotAddr r.c) 256
        let s := s.touchAll (r.slotAddr r.c) 256
        let st := s.jobStatus x b
        match s.sourceFails x b with
        | some v => s.sessionFail n v
        | none =>
        let s := if jobOk x b then s.touchPins [(fld b 0 2, fld b 4 4, 0)] s else s
        if st != 0 then (s.ringAdvC x.jobs).dueCodec (some x.comp) r.c st 0
        else s.setSession n (fun x => { x with
          st := 2, job := some (r.c, fld b 16 8, { ring := fld b 0 2, index := fld b 4 4 }), force := bit (byteAt b 12) 0 })

/-- The next picture is an intra picture: the first, one at the intra period, or one whose job forces it; every JPEG picture is (R329). -/
def Session.intraNext (x : Session) : Bool := x.codec = 2 || x.force || x.since = 0

/-- A byte string begins as an encoder's output must (R330): an Annex B access unit, with its parameter sets first in an intra picture;
a temporal unit, with a sequence header first in a key frame; a JPEG stream from SOI to EOI. The marks are those of the codecs' own
standards (PRESUMED, log entry 149). -/
def Session.formOk (x : Session) (b : List Byte) : Bool :=
  match x.codec with
  | 0 => b.take 4 == [0, 0, 0, 1] && (!x.intraNext || bits (byteAt b 4) 6 1 = 32)
  | 1 => b.take 2 == [0x12, 0] && (!x.intraNext || bits (byteAt b 2) 6 3 = 1)
  | _ => b.take 2 == [0xff, 0xd8] && b.drop (b.length - 2) == [0xff, 0xd9]

/-- What the encoder of a session may put out: a picture of that form of at most W × H × 2 bytes. -/
def Session.outputOk (x : Session) (b : List Byte) : Bool := x.formOk b && b.length ≤ x.width * x.height * 2

/-- ENCODE_JOB_COMPLETE: the output is written, the pin is released, C advances and the completion entry follows. -/
def State.jobComplete (s : State) (n : Nat) (out : List Byte) : State :=
  match s.session? n with
  | none => s
  | some x =>
    match x.job with
    | none => s
    | some (index, addr, _) =>
      if x.st != 2 || !s.firmwareActs || !x.outputOk out then s
      else match s.badPage x.owner addr out.length with
        | some v => s.sessionFail n v
        | none =>
          let since := if x.intraNext then 1 % x.intra else (x.since + 1) % x.intra
          let t := (s.hubWrite addr out).setSession n (fun x => { x with
            st := 1, job := none, force := false, since := since, pics := inc32 x.pics })
          (t.ringAdvC x.jobs).dueCodec (some x.comp) index 0 out.length

/-! ## Commands -/

/-- STOP_STREAM (R382). -/
def execStopStream (p : Nat) (s : State) : Res := onUnit (p < 64) s (stopMessage p 1 actStopStream s)

/-- STOP_SESSION (R382). -/
def execStopSession (p : Nat) (s : State) : Res := onUnit (p < 64) s (stopMessage p 2 actStopSession s)

/-- DECODE_SETUP (R326). -/
def execDecodeSetup (p : Nat) (s : State) : Res := message p 0x0024 actDecodeSetup s

/-- BITSTREAM_ENTRY (R327). -/
def execBitstreamEntry (n : Nat) (s : State) : Res := onUnit (n < 64) s (s.feedStream n)

/-- BITSTREAM_ENTRY_CONSUMED (R327): `lost` counts the pictures lost to bitstream errors. -/
def execBitstreamEntryConsumed (n : Nat) (d : Decoded) (lost : Nat) (s : State) : Res :=
  onUnit (n < 64) s (s.entryConsumed n d.count d.shown lost)

/-- ENCODE_SETUP (R329). -/
def execEncodeSetup (p : Nat) (s : State) : Res := message p 0x0025 actEncodeSetup s

/-- ENCODE_JOB (R330). -/
def execEncodeJob (n : Nat) (s : State) : Res := onUnit (n < 16) s (s.feedSession n)

/-- ENCODE_JOB_COMPLETE (R330): `out` is the picture as the encoder's standard gives it. -/
def execEncodeJobComplete (n : Nat) (out : List Byte) (s : State) : Res := onUnit (n < 16) s (s.jobComplete n out)

end Sys2Proof.Machine
end

