-- ==== Sys2Proof/Machine/Host.lean ====
section
/-! DEFINITION. Resets and link events of the host interface (R335, R336, R339, R343): none of them reseats the compute complex. -/

namespace Sys2Proof.Machine

/-! ## Function level reset of a virtual function (R336) -/

/-- Camera contexts, decode streams and encode sessions of a function return to free. -/
def State.stopMediaOf (s : State) (f : Nat) : State :=
  let t := ((s.media.ctxs.filter (fun e => e.2.owner = f)).map Prod.fst).foldl State.freeCtx s
  let t := ((t.media.streams.filter (fun e => e.2.owner = f)).map Prod.fst).foldl State.freeStream t
  ((t.media.sessions.filter (fun e => e.2.owner = f)).map Prod.fst).foldl State.freeSession t

/-- The function's rings go, and the completion entries due on them. -/
def State.freeRingsOf (s : State) (f : Nat) : State :=
  let mine := (s.ringsOf f).map Prod.fst
  { s with rings := s.rings.filter (fun e => !mine.contains e.1), comps := s.comps.filter (fun c => !mine.contains c.ring) }

/-- The function's packet queues go; rules that name a receive queue of it are disabled. -/
def State.freeQueuesOf (s : State) (f : Nat) : State :=
  s.setFab (fun x =>
    { x with queues := x.queues.filter (fun e => e.2.owner != f),
             rules := (x.queues.filter (fun e => e.2.owner = f)).foldl (fun l e => dropRules e.1 l) x.rules })

/-- A pair without messages; its version and its sequence stay (log entry 46). -/
def Pair.emptied (p : Pair) : Pair :=
  { p with req := zeros 256, reply := zeros 256, reqV := false, replyV := false, stored := [], busy := false, asked := [], due := none }

/-- FLR of virtual function n: suites are released under R245, units and rings freed, mailboxes emptied, orphan state ended;
allocation, windows, entries and frames stay. -/
def State.flr (s : State) (n : Nat) : State :=
  let t := (s.suitesOf n).foldl (fun (t : State) k => t.freeSuite k 0x02 0x66) s
  let t := ((t.stopMediaOf n).freeRingsOf n).freeQueuesOf n
  let t := (pairsOf n).foldl (fun (t : State) p => t.setPair p Pair.emptied) t
  t.setFunc n (fun f => { f with orphan := false, beat := none, d3 := false, held := [] })

/-- A virtual function exists in PCIe mode only (R334). -/
def State.flrOf (s : State) (n : Nat) : State := if s.fw.attach = 0 && s.fwOn then s.flr n else s

/-! ## Reset of every function's configuration (R336) -/

/-- Configuration state returns to its reset values: D0, no interrupt pending, and the size of BAR2 (log entry 147). -/
def State.resetConfig (s : State) : State :=
  { s with funcs := s.funcs.map (fun f => { f with d3 := false, held := [], bar2 := 36 }) }

/-- Hot reset and link down leave the link to train again; an FLR of function 0 leaves it up. -/
def State.resetHost (s : State) (k : HostReset) : State :=
  if s.fw.attach != 0 then s
  else match k with
    | .flr0 => s.resetConfig
    | _ => (s.resetConfig.setFw (fun f => { f with linkUp := false })).setHealth (fun h => { h with pcieDepth := 0 })

/-- The PCIe link trains, its crossing aligned again (R277); pending messages leave. -/
def State.linkTrained (s : State) : State :=
  if s.fw.attach != 0 then s else (List.range 17).foldl State.flushIrq ((s.setFw (fun f => { f with linkUp := true })).setHealth (fun h => { h with pcieDepth := 8 }))

/-- D3hot and back to D0 (R335). -/
def State.powerState (s : State) (f : Nat) (d3 : Bool) : State :=
  if s.fw.attach != 0 then s else (s.setFunc f (fun x => { x with d3 := d3 })).flushIrq f

/-! ## A request without a completion (R335, R336) -/

/-- A read through a host-target entry of function f failed: it is an access to an invalid entry by its requester (R288). -/
def State.hostTimeout (s : State) (f page : Nat) (who : HostRequester) : State :=
  match s.xentry page with
  | .host _ g _ =>
    if g != f || s.fw.attach != 0 then s
    else
      let t := s.logE 0x0023 4 f 0xff 0 0 page 0 0
      match who with
      | .walk n e => t.onRunning n (fun k => match (t.core n).walks.getD e none with
        | some r => t.skipped t k n r.i 0x09
        | none => t)
      | .ring n => t.ringStop n page
      | .stream n => t.streamFail n page
      | .session n => t.sessionFail n page
      | .queue n => t.pqStop n page
      | .hub => t
  | _ => s

/-! ## Starting the host cores (R343) -/

/-- Host start: in PCIe and USB mode, once. -/
def actHostStart (s : State) (r : Req) : State × Option (Nat × List Byte) :=
  let e := fld r.body 0 8
  let b := fld r.body 8 8
  if s.fw.hostRun || s.fw.attach = 2 || !s.inFn 0 e 1 || !s.inFn 0 b 1 then (s, some (0x80, []))
  else (s.startHost e b, some (0, []))

/-- What a physical address of the host cores reaches (R342). -/
inductive HostTarget where
  | device (a : Nat)
  | control (off : Nat)
  | aplic (off : Nat)
  | imsic (core off : Nat)
  | fault
  deriving DecidableEq, Repr

/-- The physical address map of the host cores (R342): device space and the control space as function 0 reaches them. -/
def hostTarget (a : Nat) : HostTarget :=
  if a < 0x1000000000 then .device a
  else if a < 0x1000000000 + 0x4000000 then .control (a - 0x1000000000)
  else if 0x1010000000 ≤ a && a < 0x1010008000 then .aplic (a - 0x1010000000)
  else if 0x1011000000 ≤ a && a < 0x1011008000 then .imsic ((a - 0x1011000000) / 4096) (a % 4096)
  else .fault

/-- The `time` counter of every host core (R342). -/
def State.hostTime (s : State) : Nat := s.now % 2 ^ 64

/-! ## Commands -/

/-- FLR_VF (R336). -/
def execFlrVf (n : Nat) (s : State) : Res := onUnit (1 ≤ n && n ≤ 16) s (s.flrOf n)

/-- VF_ENABLE_CLEAR (R336): an FLR of each virtual function removed, those above NumVFs. -/
def execVfEnableClear (n : Nat) (s : State) : Res :=
  onUnit (n ≤ 16) s (((List.range 17).filter (fun i => n < i)).foldl State.flrOf s)

/-- HOT_RESET (R336). -/
def execHotReset (k : HostReset) (s : State) : Res := whenOn s (s.resetHost k)

/-- COMPLETION_TIMEOUT (R335). -/
def execCompletionTimeout (f page : Nat) (who : HostRequester) (s : State) : Res := onUnit (f < 17) s (s.hostTimeout f page who)

/-- PCIE_LINK_TRAINED (R336). -/
def execPcieLinkTrained (s : State) : Res := whenOn s s.linkTrained

/-- POWER_STATE_CHANGE (R335). -/
def execPowerStateChange (f : Nat) (d3 : Bool) (s : State) : Res := onUnit (f < 17) s (s.powerState f d3)

/-- HOST_START (R343). -/
def execHostStart (p : Nat) (s : State) : Res := message p 0x0030 actHostStart s

end Sys2Proof.Machine
end

