-- ==== Sys2Proof/Machine/Loader.lean ====
section
/-! DEFINITION. Loading a program into a suite (R27, R226 to R233): the load message, the digest, the broadcast segments, the
bitmaps and the unicast rounds. The header and the section table of the staged image are read from its bytes (R214 to R216); the
LOAD command names the meaning of the sections' contents, whose encodings the spec does not give (R6, R217). -/

namespace Sys2Proof.Machine

/-- The range of a load message (R233). -/
def State.loadRange (s : State) (r : Req) : Bool :=
  let a := fld r.body 0 8
  let n := fld r.body 8 4
  a % 4096 = 0 && 128 ≤ n && n ≤ 16777216 && fld r.body 12 4 = 0 && s.fnReads r.fn a n

/-- Load (R233): a suite of the sender in state 1; a suite of another function is refused with 0x04 (R263). The reply comes when
the load has ended. -/
def actLoad (g : Program) (s : State) (r : Req) : State × Option (Nat × List Byte) :=
  let x := s.suite r.suite
  if x.st != 0 && x.owner != r.fn then (s, some (0x04, loadFields 0xff 0 0 []))
  else if x.st != 1 then (s, some (0x64, loadFields 0xff 0 0 []))
  else if !s.loadRange r then (s, some (0x65, loadFields 0xff 0 0 []))
  else
    let l : Load := { pair := r.pair, addr := fld r.body 0 8, len := fld r.body 8 4, prog := g, image := [], phase := 0, round := 0,
                      sent := [], seen := [], missing := [] }
    (s.setSuite r.suite (fun x => { x with st := 2, load := some l }), none)

/-! ## The image (R214 to R216) -/

/-- An entry of the section table (R216). -/
structure Section where
  type : Nat
  attr : Nat
  slot : Nat
  off  : Nat
  len  : Nat
  deriving DecidableEq, Repr

/-- The section table, behind the 64-byte header, whose bytes 22 and 23 count its entries (R215, R216). -/
def imageSections (b : List Byte) : List Section :=
  (List.range (fld b 22 2)).map (fun i =>
    let e := (b.drop (64 + 16 * i)).take 16
    { type := fld e 0 2, attr := fld e 2 2, slot := fld e 4 2, off := fld e 8 4, len := fld e 12 4 })

/-- A section marked core-loaded (R216). -/
def Section.onCores (x : Section) : Bool := bit x.attr 1

/-- A section for a core: of its slot, or of the whole suite (R216, R218). -/
def Section.forCore (g : Program) (n : Nat) (x : Section) : Bool := x.slot = 0xffff || g.place[x.slot]? = some n

/-- The image has a section of a type for a core, that the cores load or that the firmware applies (R217). -/
def hasSection (l : List Section) (g : Program) (type n : Nat) (cores : Bool) : Bool :=
  l.any (fun x => x.type = type && x.onCores = cores && x.forCore g n)

/-- The image has a section of a type, whatever its slot. -/
def hasAny (l : List Section) (type : Nat) (cores : Bool) : Bool := l.any (fun x => x.type = type && x.onCores = cores)

/-- A program as its image gives it: the header's skip policy (byte 14) and number of kernels (bytes 20 and 21), and the contents of
the sections that its table has: those of types 2, 3, 4 and 8 where the cores load them, those of types 5, 6 and 7 where the firmware
applies them (R215 to R217). -/
def imageProgram (b : List Byte) (g : Program) : Program :=
  let l := imageSections b
  let maxima := if hasAny l 2 true then g.maxima else []
  { place := g.place, skipPolicy := byteAt b 14,
    maxima := (List.range (fld b 20 2)).map (fun k => maxima.getD k []),
    walks := if hasAny l 3 true then g.walks else [],
    chains := if hasAny l 4 true then g.chains else [],
    bindings := g.bindings.filter (fun x => hasSection l g 5 x.core false),
    groups := if hasAny l 6 false then g.groups else [],
    flagInit := if hasAny l 7 false then g.flagInit else [],
    slots := g.slots.filter (fun x => hasSection l g 8 x.core true) }

/-! ## Step 3: the firmware-loaded sections (R111, R120, R130) -/

/-- A producer named by this chip's own number is local (R110). -/
def State.localProducer (s : State) (p : Producer) : Producer := if p.chip = some s.fab.chip && s.fab.chip != 0xfffff then { p with chip := none } else p

/-- A queue end as its binding makes it: empty, its local producers holding the depth or their shares (R111, R116, R117). -/
def State.boundQueue (s : State) (b : Binding) : QueueEnd :=
  let ps := b.producers.map s.localProducer
  let credits := (ps.filter (fun p => p.chip.isNone)).map (fun p => ({ core := p.core, n := if b.merge then p.share else b.depth } : Credit))
  { base := b.base, depth := b.depth, merge := b.merge, producers := ps, entries := [], used := 0, credits := credits, back := [] }

/-- The bindings of a core. -/
def State.queuesOf (s : State) (g : Program) (n : Nat) : AMap QueueEnd :=
  (g.bindings.filter (fun b => b.core = n && b.idx < 8192)).foldl (fun m b => aSet m b.idx (s.boundQueue b)) []

/-- Initial values of the core flags of a core (R120). -/
def coreFlagsOf (g : Program) (n : Nat) : AMap Nat :=
  g.flagInit.foldl (fun m i => match i.flag with
    | .core c l => if c = n && l < 1024 then aSet m l (i.value % M32) else m
    | .shelf _ _ => m) []

/-- Initial values of the shelf flags that a grant gives in cluster x: the program's, else 0 (R120). -/
def shelfFlagsOf (g : Program) (x : Nat) (r : Grant) (old : AMap Nat) : AMap Nat :=
  let cleared := old.filter (fun e => !(r.flag0 ≤ e.1 && e.1 < r.flag0 + r.flags))
  g.flagInit.foldl (fun m i => match i.flag with
    | .shelf y l => if y = x && r.flag0 ≤ l && l < r.flag0 + r.flags then aSet m l (i.value % M32) else m
    | .core _ _ => m) cleared

/-- The groups of a program (R130). -/
def groupsOf (g : Program) : AMap GroupRun :=
  g.groups.foldl (fun m d => if d.group < 64 then
      aSet m d.group { core := d.core, engine := d.engine, offered := none, taken := false, number := 0,
                       recvs := d.receivers.map (fun r => { core := r.q.core, qi := r.q.idx, fallback := r.fallback, attached := true,
                                                            accepted := false, lag := none, owes := false }) }
    else m) []

/-- Step 3 writes bindings, flags and groups of the suite's cores and grants, and no other (R27). -/
def State.applySections (s : State) (k : Nat) (g : Program) : State :=
  let x := s.suite k
  let t : State :=
    { s with
      cores := s.cores.mapIdx (fun n c => if bit x.mask n then { c with queues := s.queuesOf g n, flags := coreFlagsOf g n, got := [], store := [] } else c),
      clusters := s.clusters.mapIdx (fun i c => match x.grants[i]? with
        | some r => { c with flags := shelfFlagsOf g i r c.flags }
        | none => c) }
  t.setSuite k (fun x => { x with groups := groupsOf g, prog := some g })

/-! ## Step 2: the digest -/

/-- Change the load in progress of a suite. -/
def State.setLoad (s : State) (k : Nat) (f : Load → Load) : State := s.setSuite k (fun x => { x with load := x.load.map f })

/-- The image ends the load with a status; the suite returns to state 1 (R229, R230). -/
def State.failLoad (s : State) (k status core : Nat) : State := (s.endLoad k status core).setSuite k (fun x => { x with st := 1 })

/-- Step 2 ends: the SHA-384 of everything before the trailer equals the trailer, and step 3 follows; else status 0x60. -/
def State.digestDone (s : State) (k : Nat) : State :=
  match (s.suite k).load with
  | some l =>
    if (s.suite k).st = 2 && l.phase = 0 && s.fwOn && s.fw.update != 4 then
      let image := s.devRead l.addr l.len
      let d := sha384 (image.take (l.len - 48))
      let t := (s.touchAll l.addr l.len).setSuite k (fun x => { x with digest := d })
      if d = image.drop (l.len - 48) then
        (t.applySections k (imageProgram image l.prog)).setLoad k (fun l => { l with phase := 1, image := image })
      else (t.setLoad k (fun l => { l with phase := 1 })).failLoad k 0x60 0xff
    else s
  | none => s

/-! ## Steps 4 to 6: segments and bitmaps -/

/-- The load of a suite whose broadcast is under way, when core n belongs to the suite. -/
def State.broadcast (s : State) (k n : Nat) : Option Load :=
  match (s.suite k).load with
  | some l => if (s.suite k).st = 2 && l.phase = 1 && bit (s.suite k).mask n then some l else none
  | none => none

/-- Segment f of an image: 4 KiB, the last one shorter (R227). -/
def segBytes (image : List Byte) (f : Nat) : List Byte := (image.drop (4096 * f)).take 4096

/-- Bit i of a bitmap. -/
def mapBit (b : List Byte) (i : Nat) : Bool := bit (byteAt b (i / 8)) (i % 8)

/-- The 512-byte bitmap of the segments below a count that satisfy p (R228). -/
def segBitmap (n : Nat) (p : Nat → Bool) : List Byte :=
  let byte := fun (i : Nat) => ((List.range 8).map (fun j => if 8 * i + j < n && p (8 * i + j) then 2 ^ j else 0)).sum
  padTo 512 ((List.range ((n + 7) / 8)).flatMap (fun i => toLE 1 (byte i)))

/-- The bitmap of the segments that a core does not hold (R228). -/
def Core.missingSegs (c : Core) (len : Nat) : List Byte := segBitmap (segCount len) (fun i => !c.got.contains i)

/-- The segments that the present round sends to a core: all at the broadcast, those that it missed at a unicast round (R226). -/
def Load.sends (l : Load) (n : Nat) : List Byte :=
  if l.round = 0 then segBitmap (segCount l.len) (fun _ => true) else (aGet l.sent n).getD (zeros 512)

/-- The part of a section that lies in a segment: its offset in the image and its bytes. -/
def Section.part (x : Section) (f : Nat) (b : List Byte) : Option (Nat × List Byte) :=
  let lo := max x.off (4096 * f)
  let hi := min (x.off + x.len) (4096 * f + b.length)
  if lo < hi then some (lo, (b.drop (lo - 4096 * f)).take (hi - lo)) else none

/-- A core keeps of a segment the bytes of the core-loaded sections for its slot and for the whole suite (R227). -/
def Core.keepSegment (c : Core) (l : Load) (n f : Nat) (b : List Byte) : Core :=
  let mine := (imageSections l.image).filter (fun x => x.onCores && x.forCore l.prog n)
  { c with got := if c.got.contains f then c.got else c.got ++ [f],
           store := (mine.filterMap (fun x => x.part f b)).foldl (fun m e => aSet m e.1 e.2) c.store }

/-- A frame of the broadcast or of a unicast round that reaches a core whole (R227): a segment which the round sends to the core, with
its length and its bytes of the image. PRESUMED (log entry 150): damage that leaves the check right is left out. -/
def Load.good (l : Load) (n : Nat) (f : SegFrame) : Bool :=
  mapBit (l.sends n) f.segment && f.payload = segBytes l.image f.segment && f.payload.length = f.length && crc32c f.payload = f.check

/-- A segment frame whose check holds is kept; any other is as if it had not arrived (R227). -/
def State.takeSegment (s : State) (k n : Nat) (f : SegFrame) : State :=
  match s.broadcast k n with
  | some l => if l.good n f then s.setCore n (fun c => c.keepSegment l n f.segment f.payload) else s
  | none => s

/-- Credits that each listed remote producer is granted when the last core has acknowledged: the depth, or its share (R116, R117,
R356). -/
def State.grantRemote (s : State) (k : Nat) : State :=
  let recs := (coresOf (s.suite k).mask).flatMap (fun n => (s.core n).queues.flatMap (fun e => e.2.producers.filterMap (fun p =>
    match p.chip with
    | some c => if c = s.fab.chip && c != 0xfffff then none
                else some (c, queueWord n e.1 p.core, if e.2.merge then p.share else e.2.depth)
    | none => none)))
  recs.foldl (fun (t : State) r => t.oweCredit r.1 r.2.1 r.2.2) s

/-- Every core has acknowledged: the suite is idle, its remote producers have their credits and the load message is answered; with the owner in orphan mode the suite is
held before step 7 until adoption (R231, R232). -/
def State.loaded (s : State) (k : Nat) (l : Load) : State :=
  let orphan := (s.func (s.suite k).owner).orphan
  let t := s.setSuite k (fun x => { x with st := 3, load := if orphan then some { l with phase := 2 } else none })
  (t.grantRemote k).answerLate l.pair 0 (loadFields 0xff (segCount l.len) l.round (s.suite k).digest)

/-- A core that still misses segments after the eighth round is permanently faulty (R229). -/
def State.faultyCore (s : State) (k n count : Nat) : State :=
  (s.setHealth (fun h => { h with present := if bit h.present n then h.present - 2 ^ n else h.present })).logE 0x0013 4
    (s.suite k).owner k 14 n count 0 0

/-- The round ends when every core has reported: another unicast round, at most 8, or the load ends (R226, R229). -/
def State.roundEnd (s : State) (k : Nat) : State :=
  match (s.suite k).load with
  | none => s
  | some l =>
    let cs := coresOf (s.suite k).mask
    if !cs.all l.seen.contains then s
    else if l.missing.isEmpty then s.loaded k l
    else if 8 ≤ l.round then
      let bad := cs.filter (fun n => (aGet l.missing n).isSome)
      let count := fun n => ((List.range (segCount l.len)).filter (mapBit ((aGet l.missing n).getD []))).length
      (bad.foldl (fun (t : State) n => t.faultyCore k n (count n)) s).failLoad k 0x61 (bad.headD 0xff)
    else s.setLoad k (fun l =>
      { l with round := l.round + 1, sent := l.missing, seen := l.seen.filter (fun n => (aGet l.missing n).isNone), missing := [] })

/-- A core's report of one round, or its silence, counted once. -/
def State.report (s : State) (k n : Nat) (miss : Load → List Byte) : State :=
  match s.broadcast k n with
  | some l =>
    if l.seen.contains n then s
    else
      let m := miss l
      (s.setLoad k (fun l => { l with seen := l.seen ++ [n], missing := if allZero m then l.missing else aSet l.missing n m })).roundEnd k
  | none => s

/-! ## Commands -/

/-- LOAD (R233). -/
def execLoad (p : Nat) (g : Program) (s : State) : Res := message p 0x0013 (actLoad g) s

/-- LOAD_DIGEST_DONE (R226, R230). -/
def execLoadDigestDone (k : Nat) (s : State) : Res := onUnit (k < 32) s (s.digestDone k)

/-- SEGMENT_FRAME (R227). -/
def execSegmentFrame (k n : Nat) (f : SegFrame) (s : State) : Res := onUnit (k < 32 && n < 32) s (s.takeSegment k n f)

/-- MISSING_SEGMENT_REPORT (R228, R229). -/
def execMissingSegmentReport (k n : Nat) (s : State) : Res :=
  onUnit (k < 32 && n < 32) s (s.report k n (fun l => (s.core n).missingSegs l.len))

/-- BITMAP_REPORT_TIMEOUT (R228): the core counts as missing every segment of the round. -/
def execBitmapReportTimeout (k n : Nat) (s : State) : Res :=
  onUnit (k < 32 && n < 32) s (s.report k n (fun l => l.sends n))

end Sys2Proof.Machine
end

