-- ==== Sys2Proof/Machine/Power.lean ====
section
/-! DEFINITION. Supply points and the hardware limits (R394 to R405). Points and ceilings in mV, power in 0.1 W,
temperatures in degrees Celsius, busy fractions in thousandths. -/

namespace Sys2Proof.Machine

/-! ## Supply points (R396, R397) -/

def floor10 (n : Nat) : Nat := n / 10 * 10

def ceil10 (n : Nat) : Nat := (n + 9) / 10 * 10

/-- Does the throttle act on a cluster's die? -/
def State.throttled (s : State) (x : Nat) : Bool := if x < 4 then s.power.thr0 else s.power.thr1

/-- The throttle's ceiling in whole points: it falls, and rises, by 10 mV each 100 µs (R399). -/
def State.thrPoint (s : State) (x : Nat) : Nat :=
  if s.throttled x then ceil10 (s.cluster x).thrCeil else floor10 (s.cluster x).thrCeil

/-- The lowest hardware ceiling of a cluster (R396, R399). -/
def State.hwCeil (s : State) (x : Nat) : Nat := min s.fuses.vmax (min (s.cluster x).curCeil (s.thrPoint x))

/-- Does a cluster hold a core of some suite (R397)? -/
def State.clusterUsed (s : State) (x : Nat) : Bool := (List.range 4).any (fun i => (s.suiteOf (4 * x + i)).isSome)

/-- Clamp to floor, ceiling and hardware ceilings, in this order. -/
def State.clampTarget (s : State) (x t : Nat) : Nat :=
  min (min (max t (s.cluster x).floor) (s.cluster x).ceil) (s.hwCeil x)

/-- The new target of a window with a busy fraction in thousandths (R396). -/
def State.newTarget (s : State) (x busy : Nat) : Nat :=
  let t := (s.cluster x).target
  s.clampTarget x (if !s.clusterUsed x then (s.cluster x).floor
    else if 750 ≤ busy then t + 20 else if busy ≤ 250 then t - 10 else t)

/-- Move towards a target by at most d. -/
def approach (d p t : Nat) : Nat := if p < t then min (p + d) t else max (p - d) t

/-- REGULATOR_WINDOW: the output has moved for 10 µs at 10 mV per µs, then the target is chosen anew. -/
def State.regWindow (s : State) (x busy : Nat) : State :=
  if clusterFitted s.fuses.grade x && (s.cluster x).powered then
    s.setCluster x (fun c => { c with point := approach 100 c.point c.target, target := s.newTarget x busy })
  else s

/-! ## Limits (R399, R400) -/

/-- A limit starts to act: sticky bit, and a log entry with its reading (R400, R405, R433). -/
def State.limitActs (s : State) (bit_ limit kind unit reading : Nat) : State :=
  (s.setPower (fun p => { p with seen := p.seen ||| 2 ^ bit_ })).logE 0x0031 0 0xff 0xff kind unit limit reading 0

/-- Ceilings of the current limit at one sensing: down 10 mV per µs while it acts, else up 10 mV per 10 µs. -/
def State.moveCurrent (s : State) : State :=
  { s with clusters := s.clusters.map (fun c =>
      { c with curCeil := if s.power.current then max 600 (c.curCeil - 100) else min s.fuses.vmax (c.curCeil + 10) }) }

/-- POWER_SENSE: the package power of the last 10 µs. -/
def State.senseStep (s : State) (p : Nat) : State :=
  let t := s.setPower (fun w => { w with
    readings := (p :: w.readings).take 100, energy := w.energy + p,
    overFrom := if 2200 < p then some (w.overFrom.getD s.now) else none,
    underFrom := if p ≤ 2000 then some (w.underFrom.getD s.now) else none })
  let held := fun (o : Option Nat) (d : Nat) => match o with | some a => a + d ≤ s.now | none => false
  if !s.power.current && held t.power.overFrom 100000 then
    let u : State := { t with clusters := t.clusters.map (fun c => { c with curCeil := max 600 c.point }) }
    let u := u.setPower (fun w => { w with current := true, curEvents := inc32 w.curEvents })
    u.limitActs 0 0 0 0 p
  else if s.power.current && held t.power.underFrom 1000000 then
    (t.setPower (fun w => { w with current := false })).moveCurrent
  else t.moveCurrent

/-- Stacks fitted in the grade. -/
def State.stackTemps (s : State) : List Int := s.xlt.stackTemp.take (s.n0 / 32)

/-- Does the throttle act on a die after a reading (R399)? -/
def State.throttleNext (s : State) (acts : Bool) (die : Int) : Bool :=
  if acts then !(die ≤ 100 && s.stackTemps.all (fun t => t < 95))
  else 105 ≤ die || s.stackTemps.any (fun t => 100 ≤ t)

/-- The throttle starts on a die: each cluster's ceiling starts at its present point. -/
def State.throttleStart (s : State) (d : Nat) (reading : Int) : State :=
  let t : State := { s with clusters := s.clusters.mapIdx (fun x c => if x / 4 = d then { c with thrCeil := max 600 c.point } else c) }
  (t.setPower (fun w => { w with thrEvents := inc32 w.thrEvents })).limitActs (1 + d) 1 13 d (s32 reading)

/-- Ceilings of the throttle at one sensing: 1 mV each 10 µs. -/
def State.moveThrottle (s : State) : State :=
  { s with clusters := s.clusters.mapIdx (fun x c =>
      { c with thrCeil := if s.throttled x then max 600 (c.thrCeil - 1) else min s.fuses.vmax (c.thrCeil + 1) }) }

/-- A compute die reached 115 °C: both dies' regulators switch off, and a fault is raised (R401). -/
def State.tripNow (s : State) (die : Nat) (reading : Int) : State :=
  let t := s.diesOff.setPower (fun w => { w with trip := true, tripEvents := inc32 w.tripEvents })
  (t.limitActs 3 2 13 die (s32 reading)).raiseFault 8 die 0

/-- THERMAL_SENSE: readings, throttle, hub-hot bit and trip. -/
def State.thermalStep (s : State) (r : Temps) : State :=
  let n0 := s.throttleNext s.power.thr0 r.die0
  let n1 := s.throttleNext s.power.thr1 r.die1
  let t := s.setPower (fun w => { w with die0 := r.die0, die1 := r.die1, hub := r.hub, hubHot := decide (105 < r.hub),
                                         seen := if 105 < r.hub ∧ !w.hubHot then w.seen ||| 16 else w.seen })
  let t : State := { t with clusters := t.clusters.mapIdx (fun x c => { c with temp := r.clusters.getD x c.temp }) }
  let t := if n0 && !s.power.thr0 then t.throttleStart 0 r.die0 else t
  let t := if n1 && !s.power.thr1 then t.throttleStart 1 r.die1 else t
  let t := (t.setPower (fun w => { w with thr0 := n0, thr1 := n1 })).moveThrottle
  let t := if 115 ≤ r.die0 ∧ s.power.die0 < 115 then t.tripNow 0 r.die0 else t
  if 115 ≤ r.die1 ∧ s.power.die1 < 115 then t.tripNow 1 r.die1 else t

/-- TRIP_COOLDOWN: every compute-die sensor reads 95 °C or below; the reseat's time counts from here (R401). -/
def State.coolDown (s : State) (r : Temps) : State :=
  if s.power.trip && decide (r.die0 ≤ 95) && decide (r.die1 ≤ 95) && r.clusters.all (fun t => decide (t ≤ 95)) then
    let t := s.setPower (fun w => { w with trip := false, die0 := r.die0, die1 := r.die1, hub := r.hub })
    if t.reseating then t.setHealth (fun h => { h with reseatAt := some s.now })
    else if t.health.phase = 4 then t.powerClusters else t
  else s

/-- THERMTRIP: a hub-die sensor at 125 °C asserts THERMTRIP_N until power-good falls (R402). -/
def State.thermPinNow (s : State) (t : Int) : State :=
  if 125 ≤ t then s.setPower (fun w => { w with thermPin := false, hub := t }) else s

/-- A bound as it is stored: rounded down to 10 mV and clamped (R405). -/
def boundOf (v : Nat) : Nat := max 600 (min 850 (floor10 v))

/-- CL_BOUNDS_WRITE: through function 0 only (R337). The fields are compared as rounded, before the clamp (DEDUCED, log entry 51). -/
def State.writeBounds (s : State) (f x v : Nat) : State :=
  let lo := bits v 9 0
  let hi := bits v 25 16
  if f = 0 && floor10 lo ≤ floor10 hi then s.setCluster x (fun c => { c with floor := boundOf lo, ceil := boundOf hi }) else s

/-! ## Commands -/

/-- REGULATOR_WINDOW (R396). -/
def execRegulatorWindow (x busy : Nat) (s : State) : Res := onUnit (x < 8 && busy ≤ 1000) s (s.regWindow x busy)

/-- POWER_SENSE (R399). -/
def execPowerSense (p : Nat) (s : State) : Res := whenOn s (s.senseStep p)

/-- THERMAL_SENSE (R399). -/
def execThermalSense (t : Temps) (s : State) : Res := whenOn s (s.thermalStep t)

/-- TRIP_COOLDOWN (R401). -/
def execTripCooldown (t : Temps) (s : State) : Res := whenOn s (s.coolDown t)

/-- THERMTRIP (R402). -/
def execThermtrip (t : Int) (s : State) : Res := whenOn s (s.thermPinNow t)

/-- CL_BOUNDS_WRITE (R405). -/
def execClBoundsWrite (f x v : Nat) (s : State) : Res := onUnit (f < 17 && x < 8) s (s.writeBounds f x v)

end Sys2Proof.Machine
end

