-- ==== Sys2Proof/Machine/TimeBase.lean ====
section
/-! DEFINITION. The time base, its steps and the pulse servo (R349 to R352). -/

namespace Sys2Proof.Machine

/-- With source 1 the frequency stays SyncE's: the servo's correction lasts for the second after a pulse and adjusts the phase alone
(R352). With source 0 it is part of the rate, at which holdover runs on. -/
def TimeBase.servo (t : TimeBase) : Int :=
  if t.source = 1 then
    match t.ppsLast with
    | some a => if t.count < a + 1000000000 then t.ppsAdj else 0
    | none => 0
  else t.ppsAdj

/-- The increment of the next tick in 2^-32 ns, before a step is absorbed (R350, R352). -/
def TimeBase.rate (t : TimeBase) : Nat := (((if t.source = 1 then t.measured else t.inc : Nat) : Int) + t.servo).toNat

/-- What one tick adds in 2^-32 ns, and what it absorbs: a negative step halves the increment (R351). -/
def TimeBase.tick (t : TimeBase) : Nat × Nat :=
  let r := t.rate
  let d := if t.stepping then min t.absorb (r - r / 2) else 0
  (r - d, d)

/-- One rising edge of REFCLK. `synce` is the increment that SYNCE_IN's rate gives, in whole ns and 2^-32 ns. -/
def TimeBase.edge (t : TimeBase) (synce : Option (Nat × Nat)) : TimeBase :=
  let m := match synce with
    | some p => p.1 * 0x100000000 + p.2
    | none => t.measured
  let u := { t with measured := m, synce := t.source = 1 && synce.isSome }
  let k := u.tick
  let sum := u.frac + k.1
  { u with count := (u.count + u.stepAdd + sum / 0x100000000) % 2 ^ 64, frac := sum % 0x100000000, stepAdd := 0,
           absorb := u.absorb - k.2 }

/-- A write of both halves of the increment; without effect under source 1 (R350). -/
def TimeBase.writeIncr (t : TimeBase) (v : Nat) : TimeBase :=
  if t.source = 1 then t else { t with incInt := v % 256, inc := v % 256 * 0x100000000 + t.shadow }

/-- A phase step of s ns (R351). -/
def TimeBase.step (t : TimeBase) (s : Int) : TimeBase :=
  if s < -1000000000 ∨ 1000000000 < s then t
  else if t.stepping then { t with refused := true }
  else if 0 ≤ s then { t with stepAdd := t.stepAdd + s.toNat }
  else { t with absorb := (-s).toNat * 0x100000000, stepping := true }

/-- Signed distance of a count from the nearest whole second (R352). -/
def secondError (c : Nat) : Int := if c % 1000000000 ≤ 500000000 then (c % 1000000000 : Nat) else ((c % 1000000000 : Nat) : Int) - 1000000000

/-- A rising edge on PPS_IN. The rate that corrects a small difference is a free value (log entry 14). -/
def TimeBase.ppsEdge (t : TimeBase) : TimeBase :=
  if !t.servoOn then t
  else
    let e := secondError t.count
    let good := if -50 ≤ e ∧ e ≤ 50 then t.ppsGood + 1 else 0
    let u := { t with ppsError := e, ppsGood := min good 3, locked := 3 ≤ good, holdover := false, ppsLast := some t.count }
    if e < -1000 ∨ 1000 < e then (if t.stepping then u else u.step (-e)) else { u with ppsAdj := Config.servoRate e }

/-- No pulse within 1.1 s of the last one: holdover at the last rate. -/
def TimeBase.enterHoldover (t : TimeBase) : TimeBase :=
  match t.ppsLast with
  | some a => if t.servoOn && a + 1100000000 ≤ t.count then { t with holdover := true, locked := false, ppsGood := 0 } else t
  | none => t

/-- The count stands within 100 µs after a whole second: PPS_OUT is high until then. -/
def TimeBase.ppsRise (t : TimeBase) : TimeBase :=
  if t.ppsOutOn && t.count % 1000000000 < 100000 then
    { t with ppsHigh := some (t.count - t.count % 1000000000 + 100000) }
  else t

/-- The level of ball PPS_OUT. -/
def TimeBase.ppsPin (t : TimeBase) : Bool :=
  match t.ppsHigh with
  | some a => t.count < a
  | none => false

/-! ## Triggers that a positive step passes (R351) -/

/-- The first of a group's triggers that an ordinary tick to the instant c0 does not reach. -/
def LockGroup.beyond (g : LockGroup) (c0 : Nat) : Nat := max g.next (firstTrigger g.epoch g.period (c0 + 1))

/-- How many of a group's triggers lie beyond the instant c0, which an ordinary tick would have reached, and before c1. -/
def LockGroup.passed (g : LockGroup) (c0 c1 : Nat) : Nat := firstTrigger g.epoch g.period c1 - g.beyond c0

/-- The triggers that are due at c0, before the step carries the count on, fire. -/
def State.fireDue (s : State) (c0 : Nat) : State :=
  s.media.groups.foldl (fun t e => (List.range (e.2.beyond c0 - e.2.next)).foldl (fun t _ => t.fire e.1) t) s

/-- The triggers that a step passes are missed for every member, and their numbers stay unused. -/
def State.passTriggers (s : State) (c0 c1 : Nat) : State :=
  let t := s.fireDue c0
  t.setMedia (fun m => { m with
    groups := m.groups.map (fun e => (e.1, { e.2 with next := e.2.next + e.2.passed c0 c1 })),
    ctxs := m.ctxs.map (fun e => match e.2.group.bind (aGet m.groups) with
      | some g => if e.2.live then (e.1, { e.2 with missed := addStop e.2.missed (g.passed c0 c1) }) else e
      | none => e) })

/-- A rising edge of REFCLK, with what a positive step passes. -/
def State.refEdge (s : State) (synce : Option (Nat × Nat)) : State :=
  let t := s.setTs (fun x => x.edge synce)
  if s.ts.stepAdd = 0 then t else t.passTriggers (t.now - s.ts.stepAdd) t.now

/-! ## Commands -/

/-- REFCLK_EDGE (R349). -/
def execRefclkEdge (synce : Option (Nat × Nat)) (s : State) : Res := whenOn s (s.refEdge synce)

/-- TS_INCR_WRITE (R350): through function 0 only (R337). -/
def execTsIncrWrite (f v : Nat) (s : State) : Res :=
  onUnit (f < 17) s (if f = 0 then s.setTs (fun t => t.writeIncr v) else s)

/-- TS_STEP (R351): through function 0 only (R337). -/
def execTsStep (f v : Nat) (s : State) : Res :=
  onUnit (f < 17) s (if f = 0 then s.setTs (fun t => t.step (signed32 (v % M32))) else s)

/-- TS_STEP_ABSORBED (R351). -/
def execTsStepAbsorbed (s : State) : Res :=
  whenOn s (s.setTs (fun t => if t.absorb = 0 then { t with stepping := false } else t))

/-- PPS_IN_EDGE (R352). -/
def execPpsInEdge (s : State) : Res := whenOn s (s.setTs TimeBase.ppsEdge)

/-- PPS_HOLDOVER (R352). -/
def execPpsHoldover (s : State) : Res := whenOn s (s.setTs TimeBase.enterHoldover)

/-- PPS_OUT (R352). -/
def execPpsOut (s : State) : Res := whenOn s (s.setTs TimeBase.ppsRise)

end Sys2Proof.Machine
end

