-- ==== Sys2Proof/Machine/Xlate.lean ====
section
/-! DEFINITION. The translation table's messages (R286, R289 to R291), host accesses through BAR2 (R287) and the
pseudo-channel controllers (R292 to R296, R302). -/

namespace Sys2Proof.Machine

/-! ## Windows (R286) -/

/-- A window holds a set-up ring of its owner: some byte of its slots or of its index word lies in it. -/
def State.windowHasRing (s : State) (w : Window) : Bool :=
  (s.ringsOf w.owner).any (fun e =>
    let a := e.2.base - 16
    overlapN w.first w.count (pageOf a) (pageCount a (16 + 2 ^ (e.2.slotLog + e.2.cntLog))) != 0)

def windowRange (op : Nat) (b : List Byte) : Bool :=
  byteAt b 1 = 0 && fld b 13 3 = 0 && fld b 20 4 = 0 &&
    (op != 0 || (fld b 4 4 < 0x1000000 && 1 ≤ fld b 8 4 && fld b 4 4 + fld b 8 4 ≤ 0x1000000 && byteAt b 12 ≤ 16))

/-- The checks of R286 in their order; 0 when all hold. -/
def State.windowStatus (s : State) (f op n : Nat) (b : List Byte) : Nat :=
  let old := aGet s.xlt.windows n
  if 2 < op || 1023 < n then 0x28
  else if (op != 2 && f != 0) || (op = 2 && (match old with | some w => w.owner != f | none => false)) then 0x24
  else if (op = 0) = old.isSome then 0x25
  else if op = 0 && s.xlt.windows.any (fun w => overlapN w.2.first w.2.count (fld b 4 4) (fld b 8 4) != 0) then 0x26
  else if op = 1 && (match old with | some w => s.windowHasRing w | none => false) then 0x27
  else if !windowRange op b then 0x28
  else 0

/-- The drain of a change of these pages, asked for by a pair, begins: they had their entries of `old` before it (R291). -/
def State.startDrain (s : State) (p : Nat) (pages : List Nat) (old : State) : State :=
  s.setXlt (fun x => { x with drains := x.drains ++ [{ pair := p, at_ := s.now, old := pages.map (fun v => (v, old.xentry v)) }] })

/-- One window message: create, delete or set the suite mask. A change of the mask takes effect as a table change does (R286, R291):
the window's cached entries go, and the answer follows when the drain completes. -/
def actWindow (s : State) (r : Req) : State × Option (Nat × List Byte) :=
  let b := r.body
  let op := byteAt b 0
  let n := fld b 2 2
  let st := s.windowStatus r.fn op n b
  if st != 0 then (s, some (st, []))
  else match op with
    | 0 =>
      let w : Window := { first := fld b 4 4, count := fld b 8 4, owner := byteAt b 12, mask := fld b 16 4 }
      (s.setXlt (fun x => { x with windows := aSet x.windows n w }), some (0, []))
    | 1 => (s.setXlt (fun x => { x with windows := aErase x.windows n }), some (0, []))
    | _ =>
      let t := s.setXlt (fun x => { x with windows := aMod x.windows n (fun w => { w with mask := fld b 16 4 }) })
      let pages := match aGet s.xlt.windows n with
        | some w => (List.range w.count).map (· + w.first)
        | none => []
      ((t.uncache pages).startDrain r.pair pages s, none)

/-- The window message of one operation only; an undefined operation is answered as a create. -/
def windowMessage (p op : Nat) (s : State) : State :=
  match s.request p with
  | some r =>
    if r.type = 0x0015 && (byteAt r.body 0 = op || (op = 0 && 2 < byteAt r.body 0)) then s.serveReq r actWindow else s
  | none => s

/-! ## Map (R283, R289 to R291) -/

/-- The 64 bits of an entry (R283). -/
def XEntry.bits : XEntry → Nat
  | .invalid l => l * 2
  | .hbm f c w => f * 2 ^ 18 + c * 2 ^ 12 + b2n w * 4 + 1
  | .host p f w => p * 2 ^ 12 + f * 2 ^ 7 + b2n w * 4 + 3

/-- An entry value of a list. -/
def parseXEntry (w : Nat) : XEntry :=
  if !bit w 0 then .invalid (w % 2 ^ 64 / 2)
  else if bit w 1 then .host (bits w 63 12) (bits w 11 7) (bit w 2)
  else .hbm (bits w 35 18) (bits w 17 12) (bit w 2)

/-- The lost field and the reserved bits are 0, whether the entry is valid or not; the function field of an HBM target is 0 (R283, R289). -/
def entryReserved (w : Nat) : Bool :=
  bits w 6 3 = 0 && (bit w 1 || (bits w 63 36 = 0 && bits w 11 7 = 0))

/-- Check 0x21 for the entry of page v: the frame may be mapped there. -/
def State.frameOk (s : State) (v : Nat) (rest : List Nat) : XEntry → Bool
  | .hbm f c _ =>
    let k := frameKey c f
    s.present c && f < s.mappable && !s.xlt.retired.contains k && !s.xlt.taken.contains k && !rest.contains k &&
      !s.xlt.table.any (fun e => e.1 != v && (match e.2 with | .hbm g d _ => frameKey d g = k | _ => false))
  | _ => true

/-- The frame keys that entries name, but for position i. -/
def otherKeys (l : List XEntry) (i : Nat) : List Nat :=
  ((l.eraseIdx i).filterMap (fun e => match e with | .hbm f c _ => some (frameKey c f) | _ => none))

def XEntry.isHost : XEntry → Bool
  | .host _ _ _ => true
  | _ => false

/-- Host-target pages outside a range. -/
def State.hostPagesOutside (s : State) (v n : Nat) : Nat :=
  (s.xlt.table.filter (fun e => e.2.isHost && !(v ≤ e.1 && e.1 < v + n))).length

/-- Check 0x22 for position i. -/
def State.hostOk (s : State) (f v : Nat) (l : List XEntry) (i : Nat) : Bool :=
  match l.getD i (.invalid 0) with
  | .host _ g _ =>
    g = f && s.fw.attach = 0 && s.fw.linkUp &&
      s.hostPagesOutside v l.length + ((l.take (i + 1)).filter XEntry.isHost).length ≤ 4194304
  | _ => true

/-- First position of 0 to n - 1 at which a check fails. -/
def firstFail (n : Nat) (ok : Nat → Bool) : Option Nat := (List.range n).find? (fun i => !ok i)

/-- The checks of R289 over the entries, in the order of their statuses. -/
def State.mapChecks (s : State) (f v n : Nat) (words : List Nat) : Option (Nat × Nat) :=
  let l := words.map parseXEntry
  match firstFail n (fun i => s.covered (fun w => w.owner = f) (v + i) 1) with
  | some i => some (0x20, i)
  | none => match firstFail words.length (fun i => s.frameOk (v + i) (otherKeys l i) (l.getD i (.invalid 0))) with
    | some i => some (0x21, i)
    | none => match firstFail words.length (s.hostOk f v l) with
      | some i => some (0x22, i)
      | none => match firstFail words.length (fun i => entryReserved (words.getD i 0)) with
        | some i => some (0x23, i)
        | none => none

/-- Fill a frame with zeros (R290). -/
def State.clearFrame (s : State) (k : Nat) : State :=
  { s with
    hbm := s.hbm.filter (fun c => c.1 / 4096 != k),
    chans := lMod s.chans (k / 196608) (fun c => { c with
      wq := c.wq.filter (fun w => w.sector / 64 != k % 196608),
      waiting := c.waiting.filter (fun w => !(w.write && w.sector / 64 = k % 196608)) }) }

/-- Give a frame to function f: it is cleared unless f mapped it last (R290). -/
def State.giveFrame (s : State) (f k : Nat) : State :=
  let t := if aGet s.xlt.owners k = some f then s else s.clearFrame k
  t.setXlt (fun x => { x with owners := aSet x.owners k f })

/-- Write one entry of a map message. -/
def State.mapEntry (s : State) (f v : Nat) (e : XEntry) : State :=
  match e with
  | .hbm g c _ => (s.giveFrame f (frameKey c g)).setEntry v e
  | _ => s.setEntry v e

/-- Map (R289): the answer follows when the drain of R291 completes. -/
def actMap (s : State) (r : Req) : State × Option (Nat × List Byte) :=
  let b := r.body
  let v := fld b 0 4
  let n := fld b 4 4
  let a := fld b 8 8
  let op := byteAt b 16
  if 1 < op || 0xffffff < v || n < 1 || 0x1000000 < v + n || fld b 17 7 != 0 || (op = 0 && !s.fnReads r.fn a (8 * n)) then
    (s, some (0x23, toLE 4 0))
  else
    let words := if op = 0 then (List.range n).map (fun i => leNat (s.devRead (a + 8 * i) 8)) else []
    match s.mapChecks r.fn v n words with
    | some e => (s, some (e.1, toLE 4 e.2))
    | none =>
      let s := if op = 0 then s.touchAll a (8 * n) else s
      let pages := (List.range n).map (· + v)
      let t := pages.foldl (fun t p => t.mapEntry r.fn p (if op = 0 then parseXEntry (words.getD (p - v) 0) else .invalid 0)) s
      ((t.uncache pages).startDrain r.pair pages s, none)

/-- The fields of the answer that a pair's drain lets go: the index of a map message, and none of a window message. -/
def State.drainFields (s : State) (p : Nat) : List Byte := if (parseReq p (s.pair p).asked).type = 0x0018 then toLE 4 0 else []

/-- No controller holds a request that an old entry of a change translated (R291 step 2). -/
def State.drained (s : State) (d : Drain) : Bool :=
  (d.old.filterMap (fun e => e.2.frameKey?)).all (fun k =>
    let c := s.chan (k / 196608)
    let mine := fun (sector at_ : Nat) => sector / 64 = k % 196608 && at_ ≤ d.at_
    !(c.rq.any (fun r => mine r.sector r.at_)) && !(c.wq.any (fun w => mine w.sector w.at_)) &&
      !(c.waiting.any (fun w => w.sector / 64 = k % 196608)))

/-- Requests translated by old entries are performed or forwarded; the message is answered (R291). -/
def State.drainDone (s : State) (p : Nat) : State :=
  if s.firmwareActs && s.xlt.drains.any (fun d => d.pair = p) && s.xlt.drains.all (fun d => d.pair != p || s.drained d) then
    (s.setXlt (fun x => { x with drains := x.drains.filter (fun d => d.pair != p) })).answerLate p 0 (s.drainFields p)
  else s

/-! ## Controllers (R292 to R296) -/

/-- Writes other than class 0 are eligible from 48 queued until 16 remain (R293). -/
def drainFlag (c : Chan) : Chan :=
  { c with draining := if 48 ≤ c.wq.length then true else if c.wq.length ≤ 16 then false else c.draining }

def fullMask : Nat := 2 ^ 64 - 1

/-- Merge newer bytes into a queued write. -/
def mergeWrite (w : WriteReq) (mask : Nat) (data : List Byte) : WriteReq :=
  { w with mask := w.mask ||| mask,
           data := (List.range 64).map (fun i => if bit mask i then data.getD i 0 else w.data.getD i 0) }

/-- A translated write enters, merges, or waits outside a full queue (R292). -/
def Chan.enterWrite (c : Chan) (now sector cls mask : Nat) (data : List Byte) : Chan :=
  match queuedWrite c sector with
  | some _ => { c with wq := c.wq.map (fun w => if w.sector = sector then mergeWrite w mask data else w) }
  | none =>
    if 64 ≤ c.wq.length then
      { c with waiting := c.waiting ++ [{ write := true, who := .hub, sector := sector, cls := cls, mask := mask, data := data, spec := false }] }
    else drainFlag { c with wq := c.wq ++ [{ sector := sector, cls := cls, at_ := now, mask := mask, data := data, aged := false }] }

/-- A translated read: a full-mask match answers at once, otherwise it enters or waits outside a full queue; a partial match holds it. -/
def State.enterRead (s : State) (p : Nat) (who : MemUser) (sector cls : Nat) (spec : Bool) : State :=
  let c := s.chan p
  match (queuedWrite c sector).filter (fun w => w.mask = fullMask) with
  | some w => s.setOut (fun o => { o with data := w.data })
  | none =>
    if 128 ≤ c.rq.length then
      s.setChan p (fun c => { c with waiting := c.waiting ++
        [{ write := false, who := who, sector := sector, cls := cls, mask := 0, data := [], spec := spec }] })
    else s.setChan p (fun c => { c with rq := c.rq ++ [{ who := who, sector := sector, cls := cls, at_ := s.now, spec := spec, aged := false,
                                                         held := (queuedWrite c sector).isSome }] })

/-- A request that waited outside a queue is presented again. -/
def State.enterHeld (s : State) (p : Nat) (h : HeldReq) : State :=
  if h.write then s.setChan p (fun c => c.enterWrite s.now h.sector h.cls h.mask h.data) else s.enterRead p h.who h.sector h.cls h.spec

/-- Whatever a full queue held enters as far as there is room now, oldest first (R292). -/
def State.admitHeld (s : State) (p : Nat) : State :=
  (s.chan p).waiting.foldl (fun t h => t.enterHeld p h) (s.setChan p (fun c => { c with waiting := [] }))

/-- Where the 64-byte sector of a page's entry lies: its pseudo-channel and sector number (R284, R285). -/
def State.tableSector (s : State) (v : Nat) : Nat × Nat :=
  let k := s.tableFrame (v / 512)
  (k / 196608, k % 196608 * 64 + v % 512 / 8)

/-- Look up the page of a request: a miss reads its sector of the table, in the request's class (R285). Of a speculative read that
meets an invalid entry no count remains (R163). -/
def State.lookUp (s : State) (r : MemReq) : State :=
  let v := pageOf r.addr
  if s.cached v then s
  else
    let a := s.tableSector v
    let t := if s.present a.1 then s.enterRead a.1 .table a.2 r.cls r.spec else s
    match r.spec, s.xentry v with
    | true, .invalid _ => t.fillCache v
    | _, _ => t.touch v

/-- MEM_REQUEST: the sector's page is translated, and the request enters its controller (R282, R292). -/
def State.memRequest (s : State) (r : MemReq) : State :=
  let t := s.lookUp r
  match s.xentry (pageOf r.addr) with
  | .hbm f p w =>
    let sector := f * 64 + r.addr % 4096 / 64
    if !s.present p then t
    else if r.write then
      if w then t.setChan p (fun c => c.enterWrite s.now sector r.cls (r.mask % 2 ^ 64) (padTo 64 r.data)) else t
    else t.enterRead p r.who sector r.cls r.spec
  | _ => t

/-- A request older than the age limit (R293, R302). -/
def State.overAge (s : State) (at_ : Nat) : Bool := at_ + 1000 * s.xlt.ageLimit < s.now

/-- AGE_PROMOTION: every request over the limit is promoted, and counted once. -/
def State.promote (s : State) (p : Nat) : State :=
  let c := s.chan p
  let n := (c.rq.filter (fun r => s.overAge r.at_ && !r.aged)).length + (c.wq.filter (fun w => s.overAge w.at_ && !w.aged)).length
  s.setChan p (fun c => { c with
    promoted := (c.promoted + n) % M48,
    rq := c.rq.map (fun r => { r with aged := r.aged || s.overAge r.at_ }),
    wq := c.wq.map (fun w => { w with aged := w.aged || s.overAge w.at_ }) })

/-- One eligible request, as the choice of R293 sees it. -/
structure SchedCand where
  write  : Bool
  sector : Nat
  cls    : Nat
  at_    : Nat
  aged   : Bool
  isOpen : Bool
  deriving DecidableEq, Repr

def Chan.rowOpen (c : Chan) (sector : Nat) : Bool := aGet c.openRow (Config.bankOf sector) = some (Config.rowOf sector)

/-- A partial write of its sector still holds a read (R292). -/
def Chan.holds (c : Chan) (r : ReadReq) : Bool := r.held && (queuedWrite c r.sector).isSome

/-- Reads, but for those held; class-0 writes; other writes while draining, with no read waiting, or holding a read. -/
def Chan.candidates (c : Chan) : List SchedCand :=
  (c.rq.filter (fun r => !c.holds r)).map
    (fun r => { write := false, sector := r.sector, cls := r.cls, at_ := r.at_, aged := r.aged, isOpen := c.rowOpen r.sector }) ++
  (c.wq.filter (fun w => w.cls = 0 || c.draining || c.rq.isEmpty || c.rq.any (fun r => r.held && r.sector = w.sector))).map
    (fun w => { write := true, sector := w.sector, cls := w.cls, at_ := w.at_, aged := w.aged, isOpen := c.rowOpen w.sector })

/-- The order of R293: promoted ones, oldest first; then class, open row, age. -/
def SchedCand.before (a b : SchedCand) : Bool :=
  if a.aged != b.aged then a.aged
  else if a.aged then a.at_ < b.at_
  else if a.cls != b.cls then a.cls < b.cls
  else if a.isOpen != b.isOpen then a.isOpen
  else a.at_ < b.at_

/-- The first candidate in that order; arrival order decides what remains. -/
def firstSched : List SchedCand → Option SchedCand
  | [] => none
  | a :: t => match firstSched t with
    | none => some a
    | some b => if b.before a then some b else some a

/-- The counts that an outcome adds (R295). -/
def countOutcome (o : MemOutcome) (spec : Bool) (c : Chan) : Chan :=
  match o with
  | .corrected => { c with corrected := (c.corrected + 1) % M48 }
  | .parity n => { c with parity := min (c.parity + n) 0xffffffff }
  | .repeatFail => if spec then c else { c with parity := min (c.parity + 4) 0xffffffff }
  | .transient => if spec then c else { c with uncorr := inc32 c.uncorr }
  | _ => c

/-- The faults and entries that an outcome makes (R295, R296); a speculative read raises nothing (R163). -/
def State.afterOutcome (s : State) (p frame : Nat) (o : MemOutcome) (spec : Bool) : State :=
  match o with
  | .repeatFail => if spec then s else s.raiseFault 5 p 0
  | .transient => if spec then s else s.logTransient 2 p 4 frame
  | .persistent => if spec then s else s.raiseFault 4 p frame
  | _ => s

/-- What becomes of the requester when a committed read returns no data (R295): a host's read completes with Completer Abort, a
pipeline or codec context stops; an instruction never completes, and the fault ends it. -/
def State.readFails (s : State) (who : MemUser) : State :=
  match who with
  | .host _ => s.setOut (fun o => { o with data := [], abort := true })
  | .context n => s.setMedia (fun m => { m with ctxs := aMod m.ctxs n (fun c => { c with st := 3, frame := none }) })
  | .stream n => s.setMedia (fun m => { m with streams := aMod m.streams n (fun x => { x with st := 3, job := none }) })
  | .session n => s.setMedia (fun m => { m with sessions := aMod m.sessions n (fun x => { x with st := 3, job := none }) })
  | _ => s

/-- What becomes of the requester when a read returns its data; a sector of the table goes to the cache. -/
def State.readDone (s : State) (who : MemUser) (data : List Byte) : State :=
  if who = .table then s else s.setOut (fun o => { o with data := data, abort := false })

/-- Does the outcome return data? -/
def outcomeData (o : MemOutcome) (spec : Bool) : Bool :=
  match o with
  | .repeatFail => false
  | .persistent => false
  | .transient => !spec
  | _ => true

/-- Write the masked bytes of a performed write into the stack. -/
def putMasked (m : Mem) (base : Nat) (w : WriteReq) : Mem :=
  (List.range 64).foldl (fun m i => if bit w.mask i then memPut hbmDefault m (base + i) (w.data.getD i 0) else m) m

/-- A performed write holds no read of its sector any longer. -/
def freeRead (sector : Nat) (r : ReadReq) : ReadReq := if r.sector = sector then { r with held := false } else r

/-- Perform one request (R292, R295). A write whose repeats all fail stays queued. The place that it leaves admits what waits. -/
def State.performReq (s : State) (p : Nat) (k : SchedCand) (o : MemOutcome) : State :=
  let frame := k.sector / 64
  let base := (frameKey p frame) * 4096 + k.sector % 64 * 64
  let openIt := fun (c : Chan) => { c with openRow := aSet c.openRow (Config.bankOf k.sector) (Config.rowOf k.sector) }
  if k.write then
    match queuedWrite (s.chan p) k.sector with
    | none => s
    | some w =>
      let t : State := if outcomeData o false then
          ({ s with hbm := putMasked s.hbm base w }.setChan p
            (fun c => drainFlag { c with wq := c.wq.filter (fun x => x.sector != k.sector), rq := c.rq.map (freeRead k.sector) }))
        else s
      ((t.setChan p (fun c => openIt (countOutcome o false c))).admitHeld p).afterOutcome p frame o false
  else
    match (s.chan p).rq.find? (fun r => r.sector = k.sector && r.at_ = k.at_ && r.cls = k.cls && !(s.chan p).holds r) with
    | none => s
    | some r =>
      let t := (s.setChan p (fun c => openIt (countOutcome o r.spec { c with rq := c.rq.erase r }))).admitHeld p
      let t := if outcomeData o r.spec then t.readDone r.who (memRead hbmDefault s.hbm base 64)
               else if r.spec then t else t.readFails r.who
      t.afterOutcome p frame o r.spec

/-- MEM_SCHEDULE (R293). -/
def State.schedule (s : State) (p : Nat) (o : MemOutcome) : State :=
  if !s.present p || !(s.chan p).trained then s
  else
    let t := s.promote p
    match firstSched (t.chan p).candidates with
    | none => t
    | some k => t.performReq p k o

/-- REFRESH: the instant has come; every bank closes and the next follows by the interval in force. -/
def State.refreshNow (s : State) (p : Nat) : State :=
  if s.present p && (s.chan p).trained && (s.chan p).nextRef ≤ 16 * s.now then
    s.setChan p (fun c => { c with openRow := [], nextRef := c.nextRef + refreshInterval (s.xlt.stackFast.getD (p / 32) false) })
  else s

/-- STACK_TEMP_READ (R294): above 85 °C the interval halves, at 80 °C or below it returns. -/
def State.stackRead (s : State) (k : Nat) (t : Int) : State :=
  if 32 * k < s.n0 then
    s.setXlt (fun x => { x with
      stackTemp := x.stackTemp.set k t,
      stackFast := x.stackFast.set k (if 85 < t then true else if t ≤ 80 then false else x.stackFast.getD k false) })
  else s

/-! ## Commands -/

/-- MAP (R289). -/
def execMap (p : Nat) (s : State) : Res := message p 0x0018 actMap s

/-- TRANSLATION_DRAIN_COMPLETE (R291). -/
def execTranslationDrainComplete (p : Nat) (s : State) : Res := onUnit (p < 64) s (s.drainDone p)

/-- WINDOW_CREATE (R286). -/
def execWindowCreate (p : Nat) (s : State) : Res := onUnit (p < 64) s (windowMessage p 0 s)

/-- WINDOW_DELETE (R286). -/
def execWindowDelete (p : Nat) (s : State) : Res := onUnit (p < 64) s (windowMessage p 1 s)

/-- WINDOW_SET_SUITE_MASK (R286). -/
def execWindowSetSuiteMask (p : Nat) (s : State) : Res := onUnit (p < 64) s (windowMessage p 2 s)

/-- The frame of the first page of a range that function f may read through BAR2. -/
def State.bar2Frame (s : State) (f a n : Nat) : Option Nat :=
  ((pagesOf a n).find? (fun v => s.bar2Page f v false)).bind (fun v => (s.xentry v).frameKey?)

/-- A host read through BAR2. `o` is how the stack answered for its first page that may be read: a read that stays uncorrectable
completes with Completer Abort and raises its fault (R295, R296). -/
def State.bar2Read (s : State) (f a n : Nat) (o : MemOutcome) : State :=
  let t := (s.touchAll a n).logBar2 f a n false
  match s.bar2Frame f a n with
  | none => t.setOut (fun q => { q with data := s.bar2Bytes f a n, abort := false })
  | some k =>
    let u := (t.setChan (k / 196608) (countOutcome o false)).afterOutcome (k / 196608) (k % 196608) o false
    if outcomeData o false then u.setOut (fun q => { q with data := s.bar2Bytes f a n, abort := false }) else u.readFails (.host f)

/-- A range is reached as function f: through its BAR2 while the link is up, below the BAR's size (R335), or by running host cores, which
see all of device space as function 0 (R342). -/
def State.bar2Open (s : State) (f a n : Nat) : Bool :=
  (s.pcieUp f && a + n ≤ 2 ^ (s.func f).bar2) || (f = 0 && s.fw.hostRun)

/-- BAR2_READ (R287). -/
def execBar2Read (f a : Nat) (r : HostRead) (s : State) : Res :=
  onUnit (f < 17 && a + r.len ≤ 0x1000000000) s (if s.bar2Open f a r.len then s.bar2Read f a r.len r.o else s)

/-- BAR2_WRITE (R287). -/
def execBar2Write (f a : Nat) (b : List Byte) (s : State) : Res :=
  onUnit (f < 17 && a + b.length ≤ 0x1000000000) s
    (if s.bar2Open f a b.length then ((s.touchAll a b.length).logBar2 f a b.length true).bar2Put f a b else s)

/-- MEM_REQUEST (R292). -/
def execMemRequest (r : MemReq) (s : State) : Res := onUnit (r.addr < 0x1000000000 && r.cls < 4) s (s.memRequest r)

/-- MEM_SCHEDULE (R293). -/
def execMemSchedule (p : Nat) (o : MemOutcome) (s : State) : Res := onUnit (p < 64) s (s.schedule p o)

/-- AGE_PROMOTION (R293). -/
def execAgePromotion (p : Nat) (s : State) : Res := onUnit (p < 64) s (if s.present p then s.promote p else s)

/-- REFRESH (R294). -/
def execRefresh (p : Nat) (s : State) : Res := onUnit (p < 64) s (s.refreshNow p)

/-- STACK_TEMP_READ (R294). -/
def execStackTempRead (k : Nat) (t : Int) (s : State) : Res := onUnit (k < 2) s (s.stackRead k t)

end Sys2Proof.Machine
end

