-- ==== Sys2Proof/Machine/Regs.lean ====
section
/-! DEFINITION. BAR0 control space (R13 to R15, R337, R338): what every register reads, through function 0 or a virtual function, and
what reads and writes of registers do. Offsets are those of BAR0. -/

namespace Sys2Proof.Machine

/-- A field placed at a bit. -/
def at_ (v lo : Nat) : Nat := v * 2 ^ lo

/-- Two's complement in 8 bits. -/
def byte8 (i : Int) : Nat := (i.emod 256).toNat

/-- Two's complement in 32 bits. -/
def word32 (i : Int) : Nat := (i.emod 0x100000000).toNat

def State.latched (s : State) (key : Nat) : Nat := (aGet s.latch key).getD 0

/-- A register word of a byte string. -/
def wordAt (b : List Byte) (w : Nat) : Nat := fld b (4 * w) 4

/-! ## Core windows (R50, R78, R104, R137, R172, R191, R241, R338, R438) -/

/-- The window of core n that function f sees: its suite, when it lies in one that the function may see. -/
def State.coreSuite (s : State) (f n : Nat) : Option Nat :=
  match s.suiteOf n with
  | some k => if f = 0 || (s.suite k).owner = f then some k else none
  | none => none

/-- Word for every unmet wait of what core m has issued and nothing holds back. -/
def State.waitWords (s : State) (k m : Nat) (seen : List Issued) : List Flow → List Nat
  | [] => []
  | .guard _ :: _ => []
  | .endRegion _ :: t => s.waitWords k m seen t
  | .squashed _ :: t => s.waitWords k m seen t
  | .work i :: t => (if s.blocked k m seen i then [] else s.waitsOf k m i) ++ s.waitWords k m (seen ++ [i]) t

def State.coreWaits (s : State) (k m : Nat) : List Nat := s.waitWords k m [] (s.core m).seq.flow

/-- A fallback fetch of core m cannot push its next entry to this queue end for want of space (R133). -/
def State.fallbackWaits (s : State) (k m qi : Nat) : Bool :=
  (s.core m).fallbacks.any (fun f => f.qi = qi && match s.runPlan k f.run with
    | some p => !s.roomFor f.src { chip := none, core := m, idx := qi } (s.entryAt p f.next).granules
    | none => false)

/-- A push of some core of this chip waits for space at a queue end of core n (R137). -/
def State.pushWaiting (s : State) (k n qi : Nat) : Bool :=
  s.fallbackWaits k n qi || (List.range 32).any (fun m => match s.runningSuite m with
    | some j => (s.coreWaits j m).contains (queueWaitWord 2 n qi)
    | none => false)

/-- `core.queue_state` (R137). -/
def State.queueState (s : State) (k n : Nat) : Nat :=
  let q := (s.core n).queueProbe
  match aGet (s.core n).queues q with
  | none => 0
  | some x =>
    let own := s.coreWaits k n
    let pop := own.contains (queueWaitWord 1 n q) || own.contains (queueWaitWord 6 n q)
    let push := s.pushWaiting k n q
    at_ 1 31 + at_ (b2n x.merge) 30 + at_ (b2n pop) 29 + at_ (b2n push) 28 + at_ x.entries.length 14 + x.used

/-- `core.flag_value` (R137). -/
def State.flagShown (s : State) (k n : Nat) : Nat :=
  let p := (s.core n).flagProbe
  let i := p % 1024
  if bit p 10 then (if i < 256 && s.shelfFlagIn k (n / 4) i then s.flagValue (.shelf (n / 4) i) else 0) else s.flagValue (.core n i)

/-- The state field of `core.seq_state` (R172). -/
def State.seqCode (s : State) (k n : Nat) : Nat :=
  let q := (s.core n).seq
  match (s.suite k).st with
  | 4 => if !q.running || q.ended then 3 else if q.hold.isSome then 2 else 1
  | 5 => 4
  | _ => 3

def State.seqState (s : State) (k n : Nat) : Nat :=
  let q := (s.core n).seq
  let c := s.seqCode k n
  at_ (if c = 4 then (s.suite k).cause else 0) 24 + (if c = 1 || c = 2 then at_ q.loopDepth 16 + at_ q.guards 8 else 0) + c

def State.seqIndex (s : State) (k n : Nat) : Nat :=
  let q := (s.core n).seq
  match s.seqCode k n with
  | 1 => q.oldest.getD 0
  | 2 => q.oldest.getD 0
  | 4 => q.haltIdx
  | _ => 0

def guardKindCode : GuardRec → Nat
  | .flag _ _ _ _ _ => 1
  | .row _ _ _ _ _ _ _ => 2
  | .entry _ _ => 3

/-- The guard record at which a walk waits: its kind and its index (R191). -/
def State.walkWait (s : State) (k n : Nat) (r : WalkRun) : Nat × Nat :=
  match s.runPlan k r with
  | none => (0, 0)
  | some p =>
    if !r.mayFetch p then (0, 0)
    else if r.spec then match s.specGuards n p r.i.sh r.visit r.taken r.guardAt (p.d.guards.drop r.guardAt) with
      | (i, _, false) => ((p.d.guards[i]?.map guardKindCode).getD 0, i)
      | _ => (0, 0)
    else match s.tryGuards k n p r.i.sh r.holds r.visit r.guardAt (p.d.guards.drop r.guardAt) with
      | (_, i, some _) => ((p.d.guards[i]?.map guardKindCode).getD 0, i)
      | _ => (0, 0)

/-- `core.walk_state` (R191). -/
def State.walkState (s : State) (k n e : Nat) : Nat :=
  let fb := at_ (b2n ((s.core n).fallbacks.any (fun f => f.engine = e))) 29
  match (s.core n).walks.getD e none with
  | some r =>
    let w := s.walkWait k n r
    at_ 1 31 + at_ (b2n r.spec) 30 + fb + at_ w.1 27 + at_ w.2 24 + at_ (min r.staged 64) 16 + r.walk % 1024
  | none => fb

/-- `core.array_status` of a core of a suite (R78). -/
def State.arrayStatus (s : State) (n : Nat) : Nat :=
  let a := (s.core n).arr
  let fused := match a.bench with
    | some b => match b.i.instr with
      | .mxBench o => o.fused
      | _ => false
    | none => false
  at_ a.rampStep 16 + at_ (b2n a.bench.isSome) 11 + at_ (b2n fused) 10 + at_ (b2n a.bankB.isSome) 9 + at_ (b2n a.bankA.isSome) 8 + a.mode

/-- A counter of a core window that a `_lo` register shows, by the offset of that register. -/
def coreCounter (c : Core) (o : Nat) : Option Nat :=
  if o = 0x204 then some c.arr.tilesDone
  else if o = 0x300 then some c.overruns
  else if o = 0x308 then some c.reemits
  else if o = 0x410 then some c.detaches
  else if o = 0x508 then some c.squashes
  else if o = 0x700 then some c.skips
  else none

/-- `core.check_fault` (R78). -/
def checkFault (c : Core) : Nat :=
  match c.arr.faultTile with
  | some t => at_ 1 31 + at_ t.1 8 + t.2
  | none => 0

/-- `core.array_status` during a reseat (R78): state 6 while the core's array runs its retest, state 0 otherwise, all else 0. A trip
keeps the dies off, and so no array runs (R401). -/
def State.retestState (s : State) (n : Nat) : Nat :=
  if !s.power.trip && Config.retesting (s.health.reseatAt.getD 0) s.now n then 6 else 0

/-- Registers of a core's window that need no suite. -/
def State.coreFree (s : State) (n o : Nat) : Nat :=
  let c := s.core n
  if o = 0x204 then c.arr.tilesDone % M32
  else if o = 0x208 then s.latched (0x800000 + n * 0x40000 + o)
  else if o = 0x20c then checkFault c
  else if o = 0x400 then c.queueProbe
  else if o = 0x408 then c.flagProbe
  else if o = 0x800 then (match (s.health.cores[n]?).join with
    | some p => (s.phy p).corrected
    | none => 0)
  else if s.reseating && o = 0x500 then 5
  else if s.reseating && o = 0x200 then s.retestState n
  else 0

/-- `core.numeric_status` (R50). -/
def State.numericStatus (s : State) (k n : Nat) : Nat :=
  let c := s.core n
  at_ (b2n (s.suite k).fusedEn) 9 + at_ (b2n (s.suite k).flush) 8 + at_ (b2n c.nanSeen) 2 + at_ (b2n c.satSeen) 1 + b2n c.flushSeen

/-- Registers of a core's window in a suite. -/
def State.coreIn (s : State) (k n o : Nat) : Nat :=
  let c := s.core n
  if o = 0x100 then s.numericStatus k n
  else if o = 0x200 then s.arrayStatus n
  else if o = 0x404 then s.queueState k n
  else if o = 0x40c then s.flagShown k n
  else if o = 0x500 then s.seqState k n
  else if o = 0x504 then s.seqIndex k n
  else if 0x600 ≤ o && o ≤ 0x60c then s.walkState k n ((o - 0x600) / 4)
  else if 0x710 ≤ o && o ≤ 0x71c then c.stallWait.getD ((o - 0x710) / 4) 0
  else if o = 0x720 then c.stallChip
  else if o = 0x304 || o = 0x30c || o = 0x414 || o = 0x50c || o = 0x704 then s.latched (0x800000 + n * 0x40000 + o)
  else match coreCounter c o with
    | some v => v % M32
    | none => s.coreFree n o

/-- A register of core n's window as function f sees it; the window of an absent number reads 0 (R338). -/
def State.coreReg (s : State) (f n o : Nat) : Nat :=
  if !bit s.health.present n then 0
  else match s.coreSuite f n with
    | some k => s.coreIn k n o
    | none => s.coreFree n o

/-! ## The blocks -/

/-- The suite that a function's `dev.tdc_probe` shows it (R279). -/
def State.tdcSuite (s : State) (f : Nat) : Option Nat :=
  let k := (s.func f).tdcProbe
  if (s.suite k).st = 0 || (f != 0 && (s.suite k).owner != f) then none else some k

/-- Latch of `dev.tdc_hi`, one for each function. -/
def tdcKey (f : Nat) : Nat := 0x10000000 + f

/-- Bits of physical cores that cannot be used, from core `lo` on (R420). -/
def State.physBits (s : State) (lo n : Nat) : Nat := ((List.range n).map (fun i => if s.unusableBit (lo + i) then 2 ^ i else 0)).sum

/-- Some crossings, and all of them, hold their depth: a bit of `dev.align_status` reads 0 while it has no crossing to speak of, as after
reset (R277, R279; log entry 145). -/
def aligned (depth : Nat) (l : List Nat) : Bool := !l.isEmpty && l.all (· = depth)

/-- `dev.align_status` (R279): enabled camera ports, trained lanes, the host links of the mode, present pseudo-channels. -/
def State.alignStatus (s : State) : Nat :=
  let ports := (s.media.ports.filter (fun p => p.enabled && !p.retired)).map Port.depth
  let lanes := (s.fab.lanes.filter (fun l => l.depth != 0)).map Lane.depth
  let host := s.health.usbDepth :: (if s.fw.attach = 0 then [s.health.pcieDepth] else [])
  at_ (b2n (aligned 4 ports)) 3 + at_ (b2n (aligned 6 lanes)) 2 + at_ (b2n (aligned 8 host)) 1 +
    b2n (aligned 4 ((s.chans.filter chanPresent).map Chan.depth))

/-- The `dev` block (R221, R279, R392, R420, R437). -/
def State.devReg (s : State) (f o : Nat) : Nat :=
  let h := s.health
  if o = 0x10 then s.partKey % M32
  else if o = 0x18 then s.alignStatus
  else if o = 0x20 then s.bootStatus
  else if o = 0x24 then s.fwVersion
  else if o = 0x28 then s.updateStatus
  else if o = 0x30 then at_ h.phase 29 + h.reason
  else if o = 0x34 then at_ (h.reseatMs % 65536) 16 + h.readyMs % 65536
  else if o = 0x38 then h.reseats
  else if o = 0x40 then h.present
  else if o = 0x44 then s.physBits 0 32
  else if o = 0x48 then s.physBits 32 8
  else if o = 0x80 then (s.func f).tdcProbe
  else if o = 0x84 then (match s.tdcSuite f with
    | some k => (s.suite k).tdc % M32
    | none => 0)
  else if o = 0x88 then (match s.tdcSuite f with
    | some k => let x := s.suite k
                at_ (b2n x.detached) 18 + at_ (b2n x.joined) 17 + at_ (b2n x.merged) 16 + s.latched (tdcKey f)
    | none => 0)
  else if o = 0x100 then at_ h.cause 24 + at_ h.unit 16 + at_ h.outcome 14
  else if o = 0x104 then h.faults
  else if o = 0x108 then at_ (b2n h.hubFault) 31 + h.repairs
  else if 0x120 ≤ o && o ≤ 0x13c then (s.cluster ((o - 0x120) / 4)).corrected
  else 0

/-- The `ts` block (R362). -/
def State.tsReg (s : State) (o : Nat) : Nat :=
  let t := s.ts
  if o = 0 then t.count % M32
  else if o = 4 || o = 8 then s.latched (0x10000 + o)
  else if o = 0xc then t.shadow
  else if o = 0x10 then t.incInt
  else if o = 0x18 then at_ t.synceOut 4 + at_ (b2n t.ppsOutOn) 3 + at_ (b2n t.servoOn) 2 + t.source
  else if o = 0x1c then at_ (b2n t.refused) 4 + at_ (b2n t.stepping) 3 + at_ (b2n t.holdover) 2 + at_ (b2n t.locked) 1 + b2n t.synce
  else if o = 0x20 then word32 t.ppsError
  else 0

/-- The `mbx` block (R393). -/
def State.mbxReg (s : State) (f o : Nat) : Nat :=
  let p := o / 0x400
  let r := o % 0x400
  let x := s.pair p
  if 64 ≤ p || (f != 0 && pairOwner p != f) then 0
  else if r < 0x100 then wordAt x.req (r / 4)
  else if r < 0x200 then wordAt x.reply ((r - 0x100) / 4)
  else if r = 0x200 then at_ (b2n x.replyV) 1 + b2n x.reqV
  else if r = 0x204 then
    at_ (s.func (pairOwner p)).lost 24 + at_ x.major 16 + at_ x.minor 8 + at_ (b2n (decide (p = noticePair (pairOwner p)))) 7 + pairOwner p
  else 0

/-- A ring that function f sees. -/
def State.ringSeen (s : State) (f n : Nat) : Option Ring :=
  match s.ring? n with
  | some r => if f = 0 || r.owner = f then some r else none
  | none => none

/-- The `ring` block (R268). -/
def State.ringReg (s : State) (f o : Nat) : Nat :=
  if o < 0x40000 then (match s.ringSeen f (o / 4) with
    | some r => if r.kind = 0 || r.kind = 3 then r.p else r.c
    | none => 0)
  else if o = 0x40000 then s.ringProbe
  else match s.ringSeen f s.ringProbe with
    | none => 0
    | some r =>
      if o = 0x40004 then r.p
      else if o = 0x40008 then r.c
      else if o = 0x4000c then
        at_ (b2n r.rejected) 31 + at_ (b2n r.suite.isSome) 30 + at_ (r.suite.getD 0) 25 + at_ r.owner 20 + at_ r.kind 17 + r.resv
      else 0

/-- A count of a pseudo-channel that a `_lo` register shows. -/
def chanCounter (c : Chan) (r : Nat) : Option Nat := if r = 8 then some c.corrected else if r = 0x10 then some c.promoted else none

/-- A pseudo-channel's window (R301); one that the grade does not fit reads 0. -/
def State.chanReg (s : State) (p r : Nat) : Nat :=
  let c := s.chan p
  if !c.fitted then 0
  else if r = 0 then
    at_ (byte8 (s.xlt.stackTemp.getD (p / 32) 0)) 16 + at_ (b2n (s.xlt.stackFast.getD (p / 32) false)) 3 + at_ (b2n c.retired) 2 +
      at_ (b2n (c.trained && !c.retired)) 1 + b2n (!c.retired)
  else if r = 4 then (if c.retired then 0 else at_ c.rq.length 16 + c.wq.length)
  else if r = 0xc || r = 0x14 then s.latched (0x100000 + p * 0x1000 + r)
  else if r = 0x18 then c.parity
  else if r = 0x1c then c.uncorr
  else if r = 0x20 then c.frames
  else match chanCounter c r with
    | some v => v % M32
    | none => 0

/-- The `mem` block (R301, R302). -/
def State.memReg (s : State) (o : Nat) : Nat :=
  if o < 0x40000 then s.chanReg (o / 0x1000) (o % 0x1000)
  else if o = 0x40000 then s.xlt.ageLimit
  else if o = 0x40004 then ((List.range 32).map (fun i => if s.present i then 2 ^ i else 0)).sum
  else if o = 0x40008 then ((List.range 32).map (fun i => if s.present (32 + i) then 2 ^ i else 0)).sum
  else 0

/-- An entry as the last completed change left it (R303): of a page whose change still drains, the entry that it had before. -/
def State.entryShown (s : State) (v : Nat) : XEntry := (s.xlt.drains.findSome? (fun d => aGet d.old v)).getD (s.xentry v)

/-- The probed translation entry, when function f may see its page (R303). -/
def State.entrySeen (s : State) (f : Nat) : Nat :=
  if f = 0 || s.covered (fun w => w.owner = f) s.xlt.pageProbe 1 then (s.entryShown s.xlt.pageProbe).bits else 0

/-- The probed window, when function f may see it. -/
def State.windowSeen (s : State) (f : Nat) : Option Window :=
  match aGet s.xlt.windows s.xlt.winProbe with
  | some w => if f = 0 || w.owner = f then some w else none
  | none => none

/-- The `xlt` block (R303). -/
def State.xltReg (s : State) (f o : Nat) : Nat :=
  let w := s.windowSeen f
  if o = 0 then s.xlt.pageProbe
  else if o = 4 then s.entrySeen f % M32
  else if o = 8 then s.latched (0x200000 + o)
  else if o = 0x10 then s.xlt.winProbe
  else if o = 0x14 then (match w with | some w => at_ 1 31 + at_ w.owner 24 + w.first | none => 0)
  else if o = 0x18 then (match w with | some w => w.count | none => 0)
  else if o = 0x1c then (match w with | some w => w.mask | none => 0)
  else if o = 0x20 then s.xlt.misses % M32
  else if o = 0x24 then s.latched (0x200000 + o)
  else if o = 0x28 then s.xlt.moved.length
  else 0

/-- floor(T_k) of the probed lock group's next trigger (R332). -/
def State.lockNext (s : State) (f : Nat) : Nat :=
  match aGet s.media.groups s.media.lockProbe with
  | some g => if f = 0 || g.owner = f then g.t g.next / lockUnit else 0
  | none => 0

/-- The probed context's registers (R332). -/
def ctxReg (c : Ctx) (o : Nat) : Nat :=
  if o = 0x104 then
    at_ c.st 29 + at_ c.pipe 28 + at_ c.port 26 + at_ c.vc 22 + at_ c.exps 20 + at_ (c.group.getD 0) 16 + at_ (b2n c.group.isSome) 15 +
      fld c.params 0 2 % 0x8000
  else if o = 0x108 then c.lastDone
  else if o = 0x10c then c.dropped
  else if o = 0x110 then c.missed
  else 0

/-- Mpixel/s of a load in pixels and millihertz. -/
def mpixels (n : Nat) : Nat := (n + 999999999) / 1000000000

/-- The `isp` block (R332). -/
def State.ispReg (s : State) (f o : Nat) : Nat :=
  let m := s.media
  if o < 0x10 then
    let p := m.ports.getD (o / 4) Port.reset
    at_ (b2n p.enabled) 31 + at_ (b2n p.locked) 30 + at_ p.lanes 28 + at_ (b2n p.deskew) 27 + at_ (b2n p.retired) 26 + p.rate
  else if o < 0x20 then
    let p := m.ports.getD ((o - 0x10) / 4) Port.reset
    at_ p.ecc 16 + p.crc
  else if o = 0x20 || o = 0x24 then
    let n := (o - 0x20) / 4
    at_ (s.pipeCtxs n).length 16 + mpixels (s.pipeLoad n)
  else if o = 0x100 then m.ctxProbe
  else if o = 0x200 then m.lockProbe
  else if o = 0x204 then s.lockNext f % M32
  else if o = 0x208 then s.latched (0x400000 + o)
  else match s.ctx? m.ctxProbe with
    | some c => if f = 0 || c.owner = f then ctxReg c o else 0
    | none => 0

/-- The probed stream or session: owner, state, codec, pictures, errors (R333). -/
def State.codecSeen (s : State) : Option (Nat × Nat × Nat × Nat × Nat) :=
  let n := s.media.streamProbe
  if n < 64 then (s.stream? n).map (fun x => (x.owner, x.st, x.codec, x.pics, x.errors))
  else (s.session? (n - 64)).map (fun x => (x.owner, x.st, x.codec, x.pics, x.errors))

/-- The `vid` block (R333). -/
def State.vidReg (s : State) (f o : Nat) : Nat :=
  if o = 0 then s.media.streamProbe
  else if o = 0x10 then at_ (mpixels s.encodeLoad) 16 + mpixels s.decodeLoad
  else match s.codecSeen with
    | some (owner, st, codec, pics, errs) =>
      if f != 0 && owner != f then 0
      else if o = 4 then at_ st 29 + at_ codec 27
      else if o = 8 then pics
      else if o = 0xc then errs
      else 0
    | none => 0

/-- The `fab` block (R363). -/
def State.fabReg (s : State) (o : Nat) : Nat :=
  let p := s.peer? s.fab.probe
  if o = 0 then at_ (b2n s.fab.refused) 31 + s.fab.mode
  else if 0x10 ≤ o && o ≤ 0x1c then
    let l := s.lane ((o - 0x10) / 4)
    at_ (b2n l.up) 31 + at_ (b2n l.retired) 30 + l.uncorr
  else if o = 0x20 then s.fab.chip
  else if o = 0x100 then s.fab.probe
  else if o = 0x104 then (match p with | some p => at_ p.st 29 + at_ p.path 26 + p.chip | none => 0)
  else if o = 0x108 then (match p with | some p => at_ p.major 8 + p.minor | none => 0)
  else if o = 0x10c then (match p with | some p => p.replays | none => 0)
  else if 0x1000 ≤ o && o < 0x1400 then (match s.pq? ((o - 0x1000) / 4) with
    | some q => if q.rx then q.c else q.p
    | none => 0)
  else 0

/-- `pwr.cl_state` of a cluster (R405). -/
def State.clState (s : State) (x : Nat) : Nat :=
  let c := s.cluster x
  at_ (b2n (clusterFitted s.fuses.grade x)) 31 + at_ (b2n c.powered) 30 + at_ (b2n (decide (c.thrCeil < c.ceil ∧ c.thrCeil ≤ c.curCeil))) 29 +
    at_ (b2n (decide (c.curCeil < c.ceil ∧ c.curCeil ≤ c.thrCeil))) 28 + at_ (b2n (decide (c.target = c.floor ∨ c.target = c.ceil))) 27 +
    at_ (byte8 c.temp) 16 + (if c.powered then c.point else 0)

/-- The package energy in mJ, 48 bits. -/
def State.energyMj (s : State) : Nat := s.power.energy / 1000 % M48

/-- The mean package power over the last 1 ms, in 0.1 W. -/
def Power.mean (p : Power) : Nat := p.readings.sum / p.readings.length

/-- Bits [4:0] of `pwr.limits`. -/
def State.limitsNow (s : State) : Nat :=
  let p := s.power
  at_ (b2n p.hubHot) 4 + at_ (b2n p.trip) 3 + at_ (b2n p.thr1) 2 + at_ (b2n p.thr0) 1 + b2n p.current

/-- The `pwr` block (R405). -/
def State.pwrReg (s : State) (o : Nat) : Nat :=
  let p := s.power
  if o = 0 then at_ 2200 16 + min p.mean 0xffff
  else if o = 4 then at_ p.seen 8 + s.limitsNow
  else if o = 8 then s.energyMj % M32
  else if o = 0xc then s.latched (0x1000000 + o)
  else if o = 0x10 then at_ (byte8 p.die1) 16 + at_ (byte8 p.die0) 8 + byte8 p.hub
  else if o = 0x14 then p.thrEvents
  else if o = 0x18 then p.curEvents
  else if o = 0x1c then p.tripEvents
  else if o = 0x20 then s.fuses.vmax
  else if 0x100 ≤ o && o < 0x120 then s.clState ((o - 0x100) / 4)
  else if 0x140 ≤ o && o < 0x160 then
    let c := s.cluster ((o - 0x140) / 4)
    at_ c.ceil 16 + c.floor
  else 0

/-- The 32 bytes of an event-log entry (R431). -/
def LogEntry.bytes (e : LogEntry) : List Byte :=
  toLE 8 e.stamp ++ toLE 4 e.sn ++ toLE 2 e.code ++ toLE 1 e.class_ ++ toLE 1 e.fn ++ toLE 1 e.suite ++ toLE 1 e.kind ++
    toLE 2 e.unit ++ toLE 4 e.a ++ toLE 4 e.b ++ toLE 4 e.c

/-- The `log` block (R439). -/
def State.logReg (s : State) (o : Nat) : Nat :=
  if o = 0 then s.log.next
  else if o = 4 then s.log.overflow
  else if 0x10000 ≤ o && o < 0x30000 then
    let w := (o - 0x10000) / 4
    (match aGet s.log.slots (w / 8) with
    | some e => wordAt e.bytes (w % 8)
    | none => 0)
  else 0

/-- What a register of BAR0 reads through function f; an offset with no register and an access that is not an aligned word read 0
(R13, R337). -/
def State.regValue (s : State) (f o : Nat) : Nat :=
  if o % 4 != 0 || 0x4000000 ≤ o then 0
  else if o < 0x10000 then s.devReg f o
  else if o < 0x20000 then s.tsReg (o - 0x10000)
  else if o < 0x30000 then s.mbxReg f (o - 0x20000)
  else if o < 0x80000 then s.ringReg f (o - 0x30000)
  else if o < 0x100000 then 0
  else if o < 0x200000 then s.memReg (o - 0x100000)
  else if o < 0x400000 then s.xltReg f (o - 0x200000)
  else if o < 0x500000 then s.ispReg f (o - 0x400000)
  else if o < 0x600000 then s.vidReg f (o - 0x500000)
  else if o < 0x800000 then s.fabReg (o - 0x600000)
  else if o < 0x1000000 then s.coreReg f ((o - 0x800000) / 0x40000) ((o - 0x800000) % 0x40000)
  else if o < 0x1100000 then s.pwrReg (o - 0x1000000)
  else if o < 0x1200000 then (if f = 0 then s.logReg (o - 0x1100000) else 0)
  else 0

/-! ## Reads that latch or clear (R15, R362) -/

/-- The counter behind a `_lo` register with the key of the latch that its upper half goes into. -/
def State.wideReg (s : State) (f o : Nat) : Option (Nat × Nat) :=
  if o % 4 != 0 then none
  else if o = 0x84 then some (match s.tdcSuite f with | some k => (s.suite k).tdc | none => 0, tdcKey f)
  else if o = 0x10000 then some (s.ts.count, o + 4)
  else if 0x100000 ≤ o && o < 0x140000 then
    let c := s.chan ((o - 0x100000) / 0x1000)
    if c.fitted then (chanCounter c (o % 0x1000)).map (fun v => (v, o + 4)) else none
  else if o = 0x200004 then some (s.entrySeen f, o + 4)
  else if o = 0x200020 then some (s.xlt.misses, o + 4)
  else if o = 0x400204 then some (s.lockNext f, o + 4)
  else if 0x800000 ≤ o && o < 0x1000000 then
    let n := (o - 0x800000) / 0x40000
    let r := (o - 0x800000) % 0x40000
    if bit s.health.present n && ((s.coreSuite f n).isSome || r = 0x204) then (coreCounter (s.core n) r).map (fun v => (v, o + 4)) else none
  else if o = 0x1000008 then some (s.energyMj, o + 4)
  else none

/-- Latch the upper half of a counter; `ts.count_lo` latches the fraction too. -/
def State.latchAt (s : State) (f o : Nat) : State :=
  match s.wideReg f o with
  | some (v, key) =>
    let t : State := { s with latch := aSet s.latch key (v / M32) }
    if o = 0x10000 then { t with latch := aSet t.latch 0x10008 (s.ts.frac / 65536) } else t
  | none => s

/-- Clear a read-clear register: `isp.port_errors` and the uncorrectable count of `fab.lane_status`. -/
def State.clearAt (s : State) (o : Nat) : State :=
  if o % 4 != 0 then s
  else if 0x400010 ≤ o && o ≤ 0x40001c then
    s.setMedia (fun m => { m with ports := lMod m.ports ((o - 0x400010) / 4) (fun p => { p with ecc := 0, crc := 0 }) })
  else if 0x600010 ≤ o && o ≤ 0x60001c then s.setLane ((o - 0x600010) / 4) (fun l => { l with uncorr := 0 })
  else s

/-- A read of BAR0 through function f: the value leaves, and the register latches or clears what it latches or clears. -/
def State.readReg (s : State) (f o : Nat) : State :=
  ((s.latchAt f o).clearAt o).setOut (fun x => { x with word := BitVec.ofNat 32 (s.regValue f o) })

/-! ## Writes (R14, R15, R337) -/

/-- `ts.control`; turning the servo off ends its correction. -/
def TimeBase.writeControl (t : TimeBase) (v : Nat) : TimeBase :=
  let u := { t with synceOut := bits v 5 4, ppsOutOn := bit v 3, servoOn := bit v 2, source := bits v 1 0,
                    synce := t.synce && bits v 1 0 = 1 }
  if bit v 2 then u else { u with ppsAdj := 0, ppsGood := 0, locked := false, holdover := false, ppsLast := none }

/-- A write in the `ts` block; function 0 only. -/
def State.writeTs (s : State) (o v : Nat) : State :=
  if o = 0xc then s.setTs (fun t => if t.source = 1 then t else { t with shadow := v })
  else if o = 0x10 then s.setTs (fun t => t.writeIncr v)
  else if o = 0x14 then s.setTs (fun t => t.step (signed32 v))
  else if o = 0x18 then s.setTs (fun t => t.writeControl v)
  else if o = 0x1c then (if bit v 4 then s.setTs (fun t => { t with refused := false }) else s)
  else s

/-- A write in the `mbx` block (R377, R393). -/
def State.writeMbx (s : State) (f o v : Nat) : State :=
  let p := o / 0x400
  let r := o % 0x400
  if 64 ≤ p || (f != 0 && pairOwner p != f) then s
  else if r < 0x100 then
    (if (s.pair p).reqV then s else s.setPair p (fun x => { x with req := putAt (padTo 256 x.req) r (toLE 4 v) }))
  else if r = 0x200 then
    let t := if bit v 1 then s.ackReply p else s
    if bit v 0 then t.setPair p (fun x => { x with reqV := true }) else t
  else s

/-- A write in the `ring` block. -/
def State.writeRing (s : State) (f o v : Nat) : State :=
  if o < 0x40000 then s.doorbell f (o / 4) v
  else if o = 0x40000 then { s with ringProbe := v % 65536 }
  else if o = 0x4000c && bit v 31 then
    (match s.ringSeen f s.ringProbe with
    | some _ => s.setRing s.ringProbe (fun r => { r with rejected := false })
    | none => s)
  else s

/-- A write in a core's window: sticky bits and probes, where the function sees the core as its own. -/
def State.writeCore (s : State) (f n o v : Nat) : State :=
  let mine := (s.coreSuite f n).isSome
  if !bit s.health.present n || (f != 0 && !mine) then s
  else if o = 0x100 && mine then
    s.setCore n (fun c => { c with nanSeen := c.nanSeen && !bit v 2, satSeen := c.satSeen && !bit v 1, flushSeen := c.flushSeen && !bit v 0 })
  else if o = 0x400 then s.setCore n (fun c => { c with queueProbe := v % 8192 })
  else if o = 0x408 then s.setCore n (fun c => { c with flagProbe := v % 2048 })
  else s

/-- AGE_LIMIT_WRITE (R302). -/
def State.writeAge (s : State) (v : Nat) : State :=
  let l := v % 128
  s.setXlt (fun x => { x with ageLimit := if l = 0 then 4 else min l 64 })

/-- A write of BAR0 through function f; one that is not an aligned word, meets no register or is not the function's has no effect. -/
def State.writeReg (s : State) (f o w : Nat) : State :=
  let v := w % M32
  if o % 4 != 0 || 0x4000000 ≤ o then s
  else if o = 0x80 then s.setFunc f (fun x => { x with tdcProbe := v % 32 })
  else if 0x10000 ≤ o && o < 0x20000 then (if f = 0 then s.writeTs (o - 0x10000) v else s)
  else if 0x20000 ≤ o && o < 0x30000 then s.writeMbx f (o - 0x20000) v
  else if 0x30000 ≤ o && o < 0x80000 then s.writeRing f (o - 0x30000) v
  else if o = 0x140000 then (if f = 0 then s.writeAge v else s)
  else if o = 0x200000 then s.setXlt (fun x => { x with pageProbe := v % 0x1000000 })
  else if o = 0x200010 then s.setXlt (fun x => { x with winProbe := v % 1024 })
  else if o = 0x400100 then s.setMedia (fun m => { m with ctxProbe := v % 64 })
  else if o = 0x400200 then s.setMedia (fun m => { m with lockProbe := v % 16 })
  else if o = 0x500000 then s.setMedia (fun m => { m with streamProbe := v % 128 })
  else if o = 0x600000 then (if f = 0 then s.writeLaneMode v else s)
  else if o = 0x600100 then (if f = 0 then s.setFab (fun x => { x with probe := v % 256 }) else s)
  else if 0x601000 ≤ o && o < 0x601400 then s.pqDoorbell f ((o - 0x601000) / 4) v
  else if 0x800000 ≤ o && o < 0x1000000 then s.writeCore f ((o - 0x800000) / 0x40000) ((o - 0x800000) % 0x40000) v
  else if o = 0x1000004 then
    (if f = 0 then s.setPower (fun p => { p with seen := p.seen - (p.seen &&& bits v 12 8) }) else s)
  else if 0x1000140 ≤ o && o < 0x1000160 then s.writeBounds f ((o - 0x1000140) / 4) v
  else s

/-! ## Accesses of a width in bytes (R13) -/

/-- A read of some width: only a 32-bit access meets a register; any other reads 0 and has no effect. -/
def State.readAccess (s : State) (f o width : Nat) : State :=
  if width = 4 then s.readReg f o else s.setOut (fun x => { x with word := 0 })

/-- A write of some width: only a 32-bit access has an effect. -/
def State.writeAccess (s : State) (f o width v : Nat) : State := if width = 4 then s.writeReg f o v else s

/-! ## USB transactions (R340, R384) -/

/-- The data length of a transaction is well-formed. -/
def usbLength (n : Nat) : Bool := 4 ≤ n && n ≤ 1048576 && n % 4 = 0

/-- A response: tag, status, two reserved bytes and the data of a read. -/
def State.usbAnswer (s : State) (tag status : Nat) (data : List Byte) : State :=
  s.setOut (fun o => { o with usb := o.usb ++ [toLE 1 tag ++ toLE 1 status ++ zeros 2 ++ data] })

/-- Words of BAR0 read one by one as function 0. -/
def State.readWords (s : State) (o : Nat) : Nat → State × List Byte
  | 0 => (s, [])
  | n + 1 =>
    let r := (s.readReg 0 o).readWords (o + 4) n
    (r.1, toLE 4 (s.regValue 0 o) ++ r.2)

/-- Words of BAR0 written one by one as function 0. -/
def State.writeWords (s : State) (o : Nat) (data : List Byte) : Nat → State
  | 0 => s
  | n + 1 => (s.writeReg 0 o (fld data 0 4)).writeWords (o + 4) (data.drop 4) n

/-- In a rescue the boot ROM serves only the `dev` block (R370). -/
def State.usbRead (s : State) (tag o n : Nat) : State :=
  if !usbLength n then s.usbAnswer tag 2 []
  else if s.inRescue && 0x10000 < o + n then s.usbAnswer tag 1 []
  else
    let r := s.readWords o (n / 4)
    r.1.usbAnswer tag 0 r.2

/-- USB mode opens the operations that write; the other modes refuse them, and so does the boot ROM in a rescue. -/
def State.usbWrite (s : State) (tag o : Nat) (d : List Byte) : State :=
  if !usbLength d.length then s.usbAnswer tag 2 []
  else if s.inRescue || s.fw.attach != 1 then s.usbAnswer tag 1 []
  else (s.writeWords o d (d.length / 4)).usbAnswer tag 0 []

def State.usbDevRead (s : State) (tag a n : Nat) : State :=
  if !usbLength n then s.usbAnswer tag 2 []
  else if s.inRescue then s.usbAnswer tag 1 []
  else if 0x1000000000 < a + n then s.usbAnswer tag 2 []
  else ((s.touchAll a n).logBar2 0 a n false).usbAnswer tag 0 (s.bar2Bytes 0 a n)

/-- Bytes of the rescue area (R370): device address a lies in frame floor(a / 4,096) of the area's pseudo-channel. -/
def State.rescuePut (s : State) (a : Nat) : List Byte → State
  | [] => s
  | b :: t => (s.hbmPut (frameKey s.rescueChan 0 * 4096 + a) b).rescuePut (a + 1) t

/-- In a rescue the boot ROM takes writes within the rescue area and no others. -/
def State.usbDevWrite (s : State) (tag a : Nat) (d : List Byte) : State :=
  if s.inRescue then
    (if !usbLength d.length then s.usbAnswer tag 2 []
     else if 0x1000000 < a + d.length then s.usbAnswer tag 1 []
     else (s.rescuePut a d).usbAnswer tag 0 [])
  else if !usbLength d.length || 0x1000000000 < a + d.length then s.usbAnswer tag 2 []
  else if s.fw.attach != 1 then s.usbAnswer tag 1 []
  else (((s.touchAll a d.length).logBar2 0 a d.length true).bar2Put 0 a d).usbAnswer tag 0 []

/-- A mailbox message over USB: pairs of function 0 in USB mode, pair 15 in the other modes; the firmware's checks follow. -/
def State.usbMessage (s : State) (tag p : Nat) (d : List Byte) : State :=
  if !usbLength d.length || 256 < d.length then s.usbAnswer tag 2 []
  else if s.inRescue && fld d 2 2 != 0x0048 then s.usbAnswer tag 1 []
  else if (s.fw.attach != 1 && p != 15) || 16 ≤ p || (s.pair p).reqV then s.usbAnswer tag 1 []
  else (s.setPair p (fun x => { x with req := padTo 256 d, reqV := true })).usbAnswer tag 0 []

/-! ## Commands -/

/-- LATCHING_READ (R362): a read of BAR0. -/
def execLatchingRead (f : Nat) (a : Access) (s : State) : Res := onUnit (f < 17) s (s.readAccess f a.off a.width)

/-- READ_CLEAR (R332): a read of BAR0. -/
def execReadClear (f : Nat) (a : Access) (s : State) : Res := onUnit (f < 17) s (s.readAccess f a.off a.width)

/-- REGISTER_WRITE (R13): a write of BAR0. -/
def execRegisterWrite (f : Nat) (a : Access) (v : Nat) (s : State) : Res := onUnit (f < 17) s (s.writeAccess f a.off a.width v)

/-- AGE_LIMIT_WRITE (R302): through function 0. -/
def execAgeLimitWrite (f v : Nat) (s : State) : Res := onUnit (f < 17) s (if f = 0 then s.writeAge (v % M32) else s)

/-- USB_REGISTER_READ (R340). -/
def execUsbRegisterRead (tag o n : Nat) (s : State) : Res := whenOn s (s.usbRead tag o n)

/-- USB_REGISTER_WRITE (R340). -/
def execUsbRegisterWrite (tag o : Nat) (d : List Byte) (s : State) : Res := whenOn s (s.usbWrite tag o d)

/-- USB_DEVICE_READ (R340, R287). -/
def execUsbDeviceRead (tag a n : Nat) (s : State) : Res := whenOn s (s.usbDevRead tag a n)

/-- USB_DEVICE_WRITE (R340, R287). -/
def execUsbDeviceWrite (tag a : Nat) (d : List Byte) (s : State) : Res := whenOn s (s.usbDevWrite tag a d)

/-- USB_MAILBOX_MESSAGE (R340, R384). -/
def execUsbMailboxMessage (tag p : Nat) (d : List Byte) (s : State) : Res := whenOn s (s.usbMessage tag p d)

end Sys2Proof.Machine
end

