-- ==== Sys2Proof/Machine/Dispatch.lean ====
section
/-! DEFINITION. The one dispatch from a command to its meaning. -/

namespace Sys2Proof.Machine

/-- The effect of one command on everything but the queue. -/
def exec (i : Instr) (s : State) : Host.Outcome State Fault Refusal :=
  match i with
  | .mxSeat core idx o => Sys2Proof.Machine.execMxSeat core idx o s
  | .mxTile core idx o => Sys2Proof.Machine.execMxTile core idx o s
  | .mxBench core idx o => Sys2Proof.Machine.execMxBench core idx o s
  | .drChain core idx o => Sys2Proof.Machine.execDrChain core idx o s
  | .vxMap core idx o => Sys2Proof.Machine.execVxMap core idx o s
  | .vxDw core idx o => Sys2Proof.Machine.execVxDw core idx o s
  | .vxPool core idx o => Sys2Proof.Machine.execVxPool core idx o s
  | .vxReduce core idx o => Sys2Proof.Machine.execVxReduce core idx o s
  | .vxBoxdec core idx o => Sys2Proof.Machine.execVxBoxdec core idx o s
  | .vxNms core idx o => Sys2Proof.Machine.execVxNms core idx o s
  | .vxSort core idx o => Sys2Proof.Machine.execVxSort core idx o s
  | .stWalk core idx o => Sys2Proof.Machine.execStWalk core idx o s
  | .stStore core idx o => Sys2Proof.Machine.execStStore core idx o s
  | .qWait core idx o => Sys2Proof.Machine.execQWait core idx o s
  | .qSignal core idx o => Sys2Proof.Machine.execQSignal core idx o s
  | .qBarrier core idx o => Sys2Proof.Machine.execQBarrier core idx o s
  | .ctlLoop core idx o => Sys2Proof.Machine.execCtlLoop core idx o s
  | .ctlGuard core idx o => Sys2Proof.Machine.execCtlGuard core idx o s
  | .ctlCommit core idx => Sys2Proof.Machine.execCtlCommit core idx s
  | .ctlShape core idx o => Sys2Proof.Machine.execCtlShape core idx o s
  | .ctlHalt core idx fin => Sys2Proof.Machine.execCtlHalt core idx fin s
  | .guardCommit core g => Sys2Proof.Machine.execGuardCommit core g s
  | .guardSquash core g => Sys2Proof.Machine.execGuardSquash core g s
  | .stallWatchdogExpiry suite => Sys2Proof.Machine.execStallWatchdogExpiry suite s
  | .waitSatisfied core => Sys2Proof.Machine.execWaitSatisfied core s
  | .flagSignalEffect core k => Sys2Proof.Machine.execFlagSignalEffect core k s
  | .entryArrival core qi src rival => Sys2Proof.Machine.execEntryArrival core qi src rival s
  | .creditReturn core qi src => Sys2Proof.Machine.execCreditReturn core qi src s
  | .walkGuardSatisfied core eng => Sys2Proof.Machine.execWalkGuardSatisfied core eng s
  | .mcastLagExpiry suite group core => Sys2Proof.Machine.execMcastLagExpiry suite group core s
  | .fallbackFetch suite group core => Sys2Proof.Machine.execFallbackFetch suite group core s
  | .cushionBeat core => Sys2Proof.Machine.execCushionBeat core s
  | .rampDown core => Sys2Proof.Machine.execRampDown core s
  | .rampUp core => Sys2Proof.Machine.execRampUp core s
  | .checkTileCompare core row => Sys2Proof.Machine.execCheckTileCompare core row s
  | .reseatReady r epoch => Sys2Proof.Machine.execReseatReady r epoch s
  | .kernelComplete suite => Sys2Proof.Machine.execKernelComplete suite s
  | .load pair prog => Sys2Proof.Machine.execLoad pair prog s
  | .loadDigestDone suite => Sys2Proof.Machine.execLoadDigestDone suite s
  | .segmentFrame suite core f => Sys2Proof.Machine.execSegmentFrame suite core f s
  | .missingSegmentReport suite core => Sys2Proof.Machine.execMissingSegmentReport suite core s
  | .bitmapReportTimeout suite core => Sys2Proof.Machine.execBitmapReportTimeout suite core s
  | .suiteCreate pair => Sys2Proof.Machine.execSuiteCreate pair s
  | .suiteRelease pair => Sys2Proof.Machine.execSuiteRelease pair s
  | .ringSetup pair => Sys2Proof.Machine.execRingSetup pair s
  | .ringDoorbell fn ring v => Sys2Proof.Machine.execRingDoorbell fn ring v s
  | .dispatchEntry suite => Sys2Proof.Machine.execDispatchEntry suite s
  | .completionEntryWrite ring => Sys2Proof.Machine.execCompletionEntryWrite ring s
  | .stepAssembly suite => Sys2Proof.Machine.execStepAssembly suite s
  | .heartbeat pair => Sys2Proof.Machine.execHeartbeat pair s
  | .heartbeatTimeout fn => Sys2Proof.Machine.execHeartbeatTimeout fn s
  | .adopt pair => Sys2Proof.Machine.execAdopt pair s
  | .allocation pair => Sys2Proof.Machine.execAllocation pair s
  | .latchingRead fn a => Sys2Proof.Machine.execLatchingRead fn a s
  | .readClear fn a => Sys2Proof.Machine.execReadClear fn a s
  | .registerWrite fn a v => Sys2Proof.Machine.execRegisterWrite fn a v s
  | .mbxReplyAck fn pair => Sys2Proof.Machine.execMbxReplyAck fn pair s
  | .tsIncrWrite fn v => Sys2Proof.Machine.execTsIncrWrite fn v s
  | .tsStep fn v => Sys2Proof.Machine.execTsStep fn v s
  | .tsStepAbsorbed => Sys2Proof.Machine.execTsStepAbsorbed s
  | .laneModeWrite fn v => Sys2Proof.Machine.execLaneModeWrite fn v s
  | .clBoundsWrite fn x v => Sys2Proof.Machine.execClBoundsWrite fn x v s
  | .ageLimitWrite fn v => Sys2Proof.Machine.execAgeLimitWrite fn v s
  | .pqDoorbell fn q v => Sys2Proof.Machine.execPqDoorbell fn q v s
  | .map pair => Sys2Proof.Machine.execMap pair s
  | .translationDrainComplete pair => Sys2Proof.Machine.execTranslationDrainComplete pair s
  | .windowCreate pair => Sys2Proof.Machine.execWindowCreate pair s
  | .windowDelete pair => Sys2Proof.Machine.execWindowDelete pair s
  | .windowSetSuiteMask pair => Sys2Proof.Machine.execWindowSetSuiteMask pair s
  | .bar2Read fn addr r => Sys2Proof.Machine.execBar2Read fn addr r s
  | .bar2Write fn addr data => Sys2Proof.Machine.execBar2Write fn addr data s
  | .memRequest r => Sys2Proof.Machine.execMemRequest r s
  | .memSchedule pc o => Sys2Proof.Machine.execMemSchedule pc o s
  | .agePromotion pc => Sys2Proof.Machine.execAgePromotion pc s
  | .refresh pc => Sys2Proof.Machine.execRefresh pc s
  | .stackTempRead stack t => Sys2Proof.Machine.execStackTempRead stack t s
  | .contextSetup pair finds => Sys2Proof.Machine.execContextSetup pair finds s
  | .contextParameter pair => Sys2Proof.Machine.execContextParameter pair s
  | .stopContext pair => Sys2Proof.Machine.execStopContext pair s
  | .stopStream pair => Sys2Proof.Machine.execStopStream pair s
  | .stopSession pair => Sys2Proof.Machine.execStopSession pair s
  | .stopLockGroup pair => Sys2Proof.Machine.execStopLockGroup pair s
  | .frameStart port vc ecc => Sys2Proof.Machine.execFrameStart port vc ecc s
  | .lineArrival port vc dt crcOk ecc samples => Sys2Proof.Machine.execLineArrival port vc dt crcOk ecc samples s
  | .frameEnd port vc ecc => Sys2Proof.Machine.execFrameEnd port vc ecc s
  | .lineTimeout ctx => Sys2Proof.Machine.execLineTimeout ctx s
  | .portLockLoss port => Sys2Proof.Machine.execPortLockLoss port s
  | .lockGroupSetup pair => Sys2Proof.Machine.execLockGroupSetup pair s
  | .trigger g => Sys2Proof.Machine.execTrigger g s
  | .triggerWindowExpiry ctx => Sys2Proof.Machine.execTriggerWindowExpiry ctx s
  | .decodeSetup pair => Sys2Proof.Machine.execDecodeSetup pair s
  | .bitstreamEntry st => Sys2Proof.Machine.execBitstreamEntry st s
  | .bitstreamEntryConsumed st d lost => Sys2Proof.Machine.execBitstreamEntryConsumed st d lost s
  | .encodeSetup pair => Sys2Proof.Machine.execEncodeSetup pair s
  | .encodeJob se => Sys2Proof.Machine.execEncodeJob se s
  | .encodeJobComplete se out => Sys2Proof.Machine.execEncodeJobComplete se out s
  | .contextSlotError pipe slot pass => Sys2Proof.Machine.execContextSlotError pipe slot pass s
  | .flrVf n => Sys2Proof.Machine.execFlrVf n s
  | .vfEnableClear n => Sys2Proof.Machine.execVfEnableClear n s
  | .hotReset k => Sys2Proof.Machine.execHotReset k s
  | .completionTimeout fn page who => Sys2Proof.Machine.execCompletionTimeout fn page who s
  | .usbRegisterRead tag addr len => Sys2Proof.Machine.execUsbRegisterRead tag addr len s
  | .usbRegisterWrite tag addr data => Sys2Proof.Machine.execUsbRegisterWrite tag addr data s
  | .usbDeviceRead tag addr len => Sys2Proof.Machine.execUsbDeviceRead tag addr len s
  | .usbDeviceWrite tag addr data => Sys2Proof.Machine.execUsbDeviceWrite tag addr data s
  | .usbMailboxMessage tag pair data => Sys2Proof.Machine.execUsbMailboxMessage tag pair data s
  | .hostStart pair => Sys2Proof.Machine.execHostStart pair s
  | .frameReceive port fcsOk data => Sys2Proof.Machine.execFrameReceive port fcsOk data s
  | .frameTransmit q => Sys2Proof.Machine.execFrameTransmit q s
  | .packetQueueSetup pair => Sys2Proof.Machine.execPacketQueueSetup pair s
  | .packetQueueDelete pair => Sys2Proof.Machine.execPacketQueueDelete pair s
  | .steeringRule pair => Sys2Proof.Machine.execSteeringRule pair s
  | .fecLockLoss x => Sys2Proof.Machine.execFecLockLoss x s
  | .laneFarEndCheck lane errs => Sys2Proof.Machine.execLaneFarEndCheck lane errs s
  | .ppsInEdge => Sys2Proof.Machine.execPpsInEdge s
  | .ppsHoldover => Sys2Proof.Machine.execPpsHoldover s
  | .ppsOut => Sys2Proof.Machine.execPpsOut s
  | .chip pair => Sys2Proof.Machine.execChip pair s
  | .peerSetup pair => Sys2Proof.Machine.execPeerSetup pair s
  | .dataFrame peer data => Sys2Proof.Machine.execDataFrame peer data s
  | .creditFrame peer data => Sys2Proof.Machine.execCreditFrame peer data s
  | .creditFrameSend peer => Sys2Proof.Machine.execCreditFrameSend peer s
  | .acknowledge peer data => Sys2Proof.Machine.execAcknowledge peer data s
  | .negativeAcknowledge peer data => Sys2Proof.Machine.execNegativeAcknowledge peer data s
  | .hello peer data => Sys2Proof.Machine.execHello peer data s
  | .ackTimer peer => Sys2Proof.Machine.execAckTimer peer s
  | .replayTimeout peer => Sys2Proof.Machine.execReplayTimeout peer s
  | .peerLossLimit peer => Sys2Proof.Machine.execPeerLossLimit peer s
  | .helloTimer => Sys2Proof.Machine.execHelloTimer s
  | .versionNegotiation pair => Sys2Proof.Machine.execVersionNegotiation pair s
  | .identity pair => Sys2Proof.Machine.execIdentity pair s
  | .attestation pair => Sys2Proof.Machine.execAttestation pair s
  | .firmwareStatus pair => Sys2Proof.Machine.execFirmwareStatus pair s
  | .stage pair flashOk => Sys2Proof.Machine.execStage pair flashOk s
  | .activate pair => Sys2Proof.Machine.execActivate pair s
  | .activationRecheck => Sys2Proof.Machine.execActivationRecheck s
  | .activationTakeover => Sys2Proof.Machine.execActivationTakeover s
  | .activationRollback => Sys2Proof.Machine.execActivationRollback s
  | .revokeKeySlot pair => Sys2Proof.Machine.execRevokeKeySlot pair s
  | .advanceSecurityVersion pair => Sys2Proof.Machine.execAdvanceSecurityVersion pair s
  | .recoveryWrite pair flashOk => Sys2Proof.Machine.execRecoveryWrite pair flashOk s
  | .hostImageWrite pair flashOk => Sys2Proof.Machine.execHostImageWrite pair flashOk s
  | .rescue x => Sys2Proof.Machine.execRescue x s
  | .noticeDelivery fn => Sys2Proof.Machine.execNoticeDelivery fn s
  | .powerGood on r => Sys2Proof.Machine.execPowerGood on r s
  | .ready host => Sys2Proof.Machine.execReady host s
  | .powerGoodFall => Sys2Proof.Machine.execPowerGoodFall s
  | .thermtrip t => Sys2Proof.Machine.execThermtrip t s
  | .regulatorWindow x busy => Sys2Proof.Machine.execRegulatorWindow x busy s
  | .powerSense p => Sys2Proof.Machine.execPowerSense p s
  | .thermalSense t => Sys2Proof.Machine.execThermalSense t s
  | .tripCooldown t => Sys2Proof.Machine.execTripCooldown t s
  | .regulatorFault x => Sys2Proof.Machine.execRegulatorFault x s
  | .d2dReplayLimit die => Sys2Proof.Machine.execD2dReplayLimit die s
  | .scrub t uncorr => Sys2Proof.Machine.execScrub t uncorr s
  | .hubFault array word => Sys2Proof.Machine.execHubFault array word s
  | .refclkEdge synce => Sys2Proof.Machine.execRefclkEdge synce s
  | .pcieLinkTrained => Sys2Proof.Machine.execPcieLinkTrained s
  | .powerStateChange fn d3 => Sys2Proof.Machine.execPowerStateChange fn d3 s
  | .undefinedTypeRequest pair => Sys2Proof.Machine.execUndefinedTypeRequest pair s

end Sys2Proof.Machine
end

