-- ==== Sys2Proof/WellFormed.lean ====
section
/-! DEFINITION. When a command is well formed: every operand that names a unit names one that some part has (a logical core below
32, a suite below 32, a function below 17, a pair below 64, a pseudo-channel below 64, a peer below 256 …), and an address range lies inside the 64 GB of device space. A command
that is not well formed names no unit of the part, so no such event exists: `exec` answers the state as it is (log entry 8). -/

namespace Sys2Proof

/-- The array that a scrubbing event names is one of the part (R423): 40 physical cores, 8 shelves. -/
def ScrubTarget.ok : ScrubTarget → Bool
  | .coreStore n => n < 40
  | .shelf x => x < 8
  | .hubCopy => true

/-- A command is well formed. -/
def Instr.wf : Instr → Bool
  | .mxSeat core _ _ => decide (core < 32)
  | .mxTile core _ _ => decide (core < 32)
  | .mxBench core _ _ => decide (core < 32)
  | .drChain core _ _ => decide (core < 32)
  | .vxMap core _ _ => decide (core < 32)
  | .vxDw core _ _ => decide (core < 32)
  | .vxPool core _ _ => decide (core < 32)
  | .vxReduce core _ _ => decide (core < 32)
  | .vxBoxdec core _ _ => decide (core < 32)
  | .vxNms core _ _ => decide (core < 32)
  | .vxSort core _ _ => decide (core < 32)
  | .stWalk core _ _ => decide (core < 32)
  | .stStore core _ _ => decide (core < 32)
  | .qWait core _ _ => decide (core < 32)
  | .qSignal core _ _ => decide (core < 32)
  | .qBarrier core _ _ => decide (core < 32)
  | .ctlLoop core _ _ => decide (core < 32)
  | .ctlGuard core _ _ => decide (core < 32)
  | .ctlCommit core _ => decide (core < 32)
  | .ctlShape core _ _ => decide (core < 32)
  | .ctlHalt core _ _ => decide (core < 32)
  | .guardCommit core _ => decide (core < 32)
  | .guardSquash core _ => decide (core < 32)
  | .stallWatchdogExpiry suite => decide (suite < 32)
  | .waitSatisfied core => decide (core < 32)
  | .flagSignalEffect core _ => decide (core < 32)
  | .entryArrival core _ src _ => decide (core < 32 ∧ src < 32)
  | .creditReturn core _ src => decide (core < 32 ∧ src < 32)
  | .walkGuardSatisfied core eng => decide (core < 32 ∧ eng < 4)
  | .mcastLagExpiry suite _ core => decide (suite < 32 ∧ core < 32)
  | .fallbackFetch suite _ core => decide (suite < 32 ∧ core < 32)
  | .cushionBeat core => decide (core < 32)
  | .rampDown core => decide (core < 32)
  | .rampUp core => decide (core < 32)
  | .checkTileCompare core _ => decide (core < 32)
  | .reseatReady _ _ => true
  | .kernelComplete suite => decide (suite < 32)
  | .load pair _ => decide (pair < 64)
  | .loadDigestDone suite => decide (suite < 32)
  | .segmentFrame suite core _ => decide (suite < 32 ∧ core < 32)
  | .missingSegmentReport suite core => decide (suite < 32 ∧ core < 32)
  | .bitmapReportTimeout suite core => decide (suite < 32 ∧ core < 32)
  | .suiteCreate pair => decide (pair < 64)
  | .suiteRelease pair => decide (pair < 64)
  | .ringSetup pair => decide (pair < 64)
  | .ringDoorbell fn ring _ => decide (fn < 17 ∧ ring < 65536)
  | .dispatchEntry suite => decide (suite < 32)
  | .completionEntryWrite ring => decide (ring < 65536)
  | .stepAssembly suite => decide (suite < 32)
  | .heartbeat pair => decide (pair < 64)
  | .heartbeatTimeout fn => decide (fn < 17)
  | .adopt pair => decide (pair < 64)
  | .allocation pair => decide (pair < 64)
  | .latchingRead fn _ => decide (fn < 17)
  | .readClear fn _ => decide (fn < 17)
  | .registerWrite fn _ _ => decide (fn < 17)
  | .mbxReplyAck fn pair => decide (fn < 17 ∧ pair < 64)
  | .tsIncrWrite fn _ => decide (fn < 17)
  | .tsStep fn _ => decide (fn < 17)
  | .tsStepAbsorbed => true
  | .laneModeWrite fn _ => decide (fn < 17)
  | .clBoundsWrite fn x _ => decide (fn < 17 ∧ x < 8)
  | .ageLimitWrite fn _ => decide (fn < 17)
  | .pqDoorbell fn q _ => decide (fn < 17 ∧ q < 256)
  | .map pair => decide (pair < 64)
  | .translationDrainComplete pair => decide (pair < 64)
  | .windowCreate pair => decide (pair < 64)
  | .windowDelete pair => decide (pair < 64)
  | .windowSetSuiteMask pair => decide (pair < 64)
  | .bar2Read fn addr r => decide (fn < 17 ∧ addr + r.len ≤ 0x1000000000)
  | .bar2Write fn addr data => decide (fn < 17 ∧ addr + data.length ≤ 0x1000000000)
  | .memRequest r => decide (r.addr < 0x1000000000 ∧ r.cls < 4)
  | .memSchedule pc _ => decide (pc < 64)
  | .agePromotion pc => decide (pc < 64)
  | .refresh pc => decide (pc < 64)
  | .stackTempRead stack _ => decide (stack < 2)
  | .contextSetup pair _ => decide (pair < 64)
  | .contextParameter pair => decide (pair < 64)
  | .stopContext pair => decide (pair < 64)
  | .stopStream pair => decide (pair < 64)
  | .stopSession pair => decide (pair < 64)
  | .stopLockGroup pair => decide (pair < 64)
  | .frameStart port vc _ => decide (port < 4 ∧ vc < 16)
  | .lineArrival port vc _ _ _ _ => decide (port < 4 ∧ vc < 16)
  | .frameEnd port vc _ => decide (port < 4 ∧ vc < 16)
  | .lineTimeout ctx => decide (ctx < 64)
  | .portLockLoss port => decide (port < 4)
  | .lockGroupSetup pair => decide (pair < 64)
  | .trigger g => decide (g < 16)
  | .triggerWindowExpiry ctx => decide (ctx < 64)
  | .decodeSetup pair => decide (pair < 64)
  | .bitstreamEntry st => decide (st < 64)
  | .bitstreamEntryConsumed st _ _ => decide (st < 64)
  | .encodeSetup pair => decide (pair < 64)
  | .encodeJob se => decide (se < 16)
  | .encodeJobComplete se _ => decide (se < 16)
  | .contextSlotError pipe slot _ => decide (pipe < 2 ∧ slot < 32)
  | .flrVf n => decide (1 ≤ n ∧ n ≤ 16)
  | .vfEnableClear n => decide (n ≤ 16)
  | .hotReset _ => true
  | .completionTimeout fn _ _ => decide (fn < 17)
  | .usbRegisterRead _ _ _ => true
  | .usbRegisterWrite _ _ _ => true
  | .usbDeviceRead _ _ _ => true
  | .usbDeviceWrite _ _ _ => true
  | .usbMailboxMessage _ _ _ => true
  | .hostStart pair => decide (pair < 64)
  | .frameReceive port _ _ => decide (port < 4)
  | .frameTransmit q => decide (q < 256)
  | .packetQueueSetup pair => decide (pair < 64)
  | .packetQueueDelete pair => decide (pair < 64)
  | .steeringRule pair => decide (pair < 64)
  | .fecLockLoss x => decide (x.lane < 4)
  | .laneFarEndCheck lane _ => decide (lane < 4)
  | .ppsInEdge => true
  | .ppsHoldover => true
  | .ppsOut => true
  | .chip pair => decide (pair < 64)
  | .peerSetup pair => decide (pair < 64)
  | .dataFrame peer _ => decide (peer < 256)
  | .creditFrame peer _ => decide (peer < 256)
  | .creditFrameSend peer => decide (peer < 256)
  | .acknowledge peer _ => decide (peer < 256)
  | .negativeAcknowledge peer _ => decide (peer < 256)
  | .hello peer _ => decide (peer < 256)
  | .ackTimer peer => decide (peer < 256)
  | .replayTimeout peer => decide (peer < 256)
  | .peerLossLimit peer => decide (peer < 256)
  | .helloTimer => true
  | .versionNegotiation pair => decide (pair < 64)
  | .identity pair => decide (pair < 64)
  | .attestation pair => decide (pair < 64)
  | .firmwareStatus pair => decide (pair < 64)
  | .stage pair _ => decide (pair < 64)
  | .activate pair => decide (pair < 64)
  | .activationRecheck => true
  | .activationTakeover => true
  | .activationRollback => true
  | .revokeKeySlot pair => decide (pair < 64)
  | .advanceSecurityVersion pair => decide (pair < 64)
  | .recoveryWrite pair _ => decide (pair < 64)
  | .hostImageWrite pair _ => decide (pair < 64)
  | .rescue x => decide (x.pair < 64)
  | .noticeDelivery fn => decide (fn < 17)
  | .powerGood _ _ => true
  | .ready _ => true
  | .powerGoodFall => true
  | .thermtrip _ => true
  | .regulatorWindow x busy => decide (x < 8 ∧ busy ≤ 1000)
  | .powerSense _ => true
  | .thermalSense _ => true
  | .tripCooldown _ => true
  | .regulatorFault x => decide (x < 8)
  | .d2dReplayLimit die => decide (die < 2)
  | .scrub t _ => t.ok
  | .hubFault _ _ => true
  | .refclkEdge _ => true
  | .pcieLinkTrained => true
  | .powerStateChange fn _ => decide (fn < 17)
  | .undefinedTypeRequest pair => decide (pair < 64)

end Sys2Proof
end

