-- ==== Sys2Proof/Safety.lean ====
section
/-! DEFINITION. The terms in which claims about the block are made. -/

namespace Sys2Proof.Machine

/-- Commands of the PWRGOOD ball; every other command needs power-good. -/
def ofPower : Instr → Bool
  | .powerGood _ _ => true
  | .powerGoodFall => true
  | _ => false

/-- With PWRGOOD low the block holds fuses, flash and its records, and what stands outside it, and nothing else (R404, R446). -/
def OffClean (s : State) : Prop := s.on = false → s.powerDown = s

/-- The firmware takes request r of this type from pair p: every check of R378 passes. -/
def State.accepts (s : State) (p type : Nat) (r : Req) : Bool :=
  s.on && decide (s.request p = some r) && decide (r.type = type) && decide (s.verdict r = .ok)

/-- The pair once its request is accepted (R377, R379): the request is taken, its number is the last accepted one, and the pair is
busy until the answer. -/
def State.accepted (s : State) (r : Req) : State :=
  (s.take r.pair).setPair r.pair (fun x => { x with lastSeq := r.seq, stored := [], busy := true, asked := x.req })

/-- The pair whose request a mailbox message command is about; the boot ROM's rescue (R370) is apart. -/
def messagePair : Instr → Option Nat
  | .versionNegotiation p | .heartbeat p | .adopt p | .allocation p | .suiteCreate p | .suiteRelease p | .load p _ | .ringSetup p
  | .windowCreate p | .windowDelete p | .windowSetSuiteMask p | .map p | .contextSetup p _ | .contextParameter p | .stopContext p
  | .stopStream p | .stopSession p | .stopLockGroup p | .lockGroupSetup p | .decodeSetup p | .encodeSetup p | .hostStart p | .chip p
  | .peerSetup p | .hostImageWrite p _ | .packetQueueSetup p | .packetQueueDelete p | .steeringRule p | .identity p | .attestation p
  | .firmwareStatus p | .stage p _ | .activate p | .revokeKeySlot p | .advanceSecurityVersion p | .recoveryWrite p _ => some p
  | _ => none

/-- Is a request one of a message command's row: its type (R381), and where a type has several rows the operation that it names?
An operation that no row has is answered, with its refusal, by the first row of the type. -/
def messageRow (i : Instr) (r : Req) : Bool :=
  match i with
  | .versionNegotiation _ => r.type = 0x0001
  | .heartbeat _ => r.type = 0x0002
  | .adopt _ => r.type = 0x0003
  | .allocation _ => r.type = 0x0010
  | .suiteCreate _ => r.type = 0x0011
  | .suiteRelease _ => r.type = 0x0012
  | .load _ _ => r.type = 0x0013
  | .ringSetup _ => r.type = 0x0014
  | .windowCreate _ => r.type = 0x0015 && (byteAt r.body 0 = 0 || 2 < byteAt r.body 0)
  | .windowDelete _ => r.type = 0x0015 && byteAt r.body 0 = 1
  | .windowSetSuiteMask _ => r.type = 0x0015 && byteAt r.body 0 = 2
  | .map _ => r.type = 0x0018
  | .contextSetup _ _ => r.type = 0x0020
  | .contextParameter _ => r.type = 0x0021
  | .stopContext _ => r.type = 0x0022 && (byteAt r.body 1 = 0 || 3 < byteAt r.body 1)
  | .stopStream _ => r.type = 0x0022 && byteAt r.body 1 = 1
  | .stopSession _ => r.type = 0x0022 && byteAt r.body 1 = 2
  | .stopLockGroup _ => r.type = 0x0022 && byteAt r.body 1 = 3
  | .lockGroupSetup _ => r.type = 0x0023
  | .decodeSetup _ => r.type = 0x0024
  | .encodeSetup _ => r.type = 0x0025
  | .hostStart _ => r.type = 0x0030
  | .chip _ => r.type = 0x0031
  | .peerSetup _ => r.type = 0x0032
  | .hostImageWrite _ _ => r.type = 0x0033
  | .packetQueueSetup _ => r.type = 0x0034 && byteAt r.body 1 != 1
  | .packetQueueDelete _ => r.type = 0x0034 && byteAt r.body 1 = 1
  | .steeringRule _ => r.type = 0x0035
  | .identity _ => r.type = 0x0040
  | .attestation _ => r.type = 0x0041
  | .firmwareStatus _ => r.type = 0x0042
  | .stage _ _ => r.type = 0x0043
  | .activate _ => r.type = 0x0044
  | .revokeKeySlot _ => r.type = 0x0045
  | .advanceSecurityVersion _ => r.type = 0x0046
  | .recoveryWrite _ _ => r.type = 0x0047
  | _ => false

/-- The core, the instruction index and the tile-interface instruction of a command that is one (R139). -/
def streamInstr : Instr → Option (Nat × Nat × TInstr)
  | .mxSeat n idx o => some (n, idx, .mxSeat o)
  | .mxTile n idx o => some (n, idx, .mxTile o)
  | .mxBench n idx o => some (n, idx, .mxBench o)
  | .drChain n idx o => some (n, idx, .drChain o)
  | .vxMap n idx o => some (n, idx, .vxMap o)
  | .vxDw n idx o => some (n, idx, .vxDw o)
  | .vxPool n idx o => some (n, idx, .vxPool o)
  | .vxReduce n idx o => some (n, idx, .vxReduce o)
  | .vxBoxdec n idx o => some (n, idx, .vxBoxdec o)
  | .vxNms n idx o => some (n, idx, .vxNms o)
  | .vxSort n idx o => some (n, idx, .vxSort o)
  | .stWalk n idx o => some (n, idx, .stWalk o)
  | .stStore n idx o => some (n, idx, .stStore o)
  | .qWait n idx o => some (n, idx, .qWait o)
  | .qSignal n idx o => some (n, idx, .qSignal o)
  | .qBarrier n idx o => some (n, idx, .qBarrier o)
  | .ctlLoop n idx o => some (n, idx, .ctlLoop o)
  | .ctlGuard n idx o => some (n, idx, .ctlGuard o)
  | .ctlCommit n idx => some (n, idx, .ctlCommit)
  | .ctlShape n idx o => some (n, idx, .ctlShape o)
  | .ctlHalt n idx fin => some (n, idx, .ctlHalt fin)
  | _ => none

/-- Core n of the running suite k stands at the end of its stream as it has come so far, with `l` in flow: its next instruction, of
index `idx`, is issued as it comes (R19, R138). -/
def State.awaits (s : State) (k n idx : Nat) (l : List Flow) : Bool :=
  let q := (s.core n).seq
  s.on && decide (n < 32) && decide (s.suiteOf n = some k) && decide ((s.suite k).st = 4) && q.running && !q.ended &&
    q.hold.isNone && q.skipping.isNone && decide (q.flow = l) && decide (q.code.length = q.pc) && decide (q.pc < 65536) &&
    decide (idx < 0x1000000)

/-- The stream of core n has taken its next instruction. -/
def Seq.append (q : Seq) (idx : Nat) (i : TInstr) : Seq := { q with code := q.code ++ [(idx, i)] }

/-- The next instruction of core n has been issued and stands at the end of the flow (R139). -/
def State.entered (s : State) (n idx : Nat) (i : TInstr) : State := s.setSeq n (fun q => (q.append idx i).enter idx i)

/-- That instruction with its captured values (R177). -/
def State.issuedAs (s : State) (n idx : Nat) (i : TInstr) : Issued :=
  let q := (s.core n).seq
  { no := q.nextNo, idx := idx, instr := i, sh := q.sh, lp := q.frames.map LoopFrame.iter, met := false }

/-- A core before its first attempt at an instruction that has just been issued: a wait clause that is satisfied already has been taken
up (R121, R239). The third part is how many pieces of work the core may still do at once. -/
def State.readied (s : State) (k n : Nat) (i : Issued) : State × Issued × Nat :=
  if s.clauseReady i && (s.codeOf k n i).isNone then (s.meetClause k n i.no, { i with met := true }, 15) else (s, i, 16)

end Sys2Proof.Machine
end

