-- ==== Sys2Proof/Certificates/Slice0/Obligations.lean ====
section
/-! DEFINITION. The statements about the block. In a statement about a mailbox message, `s.accepts p type r` says that the checks of
R378 pass, `s.accepted r` is the state in which the request acts, and `answer` puts the reply there; an explicit next state says what
changes and, by what it does not name, what stays. -/

open Sys2Proof Sys2Proof.Machine

/-! ## The queue of commands and the gate of every command -/

/-- A step with a command at the front of the queue runs exactly that command on the state with the queue's rest. -/
def Obligations.StepRunsFront : Prop :=
  ∀ (s : State) (c : Instr) (rest : List Instr), step (s.withPending (c :: rest)) = exec c (s.withPending rest)

/-- With no command waiting a powered block lets one beat pass, in which the queue stays empty, and an unpowered block stays as it is
(the model's choice, log entry 50). -/
def Claims.EmptyQueueStep : Prop :=
  ∀ s : State, s.pending = [] →
    (∃ t, step s = .next t ∧ t.pending = [] ∧ t.on = s.on) ∧ (s.on = false → step s = .next s)

/-- Every step that answers a next state takes the front command out of the queue and leaves the rest of the queue in order. -/
def Claims.StepTakesOneCommand : Prop :=
  ∀ s t : State, step s = .next t → t.pending = s.pending.tail

/-- Every command answers a next state, whatever its operands and the state: none is refused and none faults. One that names a unit
which no part has is no event and changes nothing (the model's choice, log entry 8). -/
def Obligations.EveryCommandAnswers : Prop :=
  ∀ (i : Instr) (s : State), (∃ t, exec i s = .next t) ∧ (i.wf = false → exec i s = .next s)

/-- PWRGOOD low holds the whole device in reset (R445): no command but one of the PWRGOOD ball changes anything. -/
def Claims.PowerLowHoldsReset : Prop :=
  ∀ (i : Instr) (s t : State), s.on = false → ofPower i = false → exec i s = .next t → t = s

/-- Every step keeps the block clean while PWRGOOD is low: it then holds fuses, flash with its records, and what stands outside it,
and nothing else. -/
def Obligations.OffCleanKept : Prop := ∀ s t : State, OffClean s → step s = .next t → OffClean t

/-- The block is clean in that sense at reset. -/
def Obligations.ResetOffClean : Prop := OffClean State.reset

/-- PWRGOOD, rising and falling: a fall loses every state except fuses and flash, and a rise turns the block on with the time base
at 0, the mode pins and the new Abapex epoch taken up; the flash changes at most in its retirement record; a part whose flash holds no
image that the boot ROM accepts then waits for a rescue (R369). With PWRGOOD high a rise is no event. -/
def Claims.PowerGoodCycle : Prop :=
  (∀ s : State, ∃ t, exec .powerGoodFall s = .next t ∧ t.on = false ∧ t.fuses = s.fuses ∧ t.flash = s.flash ∧
    t.fw.boots = s.fw.boots ∧ t.ts = TimeBase.reset ∧ t.hbm = [] ∧ t.shelf = [] ∧
    t.cores = State.reset.cores ∧ t.suites = State.reset.suites ∧ t.rings = [] ∧ t.pairs = State.reset.pairs ∧
    t.log = EventLog.reset ∧ t.xlt = Xlt.reset ∧ t.media = Media.reset ∧ t.fab = Fab.reset ∧ t.pending = s.pending) ∧
  (∀ (s : State) (mode e : Nat) (r : TestResults), s.on = false → Mem.wf flashDefault s.flash = true →
    ∃ t, exec (.powerGood ⟨mode, e⟩ r) s = .next t ∧ t.on = true ∧ t.ts = TimeBase.reset ∧ t.fuses = s.fuses ∧
      (∀ x, x < recordAt 0 ∨ recordAt 1 + 0x100000 ≤ x → memGet flashDefault t.flash x = memGet flashDefault s.flash x) ∧
      t.suites = State.reset.suites ∧ t.rings = [] ∧ t.hbm = [] ∧ t.pending = s.pending) ∧
  (∀ (s : State) (mode e : Nat) (r : TestResults), s.on = false → (s.cold.markUnits).bootChoice.1 = none →
    ∃ t, exec (.powerGood ⟨mode, e⟩ r) s = .next t ∧ t.fw.run = none ∧ t.fw.bootPath = 3 ∧ t.health.phase = 0 ∧ t.fab.epoch = e) ∧
  (∀ (s : State) (mode e : Nat) (r : TestResults), s.on = true → exec (.powerGood ⟨mode, e⟩ r) s = .next s)

/-! ## Mailboxes -/

/-- How a request meets the checks of R378 and R379, for every message command. A request that a check refuses is taken and answered
with the check's status, and nothing else changes; an exact repeat of the last accepted request is taken and its kept reply is
delivered again, and nothing is performed twice; and a pair that holds no request of the command's row makes the command no event. -/
def Claims.MessageChecks : Prop :=
  ∀ (i : Instr) (p : Nat) (s : State), messagePair i = some p → p < 64 → s.on = true →
    (∀ r st ex, s.request p = some r → messageRow i r = true → s.verdict r = .refuse st ex →
      exec i s = .next (s.sameInputs ((s.take p).deliver p (s.replyBytes r st ex)))) ∧
    (∀ r, s.request p = some r → messageRow i r = true → s.verdict r = .again →
      exec i s = .next (s.sameInputs ((s.take p).deliver p (s.pair p).stored))) ∧
    ((∀ r, s.request p = some r → messageRow i r = false) → exec i s = .next s)

/-- What an answer does (R377, R379): the reply's message is kept for a repeat, the pair is no longer busy, the reply registers hold the
message with `reply_valid` set and vector 0 of the pair's function is raised, over USB as an event record, and to running host cores when it
is of function 0; while an earlier reply is unread it waits. Every other pair, and every other kind of state, is as before. -/
def Claims.AnswerFrame : Prop :=
  ∀ (s : State) (r : Req) (st : Nat) (ex : List Byte), r.pair < s.pairs.length →
    let t := s.answer r st ex
    let h := (s.hostIrq (pairOwner r.pair) 0).out
    t = { s with pairs := t.pairs, funcs := t.funcs, out := t.out } ∧
    (∀ q, q ≠ r.pair → t.pair q = s.pair q) ∧
    ((s.pair r.pair).replyV = false →
      t.pair r.pair = { s.pair r.pair with stored := s.replyBytes r st ex, busy := false,
                                           reply := padTo 256 (s.replyBytes r st ex), replyV := true } ∧
      (s.irqOpen (pairOwner r.pair) = true → t.funcs = s.funcs ∧
        t.out = { h with irqs := s.out.irqs ++ [(pairOwner r.pair, 0)],
                             events := if s.fw.attach = 1 then s.out.events ++ [eventRecord (pairOwner r.pair) 0 s.now] else s.out.events }) ∧
      (s.irqOpen (pairOwner r.pair) = false → t.out = h)) ∧
    ((s.pair r.pair).replyV = true →
      t.pair r.pair = { s.pair r.pair with stored := s.replyBytes r st ex, busy := false, due := some (s.replyBytes r st ex) } ∧
      t.out = s.out ∧ t.funcs = s.funcs)

/-- Version negotiation (R383) and heartbeat (R264). A negotiation that lists the firmware's major sets the pair's major and minor and
starts its numbers at the request's; one that does not is answered 0xf1 and leaves the pair's version and last number. A heartbeat
restarts the function's heartbeat time and is answered 0x00. The order of the reply's fields is the model's (log entry 20). -/
def Claims.NegotiationAndHeartbeat : Prop :=
  (∀ (s : State) (p m : Nat) (r : Req), s.accepts p 0x0001 r = true → listedMinor r.body = some m →
    exec (.versionNegotiation p) s = .next (s.sameInputs
      (((s.accepted r).setPair p (fun x => { x with major := 1, minor := 0, lastSeq := r.seq })).answer r 0
        (toLE 1 1 ++ toLE 1 0 ++ toLE 4 s.fwVersion ++ toLE 1 r.fn ++ toLE 1 (noticePair r.fn) ++
          [1, 0, 0, 0, 0, 0, 0, 0] ++ [1, 0] ++ [1, 0])))) ∧
  (∀ (s : State) (p : Nat) (r : Req), s.accepts p 0x0001 r = true → listedMinor r.body = none →
    exec (.versionNegotiation p) s = .next (s.sameInputs ((s.take p).deliver p (s.replyBytes r 0xf1 [])))) ∧
  (∀ (s : State) (p : Nat) (r : Req), s.accepts p 0x0002 r = true →
    exec (.heartbeat p) s = .next (s.sameInputs
      (((s.accepted r).setFunc r.fn (fun f => { f with beat := some s.now })).answer r 0 [])))

/-- Requests whose check fails or whose type is undefined (R378), the write that clears `reply_valid` (R377), and the delivery of a
notice (R380): the oldest notice of the function goes to the function's notice pair, numbered by that function's own series. -/
def Claims.RefusalAckAndNotice : Prop :=
  (∀ (s : State) (p st : Nat) (ex : List Byte) (r : Req), s.on = true → s.request p = some r → s.verdict r = .refuse st ex →
    exec (.undefinedTypeRequest p) s = .next (s.sameInputs ((s.take p).deliver p (s.replyBytes r st ex)))) ∧
  (∀ (s : State) (f p : Nat), s.on = true → f < 17 → p < 64 → (f = 0 ∨ pairOwner p = f) → (s.pair p).replyV = true →
    ((s.pair p).due = none →
      exec (.mbxReplyAck f p) s = .next (s.setPair p (fun x => { x with replyV := false, due := none }))) ∧
    (∀ m, (s.pair p).due = some m →
      exec (.mbxReplyAck f p) s =
        .next (s.sameInputs ((s.setPair p (fun x => { x with replyV := false, due := none })).deliver p m)))) ∧
  (∀ (s : State) (f p : Nat), s.on = true → f < 17 → p < 64 → f ≠ 0 → pairOwner p ≠ f → exec (.mbxReplyAck f p) s = .next s) ∧
  (∀ (s : State) (f : Nat) (n : Notice) (rest : List Notice), f < 17 → s.fwOn = true → s.fw.update ≠ 4 →
    (s.func f).notices = n :: rest → (s.pair (noticePair f)).replyV = false → (s.pair (noticePair f)).due = none →
    exec (.noticeDelivery f) s = .next (s.sameInputs
      ((s.setFunc f (fun y => { y with notices := rest, noticeNo := (y.noticeNo + 1) % 65536 })).deliver (noticePair f)
        (mkMessage (s.pair (noticePair f)).major (s.pair (noticePair f)).minor n.type (s.func f).noticeNo n.suite n.body))))

/-! ## Functions, rings and suites -/

/-- The allocation message (R262, R382): with its checks passed it replaces the allocation of the virtual function that it names and
nothing else; fields out of range are answered 0x80, an overlap 0x81, a withdrawal of what is in use 0x82, in this order. -/
def Claims.AllocationOutcomes : Prop :=
  ∀ (s : State) (p : Nat) (r : Req), s.accepts p 0x0010 r = true →
    let f := byteAt r.body 0
    let a := allocOf r.body
    (allocRange r.body = true → s.allocOverlaps f a = false → s.allocWithdraws f a = false →
      exec (.allocation p) s =
        .next (s.sameInputs (((s.accepted r).setFunc f (fun x => { x with alloc := a })).answer r 0 []))) ∧
    (allocRange r.body = false → exec (.allocation p) s = .next (s.sameInputs ((s.accepted r).answer r 0x80 []))) ∧
    (allocRange r.body = true → s.allocOverlaps f a = true →
      exec (.allocation p) s = .next (s.sameInputs ((s.accepted r).answer r 0x81 []))) ∧
    (allocRange r.body = true → s.allocOverlaps f a = false → s.allocWithdraws f a = true →
      exec (.allocation p) s = .next (s.sameInputs ((s.accepted r).answer r 0x82 [])))

/-- Ring setup (R246): a ring that its sender may set up stands afterwards as the message describes it, its indices 0 and bound to no
suite; the rejected bit and a camera context or codec that uses the ring stay. A ring of another function is answered 0x04, one bound to
a suite 0x07, fields out of range 0x80, and a base whose slots and index word do not lie in the sender's windows 0x08, in this order. -/
def Claims.RingSetupOutcomes : Prop :=
  ∀ (s : State) (p : Nat) (r : Req), s.accepts p 0x0014 r = true →
    let n := fld r.body 0 2
    let g : Ring := { ringOf r.fn r.body with
      rejected := s.ringRejected n, media := ((s.ring? n).map Ring.media).getD false }
    let mine : Prop := s.ownsRing r.fn n = true ∧ ∀ o, s.ring? n = some o → o.owner = r.fn
    let unbound : Prop := ∀ o, s.ring? n = some o → o.suite = none
    let placed : Prop := 16 ≤ g.base ∧ s.inFn r.fn (g.base - 16) (16 + 2 ^ (g.slotLog + g.cntLog)) = true
    (mine → unbound → ringRange r.body = true → placed →
      exec (.ringSetup p) s =
        .next (s.sameInputs (({ s.accepted r with rings := aSet s.rings n g, ringRejects := s.ringRejects.filter (· != n) } : State).answer r 0 []))) ∧
    (¬ mine → exec (.ringSetup p) s = .next (s.sameInputs ((s.accepted r).answer r 0x04 []))) ∧
    (mine → ¬ unbound → exec (.ringSetup p) s = .next (s.sameInputs ((s.accepted r).answer r 0x07 []))) ∧
    (mine → unbound → ringRange r.body = false →
      exec (.ringSetup p) s = .next (s.sameInputs ((s.accepted r).answer r 0x80 []))) ∧
    (mine → unbound → ringRange r.body = true → ¬ placed →
      exec (.ringSetup p) s = .next (s.sameInputs ((s.accepted r).answer r 0x08 []))) ∧
    g.p = 0 ∧ g.c = 0 ∧ g.suite = none ∧ g.owner = r.fn

/-- Suite create (R242, R243): with all six checks passed, in their order, the suite stands in state 1 as the message describes it, its
cores start from reset, its rings are bound to it, and the reply carries its key; a check that fails gives its status, and then nothing
but the reply happens. -/
def Claims.SuiteCreateOutcomes : Prop :=
  ∀ (s : State) (p : Nat) (r : Req), s.accepts p 0x0011 r = true →
    let k := createSuite r.fn r.body
    let status : Nat :=
      if (s.suite r.suite).st ≠ 0 then 0x01
      else if s.createCores r.fn k.mask = false then 0x02
      else if s.createGrants r.fn k.grants = false then 0x03
      else if s.createRings r.fn r.body = false then 0x04
      else if createRange r.suite r.body = false then 0x05
      else if s.reseating = true then 0x06
      else 0
    (status ≠ 0 → exec (.suiteCreate p) s = .next (s.sameInputs ((s.accepted r).answer r status []))) ∧
    (status = 0 → exec (.suiteCreate p) s = .next (s.sameInputs
      (((((s.accepted r).vacate k.mask).setSuite r.suite (fun _ => k)).bindRings k.ringList (some r.suite)).answer r 0
        (toLE 8 (s.suiteKey k.mode))))) ∧
    k.st = 1 ∧ k.owner = r.fn ∧ k.mask = fld r.body 4 4 ∧ k.prog = none ∧ k.disp = none

/-- Suite release (R245): the suite's owner, or function 0, frees it. What was in progress ends with its status, the suite is free
afterwards, and every other suite is as before; a free suite is answered 0x01 and another function's 0x04, without effect. -/
def Claims.SuiteReleaseOutcomes : Prop :=
  ∀ (s : State) (p : Nat) (r : Req), s.accepts p 0x0012 r = true →
    ((s.suite r.suite).st = 0 → exec (.suiteRelease p) s = .next (s.sameInputs ((s.accepted r).answer r 0x01 []))) ∧
    ((s.suite r.suite).st ≠ 0 → (s.suite r.suite).owner ≠ r.fn → r.fn ≠ 0 →
      exec (.suiteRelease p) s = .next (s.sameInputs ((s.accepted r).answer r 0x04 []))) ∧
    ((s.suite r.suite).st ≠ 0 → ((s.suite r.suite).owner = r.fn ∨ r.fn = 0) → r.suite < s.suites.length →
      ∃ t : State, exec (.suiteRelease p) s = .next (s.sameInputs (t.answer r 0 [])) ∧
        t = (s.accepted r).freeSuite r.suite 0x02 0x66 ∧ t.suite r.suite = Suite.free ∧
        (∀ j, j ≠ r.suite → t.suite j = s.suite j))

/-- Heartbeat timeout (R264): 300 ms after its last heartbeat a function that is not in orphan mode enters it, with a log entry 0x0030
and a completion entry of kind 3, status 0x01, on each of its completion rings; a function that never sent one, or whose heartbeat is
younger, stays as it is. -/
def Claims.HeartbeatTimeout : Prop :=
  (∀ (s : State) (f b : Nat), f < 17 → s.firmwareActs = true → (s.func f).beat = some b → (s.func f).orphan = false →
    b + 300000000 ≤ s.now →
    exec (.heartbeatTimeout f) s = .next (s.sameInputs
      (((s.setFunc f (fun x => { x with orphan := true })).logE 0x0030 0 f 0xff 0 0 (b % M32) (b / M32) 0).dueEvent f 0x01))) ∧
  (∀ (s : State) (f : Nat), f < 17 →
    ((s.func f).beat = none ∨ (s.func f).orphan = true ∨ ∃ b, (s.func f).beat = some b ∧ s.now < b + 300000000) →
    exec (.heartbeatTimeout f) s = .next s)

/-- Adopt (R266): the buffer receives a record for every ring and every suite of the function, orphan mode ends with a fresh heartbeat
time, the end of a held load and a completion entry of kind 3, status 0x02; a buffer that is out of range is answered 0x71 and one that
is too small 0x70, both without effect. A buffer whose pages cannot be written is answered 0x71 too, the model's reading (log entry
126). -/
def Claims.AdoptOutcomes : Prop :=
  ∀ (s : State) (p : Nat) (r : Req), s.accepts p 0x0003 r = true →
    let a := fld r.body 0 8
    let n := fld r.body 8 4
    let recs := (s.ringsOf r.fn).flatMap ringRecord ++ (s.suitesOf r.fn).flatMap s.suiteRecord
    let counts := toLE 4 (s.ringsOf r.fn).length ++ toLE 4 (s.suitesOf r.fn).length
    let good : Prop := a % 16 = 0 ∧ 65536 ≤ n ∧ n ≤ 2097152 ∧ n % 16 = 0 ∧ fld r.body 12 4 = 0 ∧ s.inFn r.fn a n = true
    (¬ good → exec (.adopt p) s = .next (s.sameInputs ((s.accepted r).answer r 0x71 (zeros 8)))) ∧
    (good → n < recs.length → exec (.adopt p) s = .next (s.sameInputs ((s.accepted r).answer r 0x70 counts))) ∧
    (good → recs.length ≤ n → s.writable a recs.length = false →
      exec (.adopt p) s = .next (s.sameInputs ((s.accepted r).answer r 0x71 (zeros 8)))) ∧
    (good → recs.length ≤ n → s.writable a recs.length = true → (s.func r.fn).orphan = false →
      exec (.adopt p) s = .next (s.sameInputs (((s.accepted r).hubWrite a recs).answer r 0 counts))) ∧
    (good → recs.length ≤ n → s.writable a recs.length = true → (s.func r.fn).orphan = true →
      ∃ t : State, exec (.adopt p) s = .next (s.sameInputs (t.answer r 0 counts)) ∧ t.hbm = ((s.accepted r).hubWrite a recs).hbm ∧
        (r.fn < s.funcs.length → (t.func r.fn).orphan = false ∧ (t.func r.fn).beat = some s.now) ∧
        t.comps = (((s.accepted r).hubWrite a recs).dueEvent r.fn 0x02).comps)

/-- Doorbells (R248). The owner's write that keeps the ring between empty and full becomes the host's index, P of a submission or admission
ring and C of the others, and the ring's flag binding adds the advance (a result ring's too); any other write is rejected and logged. The
value written is taken as a 32-bit word. A write to the doorbell of a ring that is not set up is rejected and logged too, and its rejected
bit is kept for the ring's number. -/
def Obligations.DoorbellOutcomes : Prop :=
  (∀ (s : State) (f rn v : Nat), s.on = true → f < 17 → rn < 65536 → v < M32 → s.ring? rn = none →
    exec (.ringDoorbell f rn v) s = .next (s.sameInputs { (s.logE 0x0020 4 f 0xff 9 rn v 0 0) with
      ringRejects := if s.ringRejects.contains rn then s.ringRejects else s.ringRejects ++ [rn] })) ∧
  ∀ (s : State) (f rn v : Nat) (r : Ring), s.on = true → f < 17 → rn < 65536 → v < M32 → s.ring? rn = some r →
    let owned : Prop := r.owner = f ∧ ¬ (r.kind = 0 ∧ (s.func f).orphan = true)
    let advP := (v + M32 - r.p) % M32
    let advC := (v + M32 - r.c) % M32
    (owned → (r.kind = 0 ∨ r.kind = 3) → (v + M32 - r.c) % M32 ≤ r.slots →
      exec (.ringDoorbell f rn v) s = .next (s.sameInputs
        ((s.setRing rn (fun x => { x with p := v })).ringFlag rn (if advP ≤ r.slots then advP else 0)))) ∧
    (owned → r.kind ≠ 0 → r.kind ≠ 3 → (r.p + M32 - v) % M32 ≤ r.slots →
      exec (.ringDoorbell f rn v) s = .next (s.sameInputs
        ((s.setRing rn (fun x => { x with c := v })).ringFlag rn (if r.kind = 2 ∧ advC ≤ r.slots then advC else 0)))) ∧
    ((¬ owned ∨ ((r.kind = 0 ∨ r.kind = 3) ∧ r.slots < (v + M32 - r.c) % M32) ∨
        (r.kind ≠ 0 ∧ r.kind ≠ 3 ∧ r.slots < (r.p + M32 - v) % M32)) →
      exec (.ringDoorbell f rn v) s = .next (s.sameInputs
        ((s.setRing rn (fun x => { x with rejected := true })).logE 0x0020 4 f 0xff 9 rn v r.p r.c)))

/-- Dispatch of a submission entry (R251 to R255) by a suite that is idle and has no step before it: an entry that is bad completes with
status 0x05, one whose pins do not hold with 0x04, one whose reservations are not free waits, and any other is reserved, becomes the
suite's entry in progress and starts its first kernel on every core. A slot that cannot be read stops the ring. The pages of the slot and
of the pinned headers are looked up. -/
def Claims.DispatchOutcomes : Prop :=
  ∀ (s : State) (k : Nat) (r : Ring), k < 32 → s.suiteIdle k = true → (s.suite k).started = false → (s.suite k).assembled = false →
    s.ring? (s.suite k).subRing = some r → r.held ≠ 0 → r.stopped = false →
    let e := parseEntry (s.devRead (r.slotAddr r.c) 256)
    let t := s.touchPins e.recs (s.touchAll (r.slotAddr r.c) 256)
    let cr := (t.suite k).compRing
    (s.ringReads r (r.slotAddr r.c) 256 = false →
      exec (.dispatchEntry k) s = .next (s.sameInputs (s.ringStop (s.suite k).subRing (pageOf (r.slotAddr r.c))))) ∧
    (s.ringReads r (r.slotAddr r.c) 256 = true → t.badEntry k e = true →
      exec (.dispatchEntry k) s = .next (s.sameInputs (t.due cr r.c 0 0x05 0 k 0 (.consume k)))) ∧
    (s.ringReads r (r.slotAddr r.c) 256 = true → t.badEntry k e = false → e.recs.all t.pinHolds = false →
      exec (.dispatchEntry k) s = .next (s.sameInputs (t.due cr r.c 0 0x04 0 k 0 (.consume k)))) ∧
    (s.ringReads r (r.slotAddr r.c) 256 = true → t.badEntry k e = false → e.recs.all t.pinHolds = true → t.resvFits k e.resv = false →
      exec (.dispatchEntry k) s = .next (s.sameInputs t)) ∧
    (s.ringReads r (r.slotAddr r.c) 256 = true → t.badEntry k e = false → e.recs.all t.pinHolds = true → t.resvFits k e.resv = true →
      exec (.dispatchEntry k) s = .next (s.sameInputs
        (((t.reserve k e.resv).setSuite k (fun x => { x with
          disp := some { isStep := false, index := r.c, first := e.first, last := e.last, kernel := e.first, words := e.words,
                         notify := decide (e.flags = 1), resv := e.resv,
                         pins := e.recs.map (fun p => { ring := p.1, index := p.2.1 }), done := 0 } })).beginRun k e.first)))

/-- Starting a kernel (R138, R244): the suite is in state 4, every core of its mask runs its stream from the start with shape registers
0 and nothing in flow, and every other core and suite is as before. -/
def Claims.StartKernelEffect : Prop :=
  ∀ (s : State) (k j : Nat), k < s.suites.length →
    let t := s.startKernel k j
    (t.suite k).st = 4 ∧ (t.suite k).mask = (s.suite k).mask ∧ (∀ i, i ≠ k → t.suite i = s.suite i) ∧
    (∀ n, n < s.cores.length → bit (s.suite k).mask n = true →
      (t.core n).seq.running = true ∧ (t.core n).seq.pc = 0 ∧ (t.core n).seq.flow = [] ∧
      (t.core n).seq.sh = List.replicate 16 (.known 0) ∧ (t.core n).queues = (s.core n).queues ∧ (t.core n).flags = (s.core n).flags ∧
      (t.core n).arr = (s.core n).arr ∧ (t.core n).seq.barriers = (s.core n).seq.barriers) ∧
    (∀ n, bit (s.suite k).mask n = false → t.core n = s.core n) ∧
    t = { s with suites := t.suites, cores := t.cores }

/-- A completion entry that is due (R250, R253): once its ring has a free slot, the oldest is written there and P advances; when it was
what a submission entry waited for, that entry is consumed. With the ring full it waits. A slot that cannot be written stops the ring,
and the entry stays due. -/
def Claims.CompletionEntryWritten : Prop :=
  ∀ (s : State) (rn : Nat) (c : Comp) (r : Ring), s.on = true → rn < 65536 → s.comps.find? (fun c => c.ring = rn) = some c →
    s.ring? rn = some r →
    let u : State := { s with comps := s.comps.erase c }
    let ready : Prop := r.free ≠ 0 ∧ r.stopped = false ∧ s.firmwareActs = true
    (ready → s.ringWrites r (r.slotAddr r.p) 32 = true → c.after = .none →
      exec (.completionEntryWrite rn) s = .next (s.sameInputs (u.ringAppend rn c.bytes))) ∧
    (∀ k, ready → s.ringWrites r (r.slotAddr r.p) 32 = true → c.after = .consume k →
      exec (.completionEntryWrite rn) s = .next (s.sameInputs ((u.ringAppend rn c.bytes).consumeEntry k))) ∧
    (ready → s.ringWrites r (r.slotAddr r.p) 32 = false →
      exec (.completionEntryWrite rn) s = .next (s.sameInputs (s.ringStop rn (pageOf (r.slotAddr r.p)))) ∧
      (s.ringStop rn (pageOf (r.slotAddr r.p))).comps = s.comps) ∧
    (r.free = 0 → exec (.completionEntryWrite rn) s = .next s) ∧
    c.bytes.length = 32

/-- Step assembly (R258) of an idle batching suite whose program holds the step's kernels. After the rows of the last step are read the
pass ends while a completion entry or a submission entry waits. Else waiting admissions are taken, but for an orphan's suite, tokens are
allotted and the step buffer is written, for a table with an occupied row; then the step is dispatched as soon as its reservation is
available. An assembly that waits for its reservation only looks again for that. -/
def Obligations.StepAssemblyOutcomes : Prop :=
  (∀ (s : State) (k : Nat), k < 32 → s.suiteIdle k = true → (s.suite k).batching = true →
    (s.suite k).lastStep < (s.suite k).kernels →
    let t := if (s.suite k).started then s.stepRead k else s
    ((s.suite k).assembled = true → exec (.stepAssembly k) s = .next (s.sameInputs (s.stepDispatch k))) ∧
    ((s.suite k).assembled = false → t.compWaits k = true → exec (.stepAssembly k) s = .next (s.sameInputs t)) ∧
    (∀ q, (s.suite k).assembled = false → t.ring? (t.suite k).subRing = some q → q.held ≠ 0 → q.stopped = false →
      exec (.stepAssembly k) s = .next (s.sameInputs t)) ∧
    (∀ q rn ar, (s.suite k).assembled = false → t.compWaits k = false → t.ring? (t.suite k).subRing = some q → q.held = 0 →
      (t.suite k).admRing = some rn → t.ring? rn = some ar →
      exec (.stepAssembly k) s = .next (s.sameInputs
        ((if (t.func (t.suite k).owner).orphan then t else t.admitPass k rn ar.p ar.slots).stepPrepare k)))) ∧
  (∀ (u : State) (k : Nat), let x := u.suite k
    let rows := allot x.chunk x.budget x.rows
    (occupied rows = 0 → u.stepPrepare k = u) ∧
    (occupied rows ≠ 0 → u.stepPrepare k =
      ((u.hubWrite x.stepBuf (stepBuffer x.stepBuf x.stepNo rows)).setSuite k (fun y =>
        { y with rows := rows, assembled := true })).stepDispatch k) ∧
    (u.resvFits k x.stepResv = false → u.stepDispatch k = u) ∧
    (u.resvFits k x.stepResv = true → u.stepDispatch k = ((u.reserve k x.stepResv).setSuite k (fun y =>
      { y with stepNo := y.stepNo + 1, assembled := false,
               disp := some { isStep := true, index := x.stepNo % M32, first := x.firstStep, last := x.lastStep, kernel := x.firstStep,
                              words := stepWords x.stepBuf x.stepNo x.rows, notify := false, resv := x.stepResv, pins := [],
                              done := 0 } })).beginRun k x.firstStep))

/-! ## Loading a program -/

/-- The load message (R233, R263): a suite in state 1 of its sender with a buffer in range goes to state 2 with the load in progress, and
the answer comes when the load has ended; a suite of another function is answered 0x04, one in another state 0x64 and a buffer out of
range 0x65, with fields that name no core and no segment. -/
def Claims.LoadOutcomes : Prop :=
  ∀ (s : State) (p : Nat) (g : Program) (r : Req), s.accepts p 0x0013 r = true →
    let x := s.suite r.suite
    let may : Prop := x.st = 1 ∧ x.owner = r.fn
    let foreign : Prop := x.st ≠ 0 ∧ x.owner ≠ r.fn
    (may → s.loadRange r = true →
      exec (.load p g) s = .next (s.sameInputs ((s.accepted r).setSuite r.suite (fun x => { x with
        st := 2, load := some { pair := p, addr := fld r.body 0 8, len := fld r.body 8 4, prog := g, image := [], phase := 0, round := 0,
                                sent := [], seen := [], missing := [] } })))) ∧
    (foreign → exec (.load p g) s = .next (s.sameInputs ((s.accepted r).answer r 0x04 (loadFields 0xff 0 0 [])))) ∧
    (¬ may → ¬ foreign → exec (.load p g) s = .next (s.sameInputs ((s.accepted r).answer r 0x64 (loadFields 0xff 0 0 [])))) ∧
    (may → s.loadRange r = false →
      exec (.load p g) s = .next (s.sameInputs ((s.accepted r).answer r 0x65 (loadFields 0xff 0 0 []))))

/-- The digest of a staged image (R226, R230): when the SHA-384 of everything before the trailer equals the trailer, the suite's sections
are applied, as the header and the section table of the image give them, and the broadcast begins; when it does not, the load ends with
status 0x60 and the suite is in state 1 again. -/
def Claims.DigestOutcomes : Prop :=
  ∀ (s : State) (k : Nat) (l : Load), k < 32 → s.fwOn = true → s.fw.update ≠ 4 → (s.suite k).st = 2 → (s.suite k).load = some l →
    l.phase = 0 →
    let image := s.devRead l.addr l.len
    let d := sha384 (image.take (l.len - 48))
    let t := (s.touchAll l.addr l.len).setSuite k (fun x => { x with digest := d })
    (d = image.drop (l.len - 48) →
      exec (.loadDigestDone k) s = .next (s.sameInputs ((t.applySections k (imageProgram image l.prog)).setLoad k (fun l =>
        { l with phase := 1, image := image })))) ∧
    (d ≠ image.drop (l.len - 48) →
      exec (.loadDigestDone k) s = .next (s.sameInputs ((t.setLoad k (fun l => { l with phase := 1 })).failLoad k 0x60 0xff)))

/-- A segment frame (R227): of a frame whose number, length, bytes and check are right a core of a suite under broadcast notes the segment
and keeps the bytes of the core-loaded sections for its slot and for the whole suite; any other frame is as if it had not arrived. -/
def Claims.SegmentOutcomes : Prop :=
  ∀ (s : State) (k n : Nat) (f : SegFrame) (l : Load), s.on = true → k < 32 → n < 32 → s.broadcast k n = some l →
    let good : Prop := mapBit (l.sends n) f.segment = true ∧ f.payload = segBytes l.image f.segment ∧ f.payload.length = f.length ∧
      crc32c f.payload = f.check
    let mine := (imageSections l.image).filter (fun x => x.onCores && x.forCore l.prog n)
    (good → exec (.segmentFrame k n f) s = .next (s.sameInputs (s.setCore n (fun c => { c with
      got := if c.got.contains f.segment then c.got else c.got ++ [f.segment],
      store := (mine.filterMap (fun x => x.part f.segment f.payload)).foldl (fun m e => aSet m e.1 e.2) c.store })))) ∧
    (¬ good → exec (.segmentFrame k n f) s = .next s)

/-- A report of a round, or its absence for 20 µs (R228): it counts once for each core; silence counts as every segment of the round
missing. The round ends with the last core: another round, or the end of the load. -/
def Claims.ReportOutcomes : Prop :=
  ∀ (s : State) (k n : Nat) (l : Load), s.on = true → k < 32 → n < 32 → s.broadcast k n = some l →
    let heard := fun (m : List Byte) => (s.setLoad k (fun l => { l with
      seen := l.seen ++ [n], missing := if allZero m then l.missing else aSet l.missing n m })).roundEnd k
    (l.seen.contains n = false →
      exec (.missingSegmentReport k n) s = .next (s.sameInputs (heard ((s.core n).missingSegs l.len))) ∧
      exec (.bitmapReportTimeout k n) s = .next (s.sameInputs (heard (l.sends n)))) ∧
    (l.seen.contains n = true → exec (.missingSegmentReport k n) s = .next s ∧ exec (.bitmapReportTimeout k n) s = .next s)

/-- The end of a round (R226, R229, R231): it waits until every core of the suite has been heard; with nothing missing the suite is idle;
after the eighth unicast round the cores that still miss segments are permanently faulty and the load ends with status 0x61; else one
more round begins for the cores that miss some. -/
def Claims.RoundEndOutcomes : Prop :=
  ∀ (s : State) (k : Nat) (l : Load), (s.suite k).load = some l →
    let cs := coresOf (s.suite k).mask
    let bad := cs.filter (fun n => (aGet l.missing n).isSome)
    let count := fun n => ((List.range (segCount l.len)).filter (mapBit ((aGet l.missing n).getD []))).length
    ((∃ n, n ∈ cs ∧ l.seen.contains n = false) → s.roundEnd k = s) ∧
    ((∀ n, n ∈ cs → l.seen.contains n = true) → l.missing = [] →
      (k < s.suites.length → ((s.roundEnd k).suite k).st = 3) ∧ (s.roundEnd k) = s.loaded k l) ∧
    ((∀ n, n ∈ cs → l.seen.contains n = true) → l.missing ≠ [] → l.round < 8 →
      s.roundEnd k = s.setLoad k (fun l => { l with
        round := l.round + 1, sent := l.missing, seen := l.seen.filter (fun n => (aGet l.missing n).isNone), missing := [] })) ∧
    ((∀ n, n ∈ cs → l.seen.contains n = true) → l.missing ≠ [] → 8 ≤ l.round →
      s.roundEnd k = (bad.foldl (fun (t : State) n => t.faultyCore k n (count n)) s).failLoad k 0x61
        (bad.headD 0xff))

/-- The end of a kernel (R138, R253): when every core of the suite has ended it and nothing of it is outstanding, the entry's next kernel
starts on every core, or the entry or step is done; while one core is not done, nothing happens. -/
def Claims.KernelEndOutcomes : Prop :=
  ∀ (s : State) (k : Nat) (d : Disp), k < 32 → s.firmwareActs = true → (s.suite k).st = 4 → (s.suite k).disp = some d →
    let e : Disp := { d with done := d.done + 1 }
    let t := s.setSuite k (fun x => { x with disp := some e })
    ((∀ n, n ∈ coresOf (s.suite k).mask → s.coreDone n = true) → d.kernel < d.last →
      exec (.kernelComplete k) s = .next (s.sameInputs (t.startKernel k (d.kernel + 1)))) ∧
    ((∀ n, n ∈ coresOf (s.suite k).mask → s.coreDone n = true) → d.last ≤ d.kernel →
      exec (.kernelComplete k) s = .next (s.sameInputs (t.entryDone k e))) ∧
    ((∃ n, n ∈ coresOf (s.suite k).mask ∧ s.coreDone n = false) → exec (.kernelComplete k) s = .next s)

/-! ## Tile-interface instructions -/

/-- How an engine instruction or a `q.signal` runs when it comes to an idle core: it is issued, a wait clause that is satisfied already
is taken up, and one attempt at it completes it, advances it, skips it, overruns, or leaves it in flow. -/
def Obligations.InstructionOnIdleCore : Prop :=
  ∀ (i : Instr) (s : State) (k n idx : Nat) (ti : TInstr), streamInstr i = some (n, idx, ti) → s.awaits k n idx [] = true →
    (pushesOrStores ti = true ∨ ∃ o, ti = .qSignal o) →
    let r := (s.entered n idx ti).readied k n (s.issuedAs n idx ti)
    let a := r.1.attempt k n false r.2.1
    (∀ u, a = .go true u → exec i s = .next (s.sameInputs ((u.completed n r.2.1).settleFor k n r.2.2))) ∧
    (∀ u, a = .go false u → exec i s = .next (s.sameInputs (u.settleFor k n r.2.2))) ∧
    (∀ c u, a = .skip c u → exec i s = .next (s.sameInputs ((r.1.skipped u k n r.2.1 c).settleFor k n r.2.2))) ∧
    (∀ u, a = .overrun u → exec i s = .next (s.sameInputs ((u.haltAt k 1 n idx).settleFor k n r.2.2))) ∧
    (∀ w, a = .wait w → exec i s = .next (s.sameInputs r.1)) ∧
    (a = .later → exec i s = .next (s.sameInputs r.1))

/-- The seven vector instructions `vx.map`, `vx.dw`, `vx.pool`, `vx.reduce`, `vx.boxdec`, `vx.nms` and `vx.sort` (R148 to R152, R199 to
R213) on an idle core: operands legal, extents known and within the limits, the wait clause satisfied, every entry there and space for
every output. The entries are popped in operand order, the operation is performed on them, its outputs and its record leave the core,
the sticky bits and the issue count take it up, and it completes with a handshake and its signal clause. -/
def Obligations.VectorInstructionCompletes : Prop :=
  ∀ (i : Instr) (s : State) (k n idx : Nat) (ti : TInstr) (v : VPlan), streamInstr i = some (n, idx, ti) →
    s.awaits k n idx [] = true → (s.entered n idx ti).vplan k ti = some v →
    let r := (s.entered n idx ti).readied k n (s.issuedAs n idx ti)
    ∀ (x : List Nat) (es : List Entry) (m : Made) (t : State),
      r.1.vectorCode k n v = none → extVals r.2.1.sh v.exts = some x → v.lim x = true → r.1.clauseWait r.2.1 v.cl = some [] →
      r.1.missing n [] (v.pops.map QName.idx) = [] → r.1.spaceWaits k n [] (v.outs.zip (v.size x) ++ statsDemand v.stats) = [] →
      r.1.popAll n (v.pops.map QName.idx) = .inl (es, t) → v.run x es = some m →
      let outs := r.1.withRecord k n idx 3 false (v.outs.zip m.outs) v.stats m.counts
      r.1.spaceWaits k n [] (demandOf outs) = [] →
      exec i s = .next (s.sameInputs
        (((((t.sendAll n r.2.1.no outs).commitOp n idx m.counts).handshake k).completed n r.2.1).settleFor k n r.2.2))

/-- `mx.seat` (R64) on an idle core: the weight entry is popped and the bank that it names holds its blocks afterwards, or is empty when
the instruction's N or nb is 0. -/
def Claims.SeatCompletes : Prop :=
  ∀ (s : State) (k n idx : Nat) (o : MxSeatOp), s.awaits k n idx [] = true →
    let r := (s.entered n idx (.mxSeat o)).readied k n (s.issuedAs n idx (.mxSeat o))
    ∀ (c nb : Nat) (e : Entry) (t : State), r.1.seatCode k n o = none →
      extVal r.2.1.sh o.n = some c → extVal r.2.1.sh o.nb = some nb → c ≤ 32 → nb ≤ 128 → r.1.clauseWait r.2.1 o.cl = some [] →
      r.1.missing n [] [o.w.idx] = [] → r.1.spaceWaits k n [] (statsDemand o.stats) = [] → r.1.pop n o.w.idx = some (e, t) →
      (if c = 0 ∨ nb = 0 then e.isEmpty = true else e.isBlocks o.wfmt c nb = true) →
      let u := t.sendAll n r.2.1.no (r.1.withRecord k n idx 1 false [] o.stats Counts.zero)
      let bank := if c = 0 ∨ nb = 0 then none else some (seatBank e o.wfmt c nb)
      let set := fun (a : Arr) => if o.bankB then { a with bankB := bank } else { a with bankA := bank }
      exec (.mxSeat n idx o) s = .next (s.sameInputs
        (((((u.setCore n (fun x => { x with arr := set x.arr })).commitOp n idx Counts.zero).handshake k).completed n r.2.1).settleFor
          k n r.2.2))

/-- `dr.chain` (R82) on an idle core is issued and binds to the next matrix instruction: it waits for it, and the only handshake is that
of a wait clause that is satisfied. A `dr.chain` that another one follows is skipped with reason 0x0b. -/
def Claims.ChainBinds : Prop :=
  (∀ (s : State) (k n idx : Nat) (o : DrChainOp), s.awaits k n idx [] = true →
    let r := (s.entered n idx (.drChain o)).readied k n (s.issuedAs n idx (.drChain o))
    r.1.chainCode k n o = none → exec (.drChain n idx o) s = .next (s.sameInputs r.1)) ∧
  (∀ (s : State) (k n : Nat) (i j : Issued) (o p : DrChainOp), (s.core n).seq.flow = [.work i, .work j] → i.instr = .drChain o →
    j.instr = .drChain p → i.no < j.no → s.chainCode k n o = none → s.tryChain k n i o = .skip 0x0b s)

/-- `mx.tile` (R65, R66, R83) on a core whose flow holds just its chain: with operands legal, the bank seated for its extents, the array
ramped, every entry there and space for every output, the lanes of the bank's channels against the activation rows go through the drain
operation, and the instruction and its chain complete. `FinishMatrix` says what the drain operation does. -/
def Obligations.TileCompletes : Prop :=
  ∀ (s : State) (k n idx : Nat) (o : MxTileOp) (ci : Issued) (co : DrChainOp), ci.instr = .drChain co →
    s.awaits k n idx [.work ci] = true → ci.no < (s.core n).seq.nextNo → (s.entered n idx (.mxTile o)).clauseReady ci = false →
    let r := (s.entered n idx (.mxTile o)).readied k n (s.issuedAs n idx (.mxTile o))
    ∀ (m c nb : Nat) (cw : List Nat) (b : SeatBank) (e : Entry) (t u : State), (s.entered n idx (.mxTile o)).chainCode k n co = none →
      r.1.chainCode k n co = none → r.1.tileCode k n r.2.1 o = none →
      extVals r.2.1.sh [o.m, o.n, o.nb] = some [m, c, nb] → r.1.clauseWait r.2.1 o.cl = some [] → r.1.clauseWait ci co.cl = some cw →
      m ≠ 0 → c ≠ 0 → nb ≠ 0 → m ≤ 65536 → c ≤ 32 → nb ≤ 128 →
      (if o.bankB then (r.1.core n).arr.bankB else (r.1.core n).arr.bankA) = some b → c ≤ b.n → nb ≤ b.nb →
      r.1.missing n [] [o.act.idx] = [] → r.1.spaceWaits k n [] (statsDemand o.stats) = [] → r.1.chainWaits k n ci co m c = [] →
      r.1.pop n o.act.idx = some (e, t) → e.isBlocks o.afmt m nb = true → 32 ≤ (r.1.core n).arr.rows →
      let out := tileOut (r.1.suite k).flush o.fused o.afmt e b m c nb
      t.finishMatrix k n r.2.1 o.stats o.fused ci co m c out (lastPass o.fused m c out.data) = .go true u →
      exec (.mxTile n idx o) s = .next (s.sameInputs ((u.completed n r.2.1).settleFor k n (r.2.2 + 1)))

/-- `mx.bench` (R67 to R70) on a core whose flow holds just its chain: it starts by popping its activation entry and pops, in step order,
every weight entry; the block results of all K steps, summed in the accumulator region, go through the drain operation, and the
instruction and its chain complete. `FinishMatrix` says what the drain operation does. -/
def Obligations.BenchCompletes : Prop :=
  ∀ (s : State) (k n idx : Nat) (o : MxBenchOp) (ci : Issued) (co : DrChainOp), ci.instr = .drChain co →
    s.awaits k n idx [.work ci] = true → ci.no < (s.core n).seq.nextNo → (s.entered n idx (.mxBench o)).clauseReady ci = false →
    let r := (s.entered n idx (.mxBench o)).readied k n (s.issuedAs n idx (.mxBench o))
    ∀ (m c nb : Nat) (cw : List Nat) (e : Entry) (t : State), (s.entered n idx (.mxBench o)).chainCode k n co = none →
      r.1.chainCode k n co = none → r.1.benchCode k n r.2.1 o = none →
      extVals r.2.1.sh [o.m, o.n, o.nb] = some [m, c, nb] → r.1.clauseWait r.2.1 o.cl = some [] → r.1.clauseWait ci co.cl = some cw →
      m ≠ 0 → c ≠ 0 → nb ≠ 0 → m ≤ 256 → c ≤ 1024 → nb ≤ 4096 → (o.fused = true → c ≤ 32) →
      (r.1.core n).arr.bench = none → r.1.missing n [] [o.act.idx] = [] → r.1.spaceWaits k n [] (statsDemand o.stats) = [] →
      r.1.chainWaits k n ci co m c = [] → r.1.pop n o.act.idx = some (e, t) → e.isBlocks o.afmt m nb = true →
      let b0 : BenchRun := { i := r.2.1, act := e, step := 0, bank0 := none, bank1 := none, acc := [] }
      let s2 := (t.setCore n (fun y => { y with arr := { y.arr with bench := some b0 } })).handshake k
      ∀ (w2 cw2 : List Nat) (t2 u : State) (b2 : BenchRun), s2.clauseReady ci = false → s2.clauseReady r.2.1 = false →
        s2.chainCode k n co = none → s2.benchCode k n r.2.1 o = none → s2.clauseWait r.2.1 o.cl = some w2 →
        s2.clauseWait ci co.cl = some cw2 → 32 ≤ (s2.core n).arr.rows →
        s2.popSteps n o (s2.suite k).flush m c nb b0 (benchSteps o.wfmt nb o.fused) = (t2, b2, true) →
        benchSteps o.wfmt nb o.fused ≤ b2.step →
        t2.finishMatrix k n r.2.1 o.stats o.fused ci co m c (lanesOf b2.acc) [] = .go true u →
        exec (.mxBench n idx o) s = .next (s.sameInputs ((u.completed n r.2.1).settleFor k n r.2.2))

/-- The drain operation (R83 to R106) of a matrix instruction whose lanes are ready: the chain's operands are popped, its stages run on
the lanes, the result with its scales and maxima and then both records leave the core, the scale-history slot, the counts of overruns
and repeats and the main accumulators take it up, and the chain leaves the flow with its signal. -/
def Obligations.FinishMatrix : Prop :=
  ∀ (s : State) (k n : Nat) (i : Issued) (stats : Option QName) (fused : Bool) (ci : Issued) (co : DrChainOp) (m cols : Nat) (r : Lanes)
    (main : List (List Nat)) (l : List Stage) (q : QuantRec) (es : List Entry) (t : State),
    (s.suite k).chain co.chain = some l → quantOf l = some q →
    s.popAll n ((drPops co).map QName.idx) = .inl (es, t) → drainFits l q m cols (drainIn co es) = true →
    let z := s.drain k n l q m cols r.data (drainIn co es)
    let u := t.sendAll n ci.no (s.withRecord k n ci.idx 2 false (drainOuts co m z) co.stats z.counts)
    let v := u.sendAll n i.no (s.withRecord k n i.idx 1 fused [] stats r.counts)
    s.finishMatrix k n i stats fused ci co m cols r main =
      .go true (((((v.setCore n (fun c =>
        { c with overruns := (c.overruns + z.over_) % M48, reemits := (c.reemits + z.redone) % M48,
                 arr := { (c.arr.gap s.now) with slots := c.arr.slots.set q.slot z.slot, bench := none,
                                                 main := overlay c.arr.main main } })).endChain n ci co
        z.counts).commitOp n i.idx r.counts)).handshake k)

/-- `st.walk` (R153, R178 to R181) with a queue destination on an idle core, for a walk of one entry: it starts, forms the entry from the
items of its visits, pushes it and completes. -/
def Obligations.WalkCompletes : Prop :=
  ∀ (s : State) (k n idx : Nat) (o : StWalkOp) (q : QName), o.dest = .queue q → s.awaits k n idx [] = true →
    let r := (s.entered n idx (.stWalk o)).readied k n (s.issuedAs n idx (.stWalk o))
    ∀ (p : WalkPlan) (t2 : State) (r2 : WalkRun) (e : Entry), o.unit < 4 → (r.1.core n).walks.getD o.unit none = none →
      n < r.1.cores.length → (r.1.core n).walks.length = 4 →
      r.1.walkCode k n o = none → r.1.walkPlanOf k r.2.1 o.walk o.bases = some p →
      r.1.clauseWait r.2.1 o.cl = some [] → p.total < M32 → p.total ≠ 0 → p.pass = p.total → r.1.planCode k p [] = none →
      let r1 := startRun r.2.1 o.walk p
      let t1 := r.1.setWalk n o.unit (some r1)
      t1.fetchVisits k n p r1 p.pass = (t2, r2, .none) → r2.ready = [e] → r2.visit = p.total →
      let t3 := t2.setWalk n o.unit (some r2)
      t3.free_ k n (t3.localName q) e = true →
      exec (.stWalk n idx o) s = .next (s.sameInputs
        ((((((t3.push n r2.i.no (t3.localName q) e).handshake k).setWalk n o.unit none)).completed n r.2.1).settleFor k n (r.2.2 - 2)))

/-- `st.store` (R154, R183) to memory on an idle core, for a walk of one pass: it starts, its entry is written item by item with the
walk's signals and popped, and it completes. -/
def Claims.StoreCompletes : Prop :=
  ∀ (s : State) (k n idx : Nat) (o : StStoreOp), o.ring = none → s.awaits k n idx [] = true →
    let r := (s.entered n idx (.stStore o)).readied k n (s.issuedAs n idx (.stStore o))
    ∀ (p : WalkPlan) (t2 : State) (r2 : WalkRun), o.unit < 4 → (r.1.core n).walks.getD o.unit none = none →
      n < r.1.cores.length → (r.1.core n).walks.length = 4 →
      r.1.storeCode k n o = none → r.1.walkPlanOf k r.2.1 o.walk o.bases = some p →
      r.1.clauseWait r.2.1 o.cl = some [] → p.total < M32 → p.total ≠ 0 → p.pass = p.total → r.1.planCode k p [] = none →
      let r1 := startRun r.2.1 o.walk p
      let t1 := r.1.setWalk n o.unit (some r1)
      t1.storeVisits k n o p r1 p.pass = (t2, r2, .none) → r2.visit = p.total →
      exec (.stStore n idx o) s = .next (s.sameInputs (((t2.setWalk n o.unit none).completed n r.2.1).settleFor k n (r.2.2 - 1)))

/-- One visit of a store walk whose entry stands at the head of its queue end (R178, R183): with the spans of the visit writable, the
item of the visit is written where the walk places it and the visit's signals wait for their turn. The last visit of a pass pops the
entry. -/
def Claims.StoreVisitWrites : Prop :=
  ∀ (s : State) (k n : Nat) (o : StStoreOp) (p : WalkPlan) (r : WalkRun) (e : Entry) (fuel : Nat), o.ring = none →
    r.src.or (s.head? n o.inp.idx) = some e → p.d.guards.drop r.guardAt = [] → p.takes e = true →
    s.spansOk p.d.shelf true (p.spans r.visit) = true →
    let u := ((s.writeItem p e r.visit).walkSignals n p r.i.no r.visit).handshake k
    ((r.visit + 1) % p.pass = 0 → s.storeVisits k n o p r (fuel + 1) =
      (u.dropHead n o.inp.idx, { r with visit := r.visit + 1, guardAt := 0, src := none }, .none)) ∧
    ((r.visit + 1) % p.pass ≠ 0 → s.storeVisits k n o p r (fuel + 1) =
      u.storeVisits k n o p { r with visit := r.visit + 1, guardAt := 0, src := some e } fuel)

/-- `q.wait` (R155) and `q.barrier` (R157) on an idle core with a legal flag. Issue holds at the wait until the flag satisfies the target,
and then passes it with a handshake; a barrier adds 1 to its own count of arrivals, waits for its shelf flag to reach that count times P,
and its own addition of 1 waits for its turn. -/
def Obligations.WaitAndBarrierHold : Prop :=
  (∀ (s : State) (k n idx v : Nat) (o : QWaitOp), s.awaits k n idx [] = true → s.waitCode k n o.flag = none →
    targetOk o.target = true → targetVal (s.core n).seq.sh o.target = some v →
    let held := s.setSeq n (fun q => { (q.append idx (.qWait o)) with nextNo := q.nextNo + 1, hold := some (q.nextNo, idx, o.flag, v) })
    let passed := s.setSeq n (fun q => { ((q.append idx (.qWait o)).goto (q.pc + 1)) with nextNo := q.nextNo + 1, hold := none })
    (flagMet (s.flagValue o.flag) v = false → exec (.qWait n idx o) s = .next (s.sameInputs held)) ∧
    (flagMet (s.flagValue o.flag) v = true → exec (.qWait n idx o) s = .next (s.sameInputs (passed.handshake k)))) ∧
  (∀ (s : State) (k n idx : Nat) (o : QBarrierOp), s.awaits k n idx [] = true → s.waitCode k n o.flag = none →
    isShelfFlag o.flag = true → 2 ≤ o.p → o.p ≤ 32 → (s.core n).seq.opens = [] →
    let m := (aGet (s.core n).seq.barriers idx).getD 0 + 1
    let held := (s.setSeq n (fun q => { (q.append idx (.qBarrier o)) with
      nextNo := q.nextNo + 1, barriers := aSet q.barriers idx m, hold := some (q.nextNo, idx, o.flag, m * o.p % M32) })).pendFlag n
        (s.core n).seq.nextNo o.flag 1
    (flagMet (s.flagValue o.flag) (m * o.p % M32) = false → exec (.qBarrier n idx o) s = .next (s.sameInputs held)) ∧
    (flagMet (s.flagValue o.flag) (m * o.p % M32) = true → exec (.qBarrier n idx o) s = .next (s.sameInputs
      ((held.setSeq n (fun q => { (q.goto (q.pc + 1)) with hold := none })).handshake k))))

/-- `q.signal` (R156) on an idle core with a legal flag and an increment of at most 65,535 completes: its addition waits for its turn
(R123) and nothing else changes. Legal are the core flags of the present cores of the suite and the shelf flags of the suite's range. An
illegal `q.signal` halts the suite (R235). -/
def Claims.SignalCompletes : Prop :=
  ∀ (s : State) (k n idx : Nat) (o : QSignalOp), s.awaits k n idx [] = true →
    let iss := s.issuedAs n idx (.qSignal o)
    let s1 := s.entered n idx (.qSignal o)
    (s.signalCode k o.flag = none → o.inc ≤ 65535 →
      exec (.qSignal n idx o) s = .next (s.sameInputs ((s1.pendFlag n iss.no o.flag o.inc).setSeq n (fun q => q.drop iss.no)))) ∧
    (∀ c, minCode [s.signalCode k o.flag, codeUnless (o.inc ≤ 65535) 0x01] = some c →
      exec (.qSignal n idx o) s = .next (s.sameInputs (s1.skipSequencer k n idx c))) ∧
    (∀ c l, s.signalCode k (.core c l) = none ↔
      c < 32 ∧ bit s.health.present c = true ∧ bit (s.suite k).mask c = true ∧ l < 1024) ∧
    (∀ x l, s.signalCode k (.shelf x l) = none ↔ clusterFitted s.fuses.grade x = true ∧ s.shelfFlagIn k x l = true)

/-- `ctl.loop` (R158), `ctl.guard` (R159), `ctl.commit` and `ctl.halt` (R160) on an idle core. A loop of count 0 passes over its body, and
any other opens a frame at the next position; a guard stands unresolved in flow with the values of its point in issue order; a commit
ends the innermost open region; a halt ends the kernel on the core with a handshake, and the last of a program ramps the array down. -/
def Obligations.ControlIssued : Prop :=
  (∀ (s : State) (k n idx c : Nat) (o : CtlLoopOp), s.awaits k n idx [] = true → 1 ≤ o.body → o.body ≤ 4096 →
    (s.core n).seq.frames.length < 8 → extOk o.count = true → extVal (s.core n).seq.sh o.count = some c →
    exec (.ctlLoop n idx o) s = .next (s.sameInputs (s.setSeq n (fun q => (q.append idx (.ctlLoop o)).enterLoop o (c % M32))))) ∧
  (∀ (s : State) (k n idx : Nat) (o : CtlGuardOp), s.awaits k n idx [] = true → o.sh < 16 → (s.core n).seq.opens.length < 4 →
    exec (.ctlGuard n idx o) s = .next (s.sameInputs (s.setSeq n (fun q => (q.append idx (.ctlGuard o)).enterGuard idx o)))) ∧
  (∀ (s : State) (k n idx : Nat), s.awaits k n idx [] = true →
    exec (.ctlCommit n idx) s = .next (s.sameInputs (s.setSeq n (fun q => (q.append idx .ctlCommit).enterCommit)))) ∧
  (∀ (s : State) (k n idx : Nat) (g : GuardMark), s.awaits k n idx [.guard g] = true → (s.core n).seq.nextNo ≤ g.no + 1024 →
    exec (.ctlCommit n idx) s = .next (s.sameInputs (s.setSeq n (fun q => (q.append idx .ctlCommit).enterCommit)))) ∧
  (∀ (s : State) (k n idx : Nat) (fin : Bool), s.awaits k n idx [] = true → (s.core n).seq.opens = [] →
    exec (.ctlHalt n idx fin) s = .next (s.sameInputs ((s.setCore n (fun c =>
      { c with seq := { c.seq.append idx (.ctlHalt fin) with ended := true, fin := fin, nextNo := c.seq.nextNo + 1, pc := c.seq.pc + 1 },
               arr := if fin then c.arr.windDown else c.arr })).handshake k)))

/-- `ctl.shape` (R145) on an idle core: the register's value becomes floor((v a + d - 1) / d) + c for every later instruction, v being a
dispatch word, an extent of a queue end's head, a word of a popped entry or another register; a result below 0 or above the planned
maximum is an overrun and halts the suite with cause 1. A source at a queue end makes a handshake. -/
def Obligations.ShapeCompletes : Prop :=
  ∀ (s : State) (k n idx : Nat) (o : CtlShapeOp), s.awaits k n idx [] = true → shapeOk o = true →
    let no := (s.core n).seq.nextNo
    let iss := s.issuedAs n idx (.ctlShape o)
    let s1 := s.setSeq n (fun q => (q.append idx (.ctlShape o)).enterShape idx o)
    let done := fun (u : State) (v : Nat) =>
      exec (.ctlShape n idx o) s = .next (s.sameInputs ((u.setSeq n (fun q => q.fill no (shapeResult o v).toNat)).completed n iss))
    let fits := fun (v : Nat) => 0 ≤ shapeResult o v ∧ shapeResult o v ≤ ((s.suite k).shMax o.sh : Int)
    (∀ w, o.src = .word w → fits ((s.suite k).words.getD w 0) → done s1 ((s.suite k).words.getD w 0)) ∧
    (∀ r v, o.src = .reg r → shVal (s.core n).seq.sh r = some v → fits v → done s1 v) ∧
    (∀ q x e, o.src = .extent q x → s1.popCode n q = none → s1.head? n q.idx = some e →
      fits (shapeExtent e x) → done (s1.handshake k) (shapeExtent e x)) ∧
    (∀ q w e v t, o.src = .popped q w → s1.popCode n q = none → s1.pop n q.idx = some (e, t) → shapeWord e w = some v → fits v →
      done (t.handshake k) v) ∧
    (∀ w, o.src = .word w → ¬ fits ((s.suite k).words.getD w 0) →
      exec (.ctlShape n idx o) s = .next (s.sameInputs (s1.haltAt k 1 n idx)))

/-! ## Events of running cores -/

/-- Guards (R161, R162, R164, R237). A resolved guard whose comparison holds, no enclosing guard being unresolved, commits: it leaves the
flow with the mark of its region's end, illegal instructions that this makes committed are skipped in issue order, and what stood
behind it may run. One whose comparison fails squashes: what was issued after it is discarded, a bank that a discarded seat wrote is
empty, the squashes wait to be counted until no guard before them is unresolved, and issue goes on after its region with the loops and
shape registers of the guard. -/
def Obligations.GuardOutcomes : Prop :=
  ∀ (s : State) (n g k v : Nat) (b a : List Flow) (m : GuardMark), s.on = true → n < 32 → s.runningSuite n = some k →
    splitGuard (s.core n).seq.flow g [] = some (b, m, a) → m.reg = .known v →
    (guardHolds m.cmp v m.imm = true → enclosed b = false →
      exec (.guardCommit n g) s = .next (s.sameInputs
        (let t := s.setSeq n (fun q => { q with flow := b ++ a.filter (fun f => f != .endRegion m.no) })
         (if (guardsIn b).isEmpty then t.examine k n (freed a) else t).settle k n)) ∧
      exec (.guardSquash n g) s = .next s) ∧
    (guardHolds m.cmp v m.imm = false →
      exec (.guardSquash n g) s = .next (s.sameInputs ((((s.squashSeats n b a).setCore n (fun c =>
        { c.dropSpec m.no with
          seq := { c.seq with flow := b ++ [.squashed (squashCount m.no a)], pc := m.pc + 1, frames := m.frames, sh := m.sh,
                              opens := m.opens, hold := none, skipping := some 1 } })).setSeq n Seq.passOver).settle k n)) ∧
      exec (.guardCommit n g) s = .next s)

/-- The stall watchdog (R238 to R240): a running suite whose kernel is not complete and whose stall limit has passed since its last
handshake halts with cause 2 and is in state 5; before that, in another state, or with its kernel complete, nothing happens. -/
def Claims.StallWatchdog : Prop :=
  ∀ (s : State) (k : Nat), k < 32 →
    (s.on = true → (s.suite k).st = 4 → s.kernelOver k = false → (s.suite k).stallFrom + (s.suite k).stall * 1000 ≤ s.now → k < s.suites.length →
      ∃ t : State, exec (.stallWatchdogExpiry k) s = .next (s.sameInputs t) ∧ t = s.stallHalt k ∧ (t.suite k).st = 5 ∧
        (t.suite k).cause = 2 ∧ (t.suite k).haltTime = s.now ∧ (∀ j, j ≠ k → t.suite j = s.suite j)) ∧
    ((s.suite k).st ≠ 4 ∨ s.kernelOver k = true ∨ s.now < (s.suite k).stallFrom + (s.suite k).stall * 1000 → exec (.stallWatchdogExpiry k) s = .next s)

/-- When a wait is satisfied (R121, R155): a value that has reached or passed the target in serial-number arithmetic satisfies it; the
core goes on past the instruction at which issue held, with a handshake when no guard is unresolved (R165), and one that is not
reached leaves the core as it was. A satisfied guard of a walk lets the walk go on. -/
def Claims.WaitSatisfied : Prop :=
  (∀ f v : Nat, f < 0x100000000 → v < 0x100000000 → (flagMet f v = true ↔ ((f : Int) - v) % 0x100000000 < 0x80000000)) ∧
  (∀ (s : State) (n k no idx v : Nat) (f : FlagName), s.on = true → n < 32 → s.runningSuite n = some k → (s.suite k).st = 4 →
    (s.core n).seq.hold = some (no, idx, f, v) → flagMet (s.flagValue f) v = true → (s.core n).seq.flow = [] →
    exec (.waitSatisfied n) s = .next (s.sameInputs
      ((s.setSeq n (fun q => { (q.goto (q.pc + 1)) with hold := none })).handshake k))) ∧
  (∀ (s : State) (n k no idx v : Nat) (f : FlagName), s.on = true → n < 32 → s.runningSuite n = some k →
    (s.core n).seq.hold = some (no, idx, f, v) → flagMet (s.flagValue f) v = false → (s.core n).seq.flow = [] →
    exec (.waitSatisfied n) s = .next s) ∧
  (∀ (s : State) (n e k : Nat), s.on = true → n < 32 → e < 4 → s.runningSuite n = some k →
    exec (.walkGuardSatisfied n e) s = .next (s.sameInputs (s.settle k n))) ∧
  (∀ (s : State) (n k : Nat), s.on = true → n < 32 → s.runningSuite n = some k →
    exec (.waitSatisfied n) s = .next (s.sameInputs (s.settle k n)))

/-- A flag change takes effect (R120, R123) once nothing issued before it on its core has still to push, to arrive or to store: the flag
grows by the increment modulo 2^32, with a handshake; before that nothing happens. -/
def Claims.FlagSignalOutcomes : Prop :=
  ∀ (s : State) (n j k : Nat) (p : PendFlag), s.on = true → n < 32 → s.suiteOf n = some k → (s.suite k).st = 4 →
    (s.core n).seq.flags[j]? = some p →
    (s.ordered n p.no = true →
      let t := ((s.setCore n (fun c => { c with seq := { c.seq with flags := c.seq.flags.eraseIdx j } })).addFlag p.flag p.inc).handshake k
      exec (.flagSignalEffect n j) s = .next (s.sameInputs (t.onRunning n (fun k => t.settle k n)))) ∧
    (s.ordered n p.no = false → exec (.flagSignalEffect n j) s = .next (s.sameInputs (s.onRunning n (fun k => s.settle k n)))) ∧
    (∀ c l, p.flag = .core c l → c < s.cores.length →
      (s.addFlag p.flag p.inc).flagValue p.flag = (s.flagValue p.flag + p.inc) % 2 ^ 32)

/-- An arrival (R114, R115, R117, R129): the earliest push of a producer to a queue end stands at the end of its entries and may be
popped, between kernels too; on a merge queue with a rival complete at the same moment the choice is counted. One that reaches a halted
suite is discarded and logged. Credits that pops have freed reach their producer (R116). -/
def Claims.ArrivalAndCredit : Prop :=
  (∀ (s : State) (n qi src k : Nat) (rival : Bool) (p : Push) (x : QueueEnd), s.on = true → n < 32 → src < 32 →
    s.suiteOf n = some k → s.flight.find? (fun p => p.core = n && p.qi = qi && p.src = src) = some p →
    aGet (s.core n).queues qi = some x →
    let t := ({ s with flight := s.flight.erase p } : State).setQueue n qi (fun y =>
      { y with entries := y.entries ++ [p.entry], used := y.used + p.gr })
    let u := t.setSuite k (fun y => { y with tdc := (y.tdc + 1) % M48, merged := true })
    ((s.suite k).st ≠ 5 → (x.merge = false ∨ rival = false ∨ s.rivalAt n qi src = false) →
      exec (.entryArrival n qi src rival) s = .next (s.sameInputs (t.onRunning n (fun j => t.settle j n)))) ∧
    ((s.suite k).st ≠ 5 → x.merge = true → rival = true → s.rivalAt n qi src = true →
      exec (.entryArrival n qi src rival) s = .next (s.sameInputs (u.onRunning n (fun j => u.settle j n)))) ∧
    ((s.suite k).st = 5 → exec (.entryArrival n qi src rival) s = .next (s.sameInputs
      (State.logDiscard { s with flight := s.flight.erase p } (queueWord p.core p.qi p.src) s.fab.chip)))) ∧
  (∀ (s : State) (n qi src : Nat) (x : QueueEnd) (c : Credit), s.on = true → n < 32 → src < 32 →
    aGet (s.core n).queues qi = some x → x.back.find? (fun c => c.core = src) = some c →
    let t := s.setQueue n qi (fun y =>
      { y with back := y.back.filter (fun d => d.core != src), credits := addCredit y.credits src c.n })
    exec (.creditReturn n qi src) s = .next (s.sameInputs (t.onRunning src (fun k => t.settle k src))))

/-- Multicast (R132, R133). At the lag limit a receiver that still has no room is detached: its fallback engine takes the entries it has
not accepted, and the choice is counted and logged; one that has gained room is offered the entry instead. A fallback fetch reads the
next entry of the walk as memory stands and pushes it as the source's when the receiver has space. -/
def Claims.MulticastOutcomes : Prop :=
  (∀ (s : State) (k g m i a : Nat) (x : GroupRun) (r : RecvRun) (e : Entry) (w : WalkRun), s.on = true → k < 32 → m < 32 →
    (s.suite k).st = 4 → s.group? k g = some x → x.recvOf m = some (i, r) → x.offered = some e →
    (s.core x.core).walks.getD x.engine none = some w → r.lag = some a → r.attached = true → r.accepted = false →
    a + (s.suite k).lag * 1000 ≤ s.now →
    (s.room x.core (recvName r) e = false → exec (.mcastLagExpiry k g m) s = .next (s.sameInputs (s.detach k g i x r w e))) ∧
    (s.room x.core (recvName r) e = true → exec (.mcastLagExpiry k g m) s = .next (s.sameInputs (s.offer k g)))) ∧
  (∀ (s : State) (k g m : Nat) (f : Fallback) (p : WalkPlan), s.on = true → k < 32 → m < 32 → (s.suite k).st = 4 →
    (s.core m).fallbacks.find? (fun f => f.group = g) = some f → s.runPlan k f.run = some p → p.total ≠ 0 →
    (p.visitsOf f.next).all (fun v => s.spansOk p.d.shelf false (p.spans v)) = true → f.next + 1 < f.total →
    let e := s.entryAt p f.next
    let q : QName := { chip := none, core := m, idx := f.qi }
    let t := (p.visitsOf f.next).foldl (fun t v => t.touchSpans p.d.shelf (p.spans v)) s
    (s.room f.src q e = true → exec (.fallbackFetch k g m) s = .next (s.sameInputs
      (((t.push f.src f.run.i.no q e).setCore m (fun c =>
        { c with fallbacks := c.fallbacks.map (fun x => if x.group = g then { x with next := x.next + 1 } else x) })).handshake k))) ∧
    (s.room f.src q e = false → exec (.fallbackFetch k g m) s = .next s))

/-- Cushion beats and ramps (R74, R75, R78). A beat of a young gap on a full array runs one beat of the check tile. A gap of 2 µs starts
the ramp-down, whose sixteen beat-times take two rows each from the array, and the array is idle after them. A ramp-up adds two rows at
each beat-time while matrix work waits, and the work that waited starts at 32. A check tile cut short starts anew. -/
def Claims.CushionAndRamps : Prop :=
  (∀ (s : State) (n g : Nat), s.on = true → n < 32 → (s.core n).arr.gapStart = some g →
    (s.core n).arr.mode = 3 → (s.core n).arr.rows = 32 → s.now < g + 2000 → (s.core n).arr.tileBeat < 32 →
    exec (.cushionBeat n) s = .next (s.sameInputs (s.setArr n (fun a => { a with tileBeat := a.tileBeat + 1 })))) ∧
  (∀ (s : State) (n : Nat), s.on = true → n < 32 → (s.core n).arr.mode = 4 →
    ((s.core n).arr.rows ≠ 0 → exec (.rampDown n) s = .next (s.sameInputs (s.setArr n (fun a => { a with rows := a.rows - 2 })))) ∧
    ((s.core n).arr.rows = 0 → exec (.rampDown n) s = .next (s.sameInputs (s.setArr n (fun a => { a with mode := 0 }))))) ∧
  (∀ (s : State) (n g : Nat), s.on = true → n < 32 → (s.core n).arr.mode = 3 → (s.core n).arr.gapStart = some g → g + 2000 ≤ s.now →
    (s.core n).arr.rows = 32 → exec (.rampDown n) s = .next (s.sameInputs (s.setArr n (fun a =>
      { a with rows := 30, mode := 4, gapStart := none, tileBeat := if a.tileBeat = 32 then 32 else 0 })))) ∧
  (∀ (s : State) (n k : Nat), s.on = true → n < 32 → s.runningSuite n = some k → s.matrixReady k n = true →
    let t := s.setArr n (fun a =>
      { a with rows := a.rows + 2, mode := 5, gapStart := none, tileBeat := if a.tileBeat = 32 then 32 else 0 })
    ((s.core n).arr.rows < 30 → exec (.rampUp n) s = .next (s.sameInputs t)) ∧
    ((s.core n).arr.rows = 30 → exec (.rampUp n) s = .next (s.sameInputs
      ((t.settle k n).setArr n (fun a => if a.mode = 5 then a.gap s.now else a))))) ∧
  (∀ (s : State) (n k : Nat), s.on = true → n < 32 → s.runningSuite n = some k → s.matrixReady k n = false →
    exec (.rampUp n) s = .next s)

/-- A completed check tile (R76, R77): its number and the count of tiles go on; a mismatch also records the tile with its row and raises
hardware fault 0x01 of the physical core. A tile that is not complete is not compared. -/
def Claims.CheckTileOutcomes : Prop :=
  ∀ (s : State) (n : Nat), s.on = true → n < 32 →
    let t := s.setArr n (fun a => { a with tile := (a.tile + 1) % 64, tileBeat := 0, tilesDone := (a.tilesDone + 1) % M48 })
    ((s.core n).arr.tileBeat = 32 → exec (.checkTileCompare n none) s = .next (s.sameInputs t)) ∧
    (∀ r, (s.core n).arr.tileBeat = 32 → exec (.checkTileCompare n (some r)) s = .next (s.sameInputs
      ((t.raiseFault 1 (((s.health.cores[n]?).join).getD n) 0).setArr n (fun b =>
        { b with faultTile := some ((s.core n).arr.tile, r % 32) })))) ∧
    (∀ row, (s.core n).arr.tileBeat ≠ 32 → exec (.checkTileCompare n row) s = .next s)

/-! ## Registers, the time base and the lanes -/

/-- A read of BAR0 (R13, R15, R362). The word that leaves is the register's value, 0 where the access is not an aligned 32-bit one of
BAR0; the read latches and clears what the register latches and clears and changes nothing else. A read of `ts.count_lo` latches both
other parts of the count, one of `pwr.energy_lo` the upper bits of the energy, one of `isp.port_errors` clears the port's counts and one
of `fab.lane_status` the lane's uncorrectable codewords. An access of another width reads 0 and has no effect. -/
def Claims.RegisterRead : Prop :=
  (∀ (s : State) (f o : Nat), s.on = true → f < 17 →
    ∃ t : State, exec (.latchingRead f ⟨o, 4⟩) s = .next t ∧ exec (.readClear f ⟨o, 4⟩) s = .next t ∧
      t.out.word = BitVec.ofNat 32 (s.regValue f o) ∧
      t = { s with latch := t.latch, media := { s.media with ports := t.media.ports }, fab := { s.fab with lanes := t.fab.lanes },
                   out := { s.out with word := t.out.word } } ∧
      (o % 4 ≠ 0 ∨ 0x4000000 ≤ o → s.regValue f o = 0) ∧
      (o % 4 ≠ 0 → t = { s with out := { s.out with word := 0 } }) ∧
      (o = 0x10000 → s.regValue f o = s.ts.count % M32 ∧ t.regValue f 0x10004 = s.ts.count / M32 ∧
        t.regValue f 0x10008 = s.ts.frac / 65536) ∧
      (o = 0x1000008 → s.regValue f o = s.energyMj % M32 ∧ t.regValue f 0x100000c = s.energyMj / M32) ∧
      (∀ p, p < 4 → p < s.media.ports.length → o = 0x400010 + 4 * p →
        (t.media.ports.getD p Port.reset).ecc = 0 ∧ (t.media.ports.getD p Port.reset).crc = 0) ∧
      (∀ n, n < 4 → n < s.fab.lanes.length → o = 0x600010 + 4 * n → (t.lane n).uncorr = 0)) ∧
  (∀ (s : State) (f o w : Nat), s.on = true → f < 17 → w ≠ 4 →
    exec (.latchingRead f ⟨o, w⟩) s = .next { s with out := { s.out with word := 0 } } ∧
    exec (.readClear f ⟨o, w⟩) s = .next { s with out := { s.out with word := 0 } })

/-- A write of BAR0 (R13, R14, R337). One that is not an aligned 32-bit access has no effect; a virtual function's write has none in the
blocks that it may only read; a write to a register that a command of its own describes is that command; and the probes and the words of a
mailbox without a request take their value. -/
def Claims.RegisterWrite : Prop :=
  (∀ (s : State) (f o w v : Nat), f < 17 → (o % 4 ≠ 0 ∨ 0x4000000 ≤ o ∨ w ≠ 4) → exec (.registerWrite f ⟨o, w⟩ v) s = .next s) ∧
  (∀ (s : State) (f o v : Nat), f < 17 → f ≠ 0 →
    ((0x10000 ≤ o ∧ o < 0x20000) ∨ o = 0x140000 ∨ o = 0x600000 ∨ o = 0x600100 ∨ (0x1000000 ≤ o ∧ o < 0x1100000)) →
    exec (.registerWrite f ⟨o, 4⟩ v) s = .next s) ∧
  (∀ (s : State) (f v : Nat), f < 17 →
    exec (.registerWrite f ⟨0x10010, 4⟩ v) s = exec (.tsIncrWrite f (v % M32)) s ∧
    exec (.registerWrite f ⟨0x10014, 4⟩ v) s = exec (.tsStep f (v % M32)) s ∧
    exec (.registerWrite f ⟨0x140000, 4⟩ v) s = exec (.ageLimitWrite f v) s ∧
    exec (.registerWrite f ⟨0x600000, 4⟩ v) s = exec (.laneModeWrite f v) s ∧
    (∀ x, x < 8 → exec (.registerWrite f ⟨(0x1000140 + 4 * x), 4⟩ v) s = exec (.clBoundsWrite f x (v % M32)) s)) ∧
  (∀ (s : State) (f v : Nat), s.on = true → f < 17 →
    exec (.registerWrite f ⟨0x80, 4⟩ v) s = .next (s.setFunc f (fun x => { x with tdcProbe := v % 32 })) ∧
    exec (.registerWrite f ⟨0x200000, 4⟩ v) s = .next (s.setXlt (fun x => { x with pageProbe := v % 0x1000000 })) ∧
    exec (.registerWrite f ⟨0x400100, 4⟩ v) s = .next (s.setMedia (fun m => { m with ctxProbe := v % 64 }))) ∧
  (∀ (s : State) (f p w v : Nat), s.on = true → f < 17 → p < 64 → w < 64 → v < M32 → (f = 0 ∨ pairOwner p = f) →
    ((s.pair p).reqV = false → exec (.registerWrite f ⟨(0x20000 + 0x400 * p + 4 * w), 4⟩ v) s =
      .next (s.setPair p (fun x => { x with req := putAt (padTo 256 x.req) (4 * w) (toLE 4 v) }))) ∧
    ((s.pair p).reqV = true → exec (.registerWrite f ⟨(0x20000 + 0x400 * p + 4 * w), 4⟩ v) s = .next s))

/-- The age limit and the presence registers of the memory (R302). -/
def Obligations.AgeLimitRegister : Prop :=
  (∀ (s : State) (v : Nat), s.on = true → ∃ t : State, exec (.ageLimitWrite 0 v) s = .next t ∧
    t = { s with xlt := { s.xlt with ageLimit := t.xlt.ageLimit } } ∧
    (v % 128 = 0 → t.regValue 0 0x140000 = 4) ∧ (64 < v % 128 → t.regValue 0 0x140000 = 64) ∧
    (1 ≤ v % 128 → v % 128 ≤ 64 → t.regValue 0 0x140000 = v % 128)) ∧
  (∀ (s : State) (f v : Nat), f < 17 → f ≠ 0 → exec (.ageLimitWrite f v) s = .next s) ∧
  (∀ (s : State) (f v : Nat), f < 17 → s.on = true →
    exec (.registerWrite f ⟨0x140004, 4⟩ v) s = .next s ∧ exec (.registerWrite f ⟨0x140008, 4⟩ v) s = .next s) ∧
  (∀ (s : State) (f n : Nat), n < 32 → bit (s.regValue f 0x140004) n = s.present n ∧ bit (s.regValue f 0x140008) n = s.present (n + 32)) ∧
  (∀ f, State.reset.regValue f 0x140000 = 4 ∧ State.reset.regValue f 0x140004 = 0 ∧ State.reset.regValue f 0x140008 = 0) ∧
  (∀ (s : State) (f : Nat), s.xlt.ageLimit ≤ 64 → s.regValue f 0x140000 / 128 = 0)

/-- The time base (R349 to R352). An edge of REFCLK adds the increment, the whole 2^-32 ns being kept, with a positive step at once and
half of the increment while a negative one is absorbed, so that the count never decreases; a write of the upper half sets the increment
under source 0 and has no effect under source 1, where the rate is SYNCE_IN's and the servo's correction lasts for the second after a
pulse; a step that another one in progress meets is refused; only function 0 writes; and a positive step that carries the count past
lock-group triggers misses those that the tick itself would not reach, which each member counts, and their numbers stay unused, while
one that is due fires. -/
def Claims.TimeAndSteps : Prop :=
  (∀ (s : State), s.on = true → ∃ t : State, exec (.refclkEdge none) s = .next t ∧ t = { s with ts := t.ts, media := t.media } ∧
    (s.ts.stepAdd = 0 → t.media = s.media) ∧
    (s.ts.stepping = false → s.ts.frac < M32 →
      t.ts.count = (s.ts.count + s.ts.stepAdd + (s.ts.frac + s.ts.rate) / M32) % 0x10000000000000000 ∧ t.ts.frac = (s.ts.frac + s.ts.rate) % M32 ∧
        t.ts.stepAdd = 0) ∧
    (s.ts.stepping = true → s.ts.rate - s.ts.rate / 2 ≤ s.ts.absorb → s.ts.frac < M32 → s.ts.stepAdd = 0 →
      t.ts.count = (s.ts.count + (s.ts.frac + s.ts.rate / 2) / M32) % 0x10000000000000000 ∧ t.ts.frac = (s.ts.frac + s.ts.rate / 2) % M32 ∧
        t.ts.absorb = s.ts.absorb - (s.ts.rate - s.ts.rate / 2)) ∧
    (s.ts.count + s.ts.stepAdd + (s.ts.frac + s.ts.rate) / M32 < 0x10000000000000000 → s.ts.count ≤ t.ts.count)) ∧
  (∀ (s : State) (c n : Nat) (g : LockGroup) (x : Ctx), s.on = true → s.ts.stepAdd ≠ 0 → s.ts.stepping = false → s.ts.frac < M32 →
    s.ts.count + s.ts.stepAdd + (s.ts.frac + s.ts.rate) / M32 < 0x10000000000000000 → 0 < g.period →
    aGet s.media.groups n = some g → s.ctx? c = some x → x.group = some n → x.live = true →
    let before := s.ts.count + (s.ts.frac + s.ts.rate) / M32
    (∀ e ∈ s.media.groups, before < e.2.t e.2.next / lockUnit) →
    ∃ t : State, exec (.refclkEdge none) s = .next t ∧ ∃ k, g.next ≤ k ∧
      aGet t.media.groups n = some { g with next := k } ∧ t.ctx? c = some { x with missed := min (x.missed + (k - g.next)) 0xffffffff } ∧
      t.ts.count ≤ g.t k / lockUnit ∧ ∀ j, g.next ≤ j → j < k → g.t j / lockUnit < t.ts.count) ∧
  (∀ (s : State) (n : Nat) (g : LockGroup), s.on = true → s.ts.stepAdd ≠ 0 → s.ts.stepping = false → s.ts.frac < M32 →
    s.ts.count + s.ts.stepAdd + (s.ts.frac + s.ts.rate) / M32 < 0x10000000000000000 → 0 < g.period → s.media.groups = [(n, g)] →
    let before := s.ts.count + (s.ts.frac + s.ts.rate) / M32
    g.t g.next / lockUnit ≤ before → before < g.t (g.next + 1) / lockUnit →
    ∃ t : State, exec (.refclkEdge none) s = .next t ∧ ∃ k, g.next < k ∧
      t.media.groups = [(n, { g with next := k, high := some (g.t g.next / lockUnit + g.pulse) })] ∧
      t.ts.count ≤ g.t k / lockUnit ∧ ∀ j, g.next ≤ j → j < k → g.t j / lockUnit < t.ts.count) ∧
  (∀ (s : State) (i f : Nat), s.on = true → s.ts.source = 1 → s.ts.stepping = false →
    ∃ t : State, exec (.refclkEdge (some (i, f))) s = .next t ∧ t.ts.synce = true ∧ t.ts.measured = i * M32 + f ∧
      (∀ a, s.ts.ppsLast = some a → s.ts.count < a + 1000000000 → t.ts.count =
        (s.ts.count + s.ts.stepAdd + (s.ts.frac + ((i * M32 + f : Nat) + s.ts.ppsAdj : Int).toNat) / M32) % 0x10000000000000000) ∧
      ((∀ a, s.ts.ppsLast = some a → a + 1000000000 ≤ s.ts.count) →
        t.ts.count = (s.ts.count + s.ts.stepAdd + (s.ts.frac + (i * M32 + f)) / M32) % 0x10000000000000000)) ∧
  (∀ (s : State) (v : Nat), s.on = true →
    (s.ts.source ≠ 1 → exec (.tsIncrWrite 0 v) s =
      .next (s.setTs (fun t => { t with incInt := v % 256, inc := v % 256 * M32 + t.shadow }))) ∧
    (s.ts.source = 1 → exec (.tsIncrWrite 0 v) s = .next s)) ∧
  (∀ (s : State) (v : Nat), s.on = true → v < M32 →
    (s.ts.stepping = false → v ≤ 1000000000 → exec (.tsStep 0 v) s = .next (s.setTs (fun t => { t with stepAdd := t.stepAdd + v }))) ∧
    (s.ts.stepping = false → M32 - 1000000000 ≤ v →
      exec (.tsStep 0 v) s = .next (s.setTs (fun t => { t with absorb := (M32 - v) * M32, stepping := true }))) ∧
    (s.ts.stepping = true → (v ≤ 1000000000 ∨ M32 - 1000000000 ≤ v) →
      exec (.tsStep 0 v) s = .next (s.setTs (fun t => { t with refused := true })))) ∧
  (∀ (s : State) (f v : Nat), f < 17 → f ≠ 0 → exec (.tsIncrWrite f v) s = .next s ∧ exec (.tsStep f v) s = .next s) ∧
  (∀ s : State, s.on = true →
    (s.ts.absorb = 0 → exec .tsStepAbsorbed s = .next (s.setTs (fun t => { t with stepping := false }))) ∧
    (s.ts.absorb ≠ 0 → exec .tsStepAbsorbed s = .next s))

/-- The pulse servo and PPS_OUT (R352). A pulse that the enabled servo meets records its difference from the nearest whole second; above
1 µs it is corrected by one step, below by a rate, which the spec leaves open (log entry 14); three differences within ±50 ns in
sequence lock it; without a pulse for 1.1 s it goes into holdover; and PPS_OUT is high for 100 µs from each whole second of the count. -/
def Claims.PulseServo : Prop :=
  (∀ s : State, s.on = true → s.ts.servoOn = false → exec .ppsInEdge s = .next s) ∧
  (∀ s : State, s.on = true → s.ts.servoOn = true → ∃ t : State, exec .ppsInEdge s = .next t ∧ t = { s with ts := t.ts } ∧
    t.ts.ppsError = secondError s.ts.count ∧ (t.ts.count, t.ts.frac, t.ts.inc) = (s.ts.count, s.ts.frac, s.ts.inc) ∧
    t.ts.holdover = false ∧
    (t.ts.locked = true ↔ -50 ≤ secondError s.ts.count ∧ secondError s.ts.count ≤ 50 ∧ 2 ≤ s.ts.ppsGood) ∧
    (secondError s.ts.count < -1000 → s.ts.stepping = false →
      t.ts.stepAdd = s.ts.stepAdd + (-secondError s.ts.count).toNat ∧ t.ts.ppsAdj = s.ts.ppsAdj) ∧
    (1000 < secondError s.ts.count → s.ts.stepping = false →
      t.ts.absorb = (secondError s.ts.count).toNat * M32 ∧ t.ts.stepping = true ∧ t.ts.ppsAdj = s.ts.ppsAdj) ∧
    (-1000 ≤ secondError s.ts.count → secondError s.ts.count ≤ 1000 →
      t.ts.ppsAdj = Config.servoRate (secondError s.ts.count) ∧ t.ts.stepAdd = s.ts.stepAdd ∧ t.ts.stepping = s.ts.stepping)) ∧
  (∀ (s : State) (a : Nat), s.on = true → s.ts.ppsLast = some a → s.ts.servoOn = true →
    (a + 1100000000 ≤ s.ts.count →
      exec .ppsHoldover s = .next (s.setTs (fun t => { t with holdover := true, locked := false, ppsGood := 0 }))) ∧
    (s.ts.count < a + 1100000000 → exec .ppsHoldover s = .next s)) ∧
  (∀ s : State, s.on = true → s.ts.ppsOutOn = true → s.ts.count % 1000000000 < 100000 →
    ∃ t : State, exec .ppsOut s = .next t ∧ t = { s with ts := { s.ts with ppsHigh := t.ts.ppsHigh } } ∧
      (∀ d, s.ts.count % 1000000000 + d < 100000 → ({ t.ts with count := s.ts.count + d } : TimeBase).ppsPin = true) ∧
      (∀ d, s.ts.count % 1000000000 + d = 100000 → ({ t.ts with count := s.ts.count + d } : TimeBase).ppsPin = false)) ∧
  (∀ s : State, s.on = true → s.ts.ppsOutOn = false → exec .ppsOut s = .next s)

/-- Lane modes, lanes and supply bounds. A write of `fab.lane_mode` that would change a used pair sets `refused` and nothing else, one that
changes none but unused pairs sets the mode, and its changed lanes train again (R344, R363); a far-end count of at most 1,000 errors brings
a lane up with its crossing aligned to depth 6 (R277) and the third failure leaves it down with a log entry (R410); a loss of FEC lock
counts the uncorrectable codewords, and the third within 1 s takes a lane down with a log entry (R363, R428); and `pwr.cl_bounds` takes both
fields rounded down to 10 mV and clamped, none when the floor lies above the ceiling (R405). -/
def Claims.LanesAndBounds : Prop :=
  (∀ (s : State) (v : Nat), s.on = true → v < 32 →
    ((∃ p, p < 2 ∧ changesPair s.fab.mode v p = true ∧ s.pairUsed p = true) →
      exec (.laneModeWrite 0 v) s = .next (s.setFab (fun f => { f with refused := true }))) ∧
    ((∀ p, p < 2 → changesPair s.fab.mode v p = true → s.pairUsed p = false) →
      ∃ t : State, exec (.laneModeWrite 0 v) s = .next t ∧ t = { s with fab := { s.fab with mode := v, lanes := t.fab.lanes } } ∧
        (∀ n, n < 4 → n < s.fab.lanes.length →
          (changesPair s.fab.mode v (n / 2) = true → (t.lane n).up = false ∧ (t.lane n).depth = 0) ∧
          (changesPair s.fab.mode v (n / 2) = false → t.lane n = s.lane n)))) ∧
  (∀ (s : State) (f v : Nat), f < 17 → f ≠ 0 → exec (.laneModeWrite f v) s = .next s) ∧
  (∀ (s : State) (n e : Nat), s.on = true → n < 4 → pairMode s.fab.mode (n / 2) ≠ 0 → (s.lane n).present = true →
    (s.lane n).retired = false → (s.lane n).up = false → (s.lane n).fails < 3 →
    (e ≤ 1000 → exec (.laneFarEndCheck n e) s = .next (s.setLane n (fun l => { l with up := true, fails := 0, depth := 6 }))) ∧
    (1000 < e → (s.lane n).fails < 2 →
      exec (.laneFarEndCheck n e) s = .next (s.setLane n (fun l => { l with fails := l.fails + 1 }))) ∧
    (1000 < e → (s.lane n).fails = 2 → exec (.laneFarEndCheck n e) s =
      .next (s.sameInputs ((s.setLane n (fun l => { l with fails := l.fails + 1 })).logE 0x0042 0 0xff 0xff 4 n e 0 0)))) ∧
  (∀ (s : State) (n c : Nat), s.on = true → n < 4 → (s.lane n).up = true →
    (∀ a b, (s.lane n).losses = [a, b] → s.now ≤ a + 1000000000 → exec (.fecLockLoss ⟨n, c⟩) s = .next (s.sameInputs
      ((s.setLane n (fun l => { l with up := false, losses := [], fails := 3, depth := 0, uncorr := min (l.uncorr + c) 0xffff })).logE
        0x0042 0 0xff 0xff 4 n 0 0 0))) ∧
    ((s.lane n).losses.length < 2 → exec (.fecLockLoss ⟨n, c⟩) s = .next (s.setLane n (fun l =>
      { l with up := false, losses := (s.lane n).losses ++ [s.now], fails := 0, depth := 0, uncorr := min (l.uncorr + c) 0xffff })))) ∧
  (∀ (s : State) (x v : Nat), s.on = true → x < 8 →
    (floor10 (bits v 9 0) ≤ floor10 (bits v 25 16) → ∃ lo hi, exec (.clBoundsWrite 0 x v) s =
      .next (s.setCluster x (fun c => { c with floor := lo, ceil := hi })) ∧ 600 ≤ lo ∧ lo ≤ hi ∧ hi ≤ 850 ∧ lo % 10 = 0 ∧ hi % 10 = 0 ∧
        (600 ≤ bits v 9 0 → bits v 9 0 ≤ 850 → lo = floor10 (bits v 9 0)) ∧
        (600 ≤ bits v 25 16 → bits v 25 16 ≤ 850 → hi = floor10 (bits v 25 16))) ∧
    (floor10 (bits v 25 16) < floor10 (bits v 9 0) → exec (.clBoundsWrite 0 x v) s = .next s)) ∧
  (∀ (s : State) (f x v : Nat), f < 17 → x < 8 → f ≠ 0 → exec (.clBoundsWrite f x v) s = .next s)

/-! ## Device space and memory -/

/-- The byte maps that hold HBM, the shelves, host memory and the flash: a write keeps the canonical form, a read after a write gives the
written byte at its address and what it gave before anywhere else, and equal contents are equal data. -/
def Obligations.MemoryLaws : Prop :=
  (∀ (d : Byte) (m : Mem) (a : Nat) (b : Byte), Mem.wf d m = true → Mem.wf d (memPut d m a b) = true) ∧
  (∀ (d : Byte) (m : Mem) (a x : Nat) (b : Byte), Mem.wf d m = true →
    memGet d (memPut d m a b) x = if x = a then b else memGet d m x) ∧
  (∀ (d : Byte) (m : Mem) (a x : Nat) (l : List Byte), Mem.wf d m = true →
    Mem.wf d (memWrite d m a l) = true ∧
    memGet d (memWrite d m a l) x = if a ≤ x ∧ x < a + l.length then l.getD (x - a) 0 else memGet d m x) ∧
  (∀ (d : Byte) (m n : Mem), Mem.wf d m = true → Mem.wf d n = true → (∀ x, memGet d m x = memGet d n x) → m = n)

/-- The window message (R286). The checks in their order give the statuses 0x24 (a sender that may not), 0x25 (the window exists, or does
not), 0x26 (an overlap), 0x27 (a set-up ring in the window) and 0x28 (fields out of range); a request that passes them creates the
window or deletes it and changes nothing else, or replaces its suite mask as a table change takes effect: its pages leave the cache and
the answer waits for the drain of R291. -/
def Claims.WindowOutcomes : Prop :=
  ∀ (s : State) (p : Nat) (r : Req), s.accepts p 0x0015 r = true →
    let b := r.body
    let n := fld b 2 2
    let old := aGet s.xlt.windows n
    let refused := fun (c : Instr) (st : Nat) => exec c s = .next (s.sameInputs ((s.accepted r).answer r st []))
    (byteAt b 0 = 0 →
      let clash := s.xlt.windows.any (fun w => overlapN w.2.first w.2.count (fld b 4 4) (fld b 8 4) != 0)
      let w : Window := { first := fld b 4 4, count := fld b 8 4, owner := byteAt b 12, mask := fld b 16 4 }
      (1023 < n → refused (.windowCreate p) 0x28) ∧
      (n ≤ 1023 → r.fn ≠ 0 → refused (.windowCreate p) 0x24) ∧
      (n ≤ 1023 → r.fn = 0 → old.isSome = true → refused (.windowCreate p) 0x25) ∧
      (n ≤ 1023 → r.fn = 0 → old = none → clash = true → refused (.windowCreate p) 0x26) ∧
      (n ≤ 1023 → r.fn = 0 → old = none → clash = false → windowRange 0 b = false → refused (.windowCreate p) 0x28) ∧
      (n ≤ 1023 → r.fn = 0 → old = none → clash = false → windowRange 0 b = true →
        exec (.windowCreate p) s = .next (s.sameInputs
          (((s.accepted r).setXlt (fun x => { x with windows := aSet x.windows n w })).answer r 0 [])))) ∧
    (byteAt b 0 = 1 → n ≤ 1023 →
      (r.fn ≠ 0 → refused (.windowDelete p) 0x24) ∧
      (r.fn = 0 → old = none → refused (.windowDelete p) 0x25) ∧
      (∀ w, r.fn = 0 → old = some w → s.windowHasRing w = true → refused (.windowDelete p) 0x27) ∧
      (∀ w, r.fn = 0 → old = some w → s.windowHasRing w = false → windowRange 1 b = true →
        exec (.windowDelete p) s = .next (s.sameInputs
          (((s.accepted r).setXlt (fun x => { x with windows := aErase x.windows n })).answer r 0 [])))) ∧
    (byteAt b 0 = 2 → n ≤ 1023 →
      (∀ w, old = some w → w.owner ≠ r.fn → refused (.windowSetSuiteMask p) 0x24) ∧
      (old = none → refused (.windowSetSuiteMask p) 0x25) ∧
      (∀ w, old = some w → w.owner = r.fn → windowRange 2 b = true →
        let pages := (List.range w.count).map (· + w.first)
        exec (.windowSetSuiteMask p) s = .next (s.sameInputs
          ((((s.accepted r).setXlt (fun x => { x with windows := aMod x.windows n (fun w => { w with mask := fld b 16 4 }) })).uncache
            pages).setXlt (fun x => { x with drains := x.drains ++
              [{ pair := r.pair, at_ := s.now, old := pages.map (fun v => (v, s.xentry v)) }] })))))

/-- The map message (R289 to R291). Fields out of range are answered 0x23 and the first entry that fails a check gives its status with
its index, both without effect; else every page of the range has its new entry and every other page its old one, a frame that another
function mapped last reads zeros, the pages leave the cache, and the answer waits until the drain is complete: until then the entries
that the change replaced are kept, and no controller that holds a request which one of them translated lets the drain end. -/
def Claims.MapOutcomes : Prop :=
  (∀ (s : State) (p : Nat) (r : Req), s.accepts p 0x0018 r = true →
    let b := r.body
    let v := fld b 0 4
    let n := fld b 4 4
    let op := byteAt b 16
    let good : Prop := op ≤ 1 ∧ v < 0x1000000 ∧ 1 ≤ n ∧ v + n ≤ 0x1000000 ∧ fld b 17 7 = 0 ∧
      (op = 0 → s.fnReads r.fn (fld b 8 8) (8 * n) = true)
    let words := if op = 0 then (List.range n).map (fun i => leNat (s.devRead (fld b 8 8 + 8 * i) 8)) else []
    (¬ good → exec (.map p) s = .next (s.sameInputs ((s.accepted r).answer r 0x23 (toLE 4 0)))) ∧
    (∀ st i, good → s.mapChecks r.fn v n words = some (st, i) →
      exec (.map p) s = .next (s.sameInputs ((s.accepted r).answer r st (toLE 4 i)))) ∧
    (good → s.mapChecks r.fn v n words = none → ∃ t : State, exec (.map p) s = .next t ∧
      t = { s with pairs := t.pairs, xlt := t.xlt, chans := t.chans, hbm := t.hbm, free := t.free } ∧
      t.pairs = (s.accepted r).pairs ∧ t.xlt.windows = s.xlt.windows ∧
      t.xlt.drains = s.xlt.drains ++ [{ pair := p, at_ := s.now, old := (List.range n).map (fun i => (i + v, s.xentry (i + v))) }] ∧
      (∀ q, v ≤ q → q < v + n →
        t.xentry q = (if op = 0 then parseXEntry (words.getD (q - v) 0) else .invalid 0) ∧ t.cached q = false) ∧
      (∀ q, (q < v ∨ v + n ≤ q) → t.xentry q = s.xentry q) ∧
      (∀ i g c w x, i < n → op = 0 → parseXEntry (words.getD i 0) = .hbm g c w → aGet s.xlt.owners (frameKey c g) ≠ some r.fn →
        x < 4096 → t.hbmGet (frameKey c g * 4096 + x) = 0))) ∧
  (∀ (s : State) (p : Nat), p < 64 → s.firmwareActs = true →
    (s.xlt.drains.any (fun d => d.pair = p) = true → (∀ d ∈ s.xlt.drains, d.pair = p → s.drained d = true) →
      exec (.translationDrainComplete p) s = .next (s.sameInputs
      ((s.setXlt (fun x => { x with drains := x.drains.filter (fun d => d.pair != p) })).answerLate p 0
        (if (parseReq p (s.pair p).asked).type = 0x0018 then toLE 4 0 else [])))) ∧
    (∀ d ∈ s.xlt.drains, d.pair = p → s.drained d = false → exec (.translationDrainComplete p) s = .next s) ∧
    (s.xlt.drains.any (fun d => d.pair = p) = false → exec (.translationDrainComplete p) s = .next s)) ∧
  (∀ (s : State) (d : Drain) (v f c : Nat) (w : Bool) (r : ReadReq), (v, .hbm f c w) ∈ d.old → f < 196608 → r ∈ (s.chan c).rq →
    r.sector / 64 = f → r.at_ ≤ d.at_ → s.drained d = false) ∧
  (∀ (e : XEntry), (∀ l, e ≠ .invalid l) → (∀ f c w, e = .hbm f c w → f < 0x40000 ∧ c < 64) →
    (∀ p f w, e = .host p f w → p < 0x10000000000000 ∧ f < 32) → parseXEntry e.bits = e)

/-- Host accesses through BAR2 (R287, R295, R335). A read returns the bytes of the pages that the function may reach and zeros of the
others, and one that stays uncorrectable completes with Completer Abort; a write changes bytes of reachable pages only, and a byte
written is read back; neither changes host memory or a shelf; and without a way to the BAR, or beyond its size, neither is an event. -/
def Claims.Bar2Access : Prop :=
  (∀ (s : State) (f a n : Nat), s.on = true → f < 17 → a + n ≤ 0x1000000000 → s.bar2Open f a n = true →
    ∃ t : State, exec (.bar2Read f a ⟨n, .ok⟩) s = .next t ∧ t.out.data.length = n ∧ t.out.abort = false ∧
      (∀ i, i < n → t.out.data.getD i 0 = if s.bar2Page f ((a + i) / 4096) false = true then s.devGet (a + i) else 0) ∧
      t = { s with xlt := { s.xlt with cache := t.xlt.cache, misses := t.xlt.misses }, log := t.log, out := t.out, funcs := t.funcs,
                   free := t.free }) ∧
  (∀ (s : State) (f a n : Nat) (o : MemOutcome), s.on = true → f < 17 → a + n ≤ 0x1000000000 → s.bar2Open f a n = true →
    s.bar2Frame f a n ≠ none → outcomeData o false = false →
    ∃ t : State, exec (.bar2Read f a ⟨n, o⟩) s = .next t ∧ t.out.data = [] ∧ t.out.abort = true) ∧
  (∀ (s : State) (f a : Nat) (l : List Byte), s.on = true → f < 17 → a + l.length ≤ 0x1000000000 → s.bar2Open f a l.length = true →
    ∃ t : State, exec (.bar2Write f a l) s = .next t ∧
      t = { s with xlt := { s.xlt with cache := t.xlt.cache, misses := t.xlt.misses }, chans := t.chans, hbm := t.hbm, log := t.log,
                   out := t.out, funcs := t.funcs, free := t.free } ∧
      ((∀ i, i < l.length → s.bar2Page f ((a + i) / 4096) true = false) → t.hbm = s.hbm ∧ t.chans = s.chans) ∧
      (∀ b, l = [b] → s.bar2Page f (a / 4096) true = true → Mem.wf hbmDefault s.hbm = true → t.devGet a = b)) ∧
  (∀ (s : State) (f a n : Nat) (o : MemOutcome) (l : List Byte), f < 17 →
    (s.bar2Open f a n = false → exec (.bar2Read f a ⟨n, o⟩) s = .next s) ∧
    (s.bar2Open f a l.length = false → exec (.bar2Write f a l) s = .next s)) ∧
  (∀ (s : State) (f a n : Nat), s.fw.hostRun = false → 2 ^ (s.func f).bar2 < a + n → s.bar2Open f a n = false)

/-- A memory request (R285, R292). A page whose entry is not cached is looked up first: the miss is counted, its sector of the table is
read in the request's class, and its entry is cached. A write that its controller's queue takes is what every later read of its sector
sees, byte by byte of its mask, and no other sector changes; a request that meets a full queue waits outside it; a read whose sector is
queued whole is answered from the queue, and another one enters the queue of reads, held when a write of part of its sector is queued. -/
def Claims.MemoryRequest : Prop :=
  ∀ (s : State) (r : MemReq) (f p : Nat) (w : Bool), s.on = true → r.addr < 0x1000000000 → r.cls < 4 →
    s.xentry (r.addr / 4096) = .hbm f p w → s.present p = true → f < 196608 →
    let sector := f * 64 + r.addr % 4096 / 64
    let base := frameKey p f * 4096 + r.addr % 4096 / 64 * 64
    let u := s.lookUp r
    let c := u.chan p
    let table := s.tableSector (r.addr / 4096)
    (s.cached (r.addr / 4096) = true → u = s) ∧
    (s.cached (r.addr / 4096) = false → u.xlt.misses = (s.xlt.misses + 1) % M48 ∧ u.cached (r.addr / 4096) = true ∧
      (s.present table.1 = true → queuedWrite (s.chan table.1) table.2 = none → (s.chan table.1).rq.length < 128 →
        (u.chan table.1).rq = (s.chan table.1).rq ++ [{ who := .table, sector := table.2, cls := r.cls, at_ := s.now, spec := r.spec,
                                                        aged := false, held := false }])) ∧
    (r.write = true → w = true → (c.wq.length < 64 ∨ (queuedWrite c sector).isSome = true) →
      ∃ t : State, exec (.memRequest r) s = .next t ∧ t = { u with chans := t.chans } ∧
        (∀ i, i < 64 → t.hbmGet (base + i) = if bit r.mask i = true then (padTo 64 r.data).getD i 0 else s.hbmGet (base + i)) ∧
        (∀ k, (k < base ∨ base + 64 ≤ k) → t.hbmGet k = s.hbmGet k)) ∧
    (r.write = true → w = true → 64 ≤ c.wq.length → queuedWrite c sector = none →
      exec (.memRequest r) s = .next (u.setChan p (fun c => { c with waiting := c.waiting ++
        [{ write := true, who := .hub, sector := sector, cls := r.cls, mask := r.mask % 0x10000000000000000, data := padTo 64 r.data,
           spec := false }] }))) ∧
    (r.write = true → w = false → exec (.memRequest r) s = .next u) ∧
    (∀ q, r.write = false → queuedWrite c sector = some q → q.mask = 0xffffffffffffffff →
      exec (.memRequest r) s = .next (u.setOut (fun o => { o with data := q.data }))) ∧
    (r.write = false → (∀ q, queuedWrite c sector = some q → q.mask ≠ 0xffffffffffffffff) → c.rq.length < 128 →
      exec (.memRequest r) s = .next (u.setChan p (fun d => { d with
        rq := d.rq ++ [{ who := r.who, sector := sector, cls := r.cls, at_ := s.now, spec := r.spec, aged := false,
                         held := (queuedWrite c sector).isSome }] }))) ∧
    (r.write = false → queuedWrite c sector = none → 128 ≤ c.rq.length →
      exec (.memRequest r) s = .next (u.setChan p (fun d => { d with waiting := d.waiting ++
        [{ write := false, who := r.who, sector := sector, cls := r.cls, mask := 0, data := [], spec := r.spec }] })))

/-- The controller (R292, R293). The request that it performs is a candidate that no other one precedes: promoted ones first by age, then
by class, open row and age. A read that a queued partial write holds is no candidate. A performed read returns the stack's bytes, which
are what every read of the sector sees unless a later write is queued; a performed write leaves its bytes in the stack, so that no byte
reads otherwise, and holds no read any longer. A request that a full queue held enters as soon as there is room. A channel that is
absent or not trained performs nothing. -/
def Claims.MemorySchedule : Prop :=
  (∀ (l : List SchedCand) (k : SchedCand), firstSched l = some k → k ∈ l ∧ ∀ x, x ∈ l → x.before k = false) ∧
  (∀ (s : State) (p : Nat) (o : MemOutcome), p < 64 → (s.present p = false ∨ (s.chan p).trained = false) →
    exec (.memSchedule p o) s = .next s) ∧
  (∀ (s : State) (p : Nat) (k : SchedCand), s.on = true → s.present p = true → (s.chan p).trained = true →
    firstSched ((s.promote p).chan p).candidates = some k → k.sector < 12582912 → Mem.wf hbmDefault s.hbm = true →
    (k.write = false → (s.chan p).waiting = [] → ∃ t : State, exec (.memSchedule p .ok) s = .next t ∧ t.hbm = s.hbm ∧
      ((∀ q ∈ (s.chan p).rq, q.sector = k.sector → q.who ≠ .table) → t.out.abort = false ∧
        t.out.data = (List.range 64).map (fun i => memGet hbmDefault s.hbm ((p * 12582912 + k.sector) * 64 + i)) ∧
        (queuedWrite (s.chan p) k.sector = none →
          t.out.data = (List.range 64).map (fun i => s.hbmGet ((p * 12582912 + k.sector) * 64 + i)))) ∧
      (t.chan p).rq.length + 1 = (s.chan p).rq.length ∧ (∀ x, t.hbmGet x = s.hbmGet x)) ∧
    (k.write = true → (s.chan p).waiting = [] → ∃ t : State, exec (.memSchedule p .ok) s = .next t ∧
      (t.chan p).rq.length = (s.chan p).rq.length ∧ queuedWrite (t.chan p) k.sector = none ∧ (∀ x, t.hbmGet x = s.hbmGet x)) ∧
    (∀ h, k.write = false → (s.chan p).waiting = [h] → h.write = false → queuedWrite (s.chan p) h.sector = none →
      (s.chan p).rq.length ≤ 128 → ∃ t : State, exec (.memSchedule p .ok) s = .next t ∧ (t.chan p).waiting = [] ∧
        ∃ q ∈ (t.chan p).rq, q.sector = h.sector ∧ q.who = h.who ∧ q.cls = h.cls ∧ q.at_ = s.now)) ∧
  (∀ (c : Chan) (k : SchedCand), k ∈ c.candidates → k.write = false →
    ∃ q, q ∈ c.rq ∧ k.sector = q.sector ∧ k.at_ = q.at_ ∧ (q.held = false ∨ queuedWrite c q.sector = none))

/-- Ageing, refresh and stack readings (R293, R294). A promotion marks every request over the age limit and counts each once; a refresh
whose instant has come closes every row and sets the next instant by the interval in force; a reading above 85 °C halves that
interval, and one of 80 °C or below restores it. -/
def Claims.RefreshAndAge : Prop :=
  (∀ (s : State) (p : Nat), s.on = true → s.present p = true → ∃ t : State, exec (.agePromotion p) s = .next t ∧
    t = { s with chans := t.chans } ∧
    (∀ r, r ∈ (t.chan p).rq → s.now > r.at_ + 1000 * s.xlt.ageLimit → r.aged = true) ∧
    (∀ w, w ∈ (t.chan p).wq → s.now > w.at_ + 1000 * s.xlt.ageLimit → w.aged = true) ∧
    (∀ q, q ≠ p → t.chan q = s.chan q) ∧
    ((∀ r, r ∈ (s.chan p).rq → s.overAge r.at_ = true → r.aged = true) →
      (∀ w, w ∈ (s.chan p).wq → s.overAge w.at_ = true → w.aged = true) → (s.chan p).promoted < M48 →
      (t.chan p).promoted = (s.chan p).promoted)) ∧
  (∀ (s : State) (p : Nat), p < 64 → s.present p = false → exec (.agePromotion p) s = .next s ∧ exec (.refresh p) s = .next s) ∧
  (∀ (s : State) (p : Nat), s.on = true → s.present p = true → (s.chan p).trained = true →
    ((s.chan p).nextRef ≤ 16 * s.now → exec (.refresh p) s = .next (s.setChan p (fun c => { c with
      openRow := [], nextRef := c.nextRef + (if s.xlt.stackFast.getD (p / 32) false = true then 31200 else 62400) }))) ∧
    (16 * s.now < (s.chan p).nextRef → exec (.refresh p) s = .next s)) ∧
  (∀ (s : State) (k : Nat) (c : Int), s.on = true → k < 2 → 32 * k < s.n0 → k < s.xlt.stackTemp.length → k < s.xlt.stackFast.length →
    ∃ t : State, exec (.stackTempRead k c) s = .next t ∧
      t = { s with xlt := { s.xlt with stackTemp := s.xlt.stackTemp.set k c, stackFast := t.xlt.stackFast } } ∧
      (85 < c → t.xlt.stackFast.getD k false = true) ∧ (c ≤ 80 → t.xlt.stackFast.getD k false = false) ∧
      (80 < c → c ≤ 85 → t.xlt.stackFast = s.xlt.stackFast)) ∧
  (∀ (s : State) (k : Nat) (c : Int), k < 2 → s.n0 ≤ 32 * k → exec (.stackTempRead k c) s = .next s)

/-! ## Cameras and codecs -/

/-- Contexts (R305, R307, R308, R382). A setup whose checks fail is answered with the status of the first failing check; one that passes
them makes the context in state 1 on the lowest free slot of its pipeline that passes its march test, or in state 4 with none, and binds its
rings; a port that it enables locks with its crossing aligned to depth 4 (R277), or is retired with its contexts in state 4 where its lanes
fail to lock. A parameter message replaces the block from the next frame on, and a stop frees the context and its rings. No other context
changes. -/
def Claims.ContextMessages : Prop :=
  (∀ (s : State) (p : Nat) (lock : Bool) (bad : List Nat) (r : Req), s.accepts p 0x0020 r = true →
    let b := r.body
    let n := byteAt b 0
    let c := ctxOf r.fn b (s.devRead (fld b 24 8) 4096)
    (s.ctxStatus r.fn b ≠ 0 → exec (.contextSetup p ⟨lock, bad⟩) s = .next (s.sameInputs ((s.accepted r).answer r (s.ctxStatus r.fn b) []))) ∧
    ((s.ctx? n).isSome = true → s.ctxStatus r.fn b = 0x30) ∧
    (n < s.ctxCount → s.ctx? n = none → (s.port (byteAt b 1)).retired = true → s.ctxStatus r.fn b = 0x31) ∧
    (s.ctxStatus r.fn b = 0 → ∃ t : State, exec (.contextSetup p ⟨lock, bad⟩) s = .next (s.sameInputs (t.answer r 0 [])) ∧
      let locks : Prop := lock = true ∨ (s.port c.port).enabled = true
      (locks → ∀ m, m ≠ n → t.ctx? m = s.ctx? m) ∧
      (∀ m g, some m ∈ c.stat :: c.taps → s.ring? m = some g → t.ring? m = some { g with media := true }) ∧
      (∀ k l, s.freeSlots (byteAt b 12) = k :: l → bad.contains k = false →
        (locks → t.ctx? n = some { c with slot := k } ∧ c.st = 1) ∧ (¬ locks → t.ctx? n = some { c with slot := k, st := 4 })) ∧
      ((∀ k, k ∈ s.freeSlots (byteAt b 12) → bad.contains k = true) → t.ctx? n = some { c with st := 4 }) ∧
      (c.port < s.media.ports.length → (s.port c.port).enabled = false → (t.port c.port).enabled = true ∧
        (t.port c.port).locked = lock ∧ (t.port c.port).retired = (!lock || (s.port c.port).retired) ∧
        (t.port c.port).depth = if lock = true then 4 else 0))) ∧
  (∀ (s : State) (p : Nat) (r : Req), s.accepts p 0x0021 r = true →
    let n := byteAt r.body 0
    let a := fld r.body 8 8
    (s.ctx? n = none → exec (.contextParameter p) s = .next (s.sameInputs ((s.accepted r).answer r 0x34 []))) ∧
    (∀ c, s.ctx? n = some c →
      let good : Prop := c.owner = r.fn ∧ allZero ((r.body.drop 1).take 7) = true ∧ a % 4096 = 0 ∧ s.fnReads r.fn a 4096 = true ∧
        paramOk c.width c.height (s.devRead a 4096) = true
      let fits : Prop := ∀ i, i < 3 → ∀ m, c.taps.getD i none = some m →
        ∃ g, s.ring? m = some g ∧ tapNeed (s.devRead a 4096) i ≤ 2 ^ g.slotLog
      (¬ good → exec (.contextParameter p) s = .next (s.sameInputs ((s.accepted r).answer r 0x34 []))) ∧
      (good → ¬ fits → exec (.contextParameter p) s = .next (s.sameInputs ((s.accepted r).answer r 0x33 []))) ∧
      (good → fits → exec (.contextParameter p) s = .next (s.sameInputs
        ((((s.accepted r).touchBlock r.fn a).setCtx n (fun c => { c with pend := some (s.devRead a 4096) })).answer r 0 []))))) ∧
  (∀ (s : State) (p : Nat) (r : Req) (c : Ctx), s.accepts p 0x0022 r = true → byteAt r.body 1 = 0 → s.ctx? (byteAt r.body 0) = some c →
    fld r.body 2 2 = 0 → c.owner = r.fn →
    ∃ t : State, exec (.stopContext p) s = .next (s.sameInputs (t.answer r 0 [])) ∧ t.ctx? (byteAt r.body 0) = none ∧
      (∀ m, m ≠ byteAt r.body 0 → t.ctx? m = s.ctx? m) ∧
      (∀ m g, some m ∈ c.stat :: c.taps → s.ring? m = some g → t.ring? m = some { g with media := false })) ∧
  (∀ (s : State) (p : Nat) (r : Req), s.accepts p 0x0022 r = true → byteAt r.body 1 = 0 →
    (∀ c, s.ctx? (byteAt r.body 0) = some c → c.owner ≠ r.fn) →
    exec (.stopContext p) s = .next (s.sameInputs ((s.accepted r).answer r 0x34 [])))

/-- Lock groups (R323, R324). A setup in range, of no other function's group, of no pin of another group and of a group without members
makes the group, whose first trigger is the first at or after now; a stop ends a group without members; a trigger whose instant has come
asserts the pins for the pulse and opens the members' windows; and a window that closes without a frame counts as missed. A lock-group
setup that is refused is answered 0x34, the model's choice of status. -/
def Claims.LockGroups : Prop :=
  (∀ (s : State) (p : Nat) (r : Req), s.accepts p 0x0023 r = true →
    let b := r.body
    let n := byteAt b 0
    let good : Prop := lockRange b = true ∧ s.groupMembers n = [] ∧ (∀ g, aGet s.media.groups n = some g → g.owner = r.fn) ∧
      (∀ e, e ∈ s.media.groups → e.1 ≠ n → e.2.pins &&& byteAt b 1 = 0)
    let epoch := fld b 4 8 * 65536 + fld b 12 2
    let period := fld b 16 4 * 65536 + fld b 14 2
    let g : LockGroup := { owner := r.fn, pins := byteAt b 1, polarity := byteAt b 2, epoch := epoch, period := period,
                           pulse := fld b 20 4, window := fld b 24 4, next := firstTrigger epoch period s.now, high := none }
    (good → exec (.lockGroupSetup p) s = .next (s.sameInputs
      (((s.accepted r).setMedia (fun m => { m with groups := aSet m.groups n g })).answer r 0 []))) ∧
    (¬ good → exec (.lockGroupSetup p) s = .next (s.sameInputs ((s.accepted r).answer r 0x34 [])))) ∧
  (∀ epoch period now k : Nat, 0 < period → (firstTrigger epoch period now ≤ k ↔ now * 65536 ≤ epoch + k * period)) ∧
  (∀ (s : State) (p : Nat) (r : Req) (g : LockGroup), s.accepts p 0x0022 r = true → byteAt r.body 1 = 3 → fld r.body 2 2 = 0 →
    aGet s.media.groups (byteAt r.body 0) = some g → g.owner = r.fn →
    (s.groupMembers (byteAt r.body 0) = [] → exec (.stopLockGroup p) s = .next (s.sameInputs
      (((s.accepted r).setMedia (fun m => { m with groups := aErase m.groups (byteAt r.body 0) })).answer r 0 []))) ∧
    (s.groupMembers (byteAt r.body 0) ≠ [] → exec (.stopLockGroup p) s = .next (s.sameInputs ((s.accepted r).answer r 0x34 [])))) ∧
  (∀ (s : State) (n : Nat) (g : LockGroup), s.on = true → n < 16 → aGet s.media.groups n = some g →
    let at_ := (g.epoch + g.next * g.period) / 65536
    (at_ ≤ s.now → ∃ t : State, exec (.trigger n) s = .next t ∧ t = { s with media := t.media } ∧
      aGet t.media.groups n = some { g with next := g.next + 1, high := some (at_ + g.pulse) } ∧
      (∀ m c, s.ctx? m = some c → c.group = some n → (c.st = 1 ∨ c.st = 2) →
        ∃ d, t.ctx? m = some d ∧ d.window = some (g.next % M32, at_, false) ∧ d.frame = c.frame) ∧
      (∀ m c, s.ctx? m = some c → c.group ≠ some n → t.ctx? m = some c)) ∧
    (s.now < at_ → exec (.trigger n) s = .next s)) ∧
  (∀ (s : State) (n k a g : Nat) (x : LockGroup) (c : Ctx), s.on = true → n < 64 → s.ctx? n = some c → c.window = some (k, a, false) →
    c.group = some g → aGet s.media.groups g = some x →
    (a + x.window < s.now → exec (.triggerWindowExpiry n) s = .next
      (s.setCtx n (fun c => c.closeWindow)) ∧ c.closeWindow = { c with window := none, missed := min (c.missed + 1) 0xffffffff }) ∧
    (s.now ≤ a + x.window → exec (.triggerWindowExpiry n) s = .next s))

/-- Frames of a context on an open port (R310, R319, R320). A frame start takes the slots of the taps that are on and the number and time
of the frame; a line of the context's type joins the frame, and one with a bad CRC also counts in the port's errors; the frame's end,
or the end of its lines, writes what was taken and lets the context run, and a frame that the end of its lines cut short says so in bit 2
of its status; a written slot advances its ring and signals; an index word that cannot be written stops the context (R331); a packet of
another type is discarded, and on a closed port no packet is an event. -/
def Claims.CameraFrames : Prop :=
  (∀ (s : State) (p vc n num stamp : Nat) (c : Ctx), s.on = true → p < 4 → vc < 16 → s.portOpen p = true →
    s.ctxsOn p vc (fun c => c.vc = vc) = [n] → s.ctx? n = some c → c.frame = none → c.live = true →
    s.frameId { c with params := c.pend.getD c.params, pend := none } = some (num, stamp) →
    let d : Ctx := { c with params := c.pend.getD c.params, pend := none }
    let t := s.takeSlots d.owner d.frameRings
    let u := t.1.setCtx n (fun _ => { d with
      frame := some { number := num, stamp := stamp, slots := t.2.slots, lines := [], emb := [] },
      dropped := min (c.dropped + t.2.drops) 0xffffffff, nextNum := if c.group.isNone then (c.nextNum + 1) % M32 else c.nextNum,
      window := c.window.map (fun w => (w.1, w.2.1, true)) })
    (t.2.fail = none → exec (.frameStart p vc false) s = .next (s.sameInputs u)) ∧
    (∀ v, t.2.fail = some v → exec (.frameStart p vc false) s = .next (s.sameInputs (u.ctxFail n v)))) ∧
  (∀ (s : State) (c : Ctx), c.group = none → s.frameId c = some (c.nextNum, s.now)) ∧
  (∀ (s : State) (p vc dt n : Nat) (l : List Nat) (c : Ctx), s.on = true → p < 4 → vc < 16 → s.portOpen p = true →
    (dt = 0x12 ∨ rawTypes.contains dt = true) → s.ctxsOn p vc (fun c => c.live && decide (vc < c.vc + c.exps)) = [n] → s.ctx? n = some c →
    exec (.lineArrival p vc dt true false l) s = .next (s.setCtx n (fun c => c.addLine vc dt true l)) ∧
    exec (.lineArrival p vc dt false false l) s = .next
      ((s.setPort p (fun q => { q with crc := min (q.crc + 1) 0xffff })).setCtx n (fun c => c.addLine vc dt false l))) ∧
  (∀ (s : State) (p vc dt : Nat) (ok : Bool) (l : List Nat), s.on = true → p < 4 → vc < 16 → s.portOpen p = true → dt ≠ 0x12 →
    rawTypes.contains dt = false → exec (.lineArrival p vc dt ok false l) s = .next s ∧
    exec (.lineArrival p vc dt ok true l) s = .next (s.setPort p (fun q => { q with ecc := min (q.ecc + 1) 0xffff }))) ∧
  (∀ (c : Ctx) (f : FrameRun), bit (c.slotStatus f true) 2 = true ∧ bit (c.slotStatus f true) 0 = true) ∧
  (∀ (c : Ctx) (f : FrameRun) (vc : Nat) (ok : Bool) (l : List Nat), c.frame = some f → c.dt ≠ 0x12 → (f.ofExp (vc - c.vc)).length < c.height →
    c.addLine vc c.dt ok l = { c with frame := some { f with lines := { exp := vc - c.vc, crcOk := ok, samples := l } :: f.lines } }) ∧
  (∀ (s : State) (p vc n : Nat) (c : Ctx) (f : FrameRun), s.on = true → p < 4 → vc < 16 → n < 64 → s.portOpen p = true →
    s.ctx? n = some c → c.frame = some f → f.slots = [none, none, none, none] →
    let t : State := ({ s with free := s.free + 4 } : State).setCtx n (fun c => { c with st := 2, frame := none })
    exec (.lineTimeout n) s = .next t ∧
    (vc = c.vc + c.exps - 1 → s.media.ctxs = [(n, c)] → c.port = p → c.vc ≤ vc → exec (.frameEnd p vc false) s = .next t)) ∧
  (∀ (s : State) (k : TapSlot) (r : Ring) (l : List (Nat × List Byte)), s.ring? k.ring = some r → r.p = k.index →
    r.stopped = false → s.badPage r.owner (r.base - 16) 16 = none → s.pinned k.ring (k.index % r.slots) = false → (∀ q, q ∈ l → s.badPage r.owner (r.slotAddr k.index + q.1) q.2.length = none) →
    s.writeSlot k l = (((l.foldl (fun t q => t.hubWrite (r.slotAddr k.index + q.1) q.2) s).ringAdvP k.ring).ringFlag k.ring 1, .written)) ∧
  (∀ (s : State) (p vc dt : Nat) (ok : Bool) (l : List Nat), p < 4 → vc < 16 → s.portOpen p = false →
    exec (.frameStart p vc false) s = .next s ∧ exec (.lineArrival p vc dt ok false l) s = .next s ∧
    exec (.frameEnd p vc false) s = .next s)

/-- Ports and context slots that fail (R305, R426). The third loss of lock within 1 s retires the port and stops its contexts for good; an
earlier one retrains. An uncorrectable error in a held slot discards the frame; one that the march test repeats retires the slot, and
its context goes on in the lowest free one, or stops for good. -/
def Claims.CameraFaults : Prop :=
  (∀ (s : State) (p : Nat), s.on = true → p < 4 → (s.port p).enabled = true → (s.port p).retired = false →
    ((s.port p).losses.length < 2 → exec (.portLockLoss p) s = .next (s.setPort p (fun q => { q with losses := (s.port p).losses ++ [s.now] }))) ∧
    (∀ a b, (s.port p).losses = [a, b] → s.now ≤ a + 1000000000 → p < s.media.ports.length →
      ∃ t : State, exec (.portLockLoss p) s = .next (s.sameInputs t) ∧ (t.port p).retired = true ∧ (t.port p).locked = false ∧
        (∀ m c, s.ctx? m = some c → c.port = p → t.ctx? m = some { c with st := 4, frame := none, window := none }) ∧
        (∀ m c, s.ctx? m = some c → c.port ≠ p → t.ctx? m = some c))) ∧
  (∀ (s : State) (p : Nat), p < 4 → ((s.port p).enabled = false ∨ (s.port p).retired = true) → exec (.portLockLoss p) s = .next s) ∧
  (∀ (s : State) (pipe k n : Nat) (c : Ctx), s.on = true → pipe < 2 → k < 32 → s.slotHolder pipe k = some (n, c) →
    let t := if c.frame.isSome then s.setCtx n (fun c => { c with frame := none, dropped := min (c.dropped + 1) 0xffffffff }) else s
    exec (.contextSlotError pipe k true) s = .next (s.sameInputs (t.logTransient 7 (32 * pipe + k) 0 0)) ∧
    (let u := (t.setMedia (fun m => { m with badSlots := m.badSlots ++ [32 * pipe + k] })).retireMedia 7 (32 * pipe + k)
     exec (.contextSlotError pipe k false) s = .next (s.sameInputs (u.setCtx n (fun c => match (u.freeSlots pipe).head? with
       | some j => { c with slot := j }
       | none => { c with st := 4 }))))) ∧
  (∀ (s : State) (pipe k : Nat) (b : Bool), pipe < 2 → k < 32 → s.slotHolder pipe k = none →
    exec (.contextSlotError pipe k b) s = .next s)

/-- Codec units (R326, R329, R382). A setup whose checks fail is answered with the status of the first failing check; one that passes them
makes the stream or session as the message describes it and binds its rings; a stop frees it. -/
def Claims.CodecMessages : Prop :=
  (∀ (s : State) (p : Nat) (r : Req), s.accepts p 0x0024 r = true →
    let n := byteAt r.body 0
    let x := streamOf r.fn r.body (s.devRead (fld r.body 24 8) 4096)
    (s.streamStatus r.fn r.body ≠ 0 →
      exec (.decodeSetup p) s = .next (s.sameInputs ((s.accepted r).answer r (s.streamStatus r.fn r.body) []))) ∧
    ((s.stream? n).isSome = true → s.streamStatus r.fn r.body = 0x30) ∧
    (s.streamStatus r.fn r.body = 0 → ∃ t : State, exec (.decodeSetup p) s = .next (s.sameInputs (t.answer r 0 [])) ∧
      t.stream? n = some x ∧ (∀ m, m ≠ n → t.stream? m = s.stream? m) ∧
      (∀ m g, some m ∈ some x.bits :: x.comp :: x.taps → s.ring? m = some g → t.ring? m = some { g with media := true }))) ∧
  (∀ (s : State) (p : Nat) (r : Req), s.accepts p 0x0025 r = true →
    let n := byteAt r.body 0
    let x := sessionOf r.fn r.body
    (s.sessionStatus r.fn r.body ≠ 0 →
      exec (.encodeSetup p) s = .next (s.sameInputs ((s.accepted r).answer r (s.sessionStatus r.fn r.body) []))) ∧
    ((s.session? n).isSome = true → s.sessionStatus r.fn r.body = 0x30) ∧
    (s.sessionStatus r.fn r.body = 0 → ∃ t : State, exec (.encodeSetup p) s = .next (s.sameInputs (t.answer r 0 [])) ∧
      t.session? n = some x ∧ (∀ m, m ≠ n → t.session? m = s.session? m) ∧
      (∀ m g, (m = x.jobs ∨ m = x.comp) → s.ring? m = some g → t.ring? m = some { g with media := true }))) ∧
  (∀ (s : State) (p : Nat) (r : Req), s.accepts p 0x0022 r = true → fld r.body 2 2 = 0 →
    let n := byteAt r.body 0
    (∀ x, byteAt r.body 1 = 1 → s.stream? n = some x → x.owner = r.fn →
      ∃ t : State, exec (.stopStream p) s = .next (s.sameInputs (t.answer r 0 [])) ∧ t.stream? n = none ∧
        (∀ m, m ≠ n → t.stream? m = s.stream? m) ∧ t.media.sessions = s.media.sessions) ∧
    (byteAt r.body 1 = 1 → (∀ x, s.stream? n = some x → x.owner ≠ r.fn) →
      exec (.stopStream p) s = .next (s.sameInputs ((s.accepted r).answer r 0x34 []))) ∧
    (∀ x, byteAt r.body 1 = 2 → s.session? n = some x → x.owner = r.fn →
      ∃ t : State, exec (.stopSession p) s = .next (s.sameInputs (t.answer r 0 [])) ∧ t.session? n = none ∧
        (∀ m, m ≠ n → t.session? m = s.session? m) ∧ t.media.streams = s.media.streams) ∧
    (byteAt r.body 1 = 2 → (∀ x, s.session? n = some x → x.owner ≠ r.fn) →
      exec (.stopSession p) s = .next (s.sameInputs ((s.accepted r).answer r 0x34 []))))

/-- Work of the codecs (R327 to R331). The next bitstream entry of an idle stream goes to the decoder with its stamp and flags, and a bad
one completes at once with status 0x05; when it is consumed its lost pictures have been counted, the ring advances and its completion
entry is due with the number of pictures decoded. The next job of an idle session goes to the encoder with its source pinned, completes
with the status of its failed check, or stops the session where its source cannot be read; when it is complete a picture of the codec's
form stands at its output address, the pin is free and its completion entry is due with the count of bytes. -/
def Claims.CodecWork : Prop :=
  (∀ (s : State) (n : Nat) (x : Stream) (r : Ring), n < 64 → s.firmwareActs = true → s.stream? n = some x → x.st = 1 →
    s.ring? x.bits = some r → r.held ≠ 0 → r.stopped = false → (∀ c, x.comp = some c → s.codecWaits c = false) →
    s.ringReads r (r.slotAddr r.c) 256 = true →
    let b := s.devRead (r.slotAddr r.c) 256
    let u := s.touchAll (r.slotAddr r.c) 256
    (bitEntryOk b = false → exec (.bitstreamEntry n) s = .next (s.sameInputs ((u.ringAdvC x.bits).dueCodec x.comp r.c 0x05 0))) ∧
    (bitEntryOk b = true → s.fnReads x.owner (fld b 0 8) (fld b 8 4) = true →
      exec (.bitstreamEntry n) s = .next (s.sameInputs ((u.touchAll (fld b 0 8) (fld b 8 4)).setStream n (fun x => { x with
        st := 2, job := some (r.c, byteAt b 12), stamps := aSet x.stamps r.c (fld b 16 8), gap := x.gap || bit (byteAt b 12) 1 })))) ∧
    (bitEntryOk b = true → s.fnReads x.owner (fld b 0 8) (fld b 8 4) = false →
      exec (.bitstreamEntry n) s = .next (s.sameInputs (u.streamFail n (fld b 0 8 / 4096))))) ∧
  (∀ (s : State) (n index flags k j : Nat) (x : Stream), n < 64 → s.firmwareActs = true → s.stream? n = some x → x.st = 2 →
    x.job = some (index, flags) → s.badPage x.owner x.store x.storeLen = none →
    exec (.bitstreamEntryConsumed n ⟨k, []⟩ j) s = .next (s.sameInputs
      (((((s.fillStore n x).losePictures n index x.owner j).setStream n (fun x => { x with st := 1, job := none })).ringAdvC
        x.bits).dueCodec x.comp index 0 k))) ∧
  (∀ (s : State) (n k : Nat) (x : Session) (r : Ring), n < 16 → s.firmwareActs = true → s.session? n = some x → x.st = 1 →
    s.ring? x.jobs = some r → r.held ≠ 0 → r.stopped = false → s.codecWaits x.comp = false →
    s.ringReads r (r.slotAddr r.c) 256 = true →
    let b := s.devRead (r.slotAddr r.c) 256
    let u := s.touchAll (r.slotAddr r.c) 256
    let v := if jobOk x b then u.touchPins [(fld b 0 2, fld b 4 4, 0)] u else u
    (∀ page, s.sourceFails x b = some page → exec (.encodeJob n) s = .next (s.sameInputs (u.sessionFail n page))) ∧
    (s.sourceFails x b = none → s.jobStatus x b = k → k ≠ 0 →
      exec (.encodeJob n) s = .next (s.sameInputs ((v.ringAdvC x.jobs).dueCodec (some x.comp) r.c k 0))) ∧
    (s.sourceFails x b = none → s.jobStatus x b = 0 → exec (.encodeJob n) s = .next (s.sameInputs (v.setSession n (fun x => { x with
      st := 2, job := some (r.c, fld b 16 8, { ring := fld b 0 2, index := fld b 4 4 }), force := bit (byteAt b 12) 0 }))))) ∧
  (∀ (s : State) (n index a : Nat) (q : Pin) (x : Session) (out : List Byte), n < 16 → s.firmwareActs = true → s.session? n = some x →
    x.st = 2 → x.job = some (index, a, q) →
    (x.outputOk out = true → s.badPage x.owner a out.length = none →
      exec (.encodeJobComplete n out) s = .next (s.sameInputs
        ((((s.hubWrite a out).setSession n (fun y => { y with
          st := 1, job := none, force := false, pics := min (y.pics + 1) 0xffffffff,
          since := if x.intraNext then 1 % x.intra else (x.since + 1) % x.intra })).ringAdvC x.jobs).dueCodec
            (some x.comp) index 0 out.length))) ∧
    (∀ v, x.outputOk out = true → s.badPage x.owner a out.length = some v →
      exec (.encodeJobComplete n out) s = .next (s.sameInputs (s.sessionFail n v))) ∧
    (x.outputOk out = false → exec (.encodeJobComplete n out) s = .next s)) ∧
  (∀ (s : State) (n : Nat) (ps : List Picture) (k : Nat) (out : List Byte), n < 16 → s.stream? n = none → s.session? n = none →
    exec (.bitstreamEntry n) s = .next s ∧ exec (.bitstreamEntryConsumed n ⟨k, ps⟩ k) s = .next s ∧ exec (.encodeJob n) s = .next s ∧
    exec (.encodeJobComplete n out) s = .next s)

/-! ## The host interface -/

/-- Resets of functions (R336). An FLR of a virtual function, or the loss of its enable, frees its suites, rings, units and queues,
empties its mailboxes and ends its orphan state; its allocation, the windows, the table and the frames stay, and so does what other
functions hold. -/
def Claims.FunctionReset : Prop :=
  (∀ (s : State) (n : Nat), 1 ≤ n → n ≤ 16 → s.fw.attach = 0 → s.fwOn = true →
    ∃ t : State, exec (.flrVf n) s = .next (s.sameInputs t) ∧ t = s.flr n ∧
      (∀ r g, t.ring? r = some g → g.owner ≠ n) ∧ (∀ m c, t.ctx? m = some c → c.owner ≠ n) ∧
      (∀ m x, t.stream? m = some x → x.owner ≠ n) ∧ (∀ m x, t.session? m = some x → x.owner ≠ n) ∧
      (∀ q x, t.pq? q = some x → x.owner ≠ n) ∧
      (n < s.funcs.length → (t.func n).orphan = false ∧ (t.func n).beat = none ∧ (t.func n).alloc = (s.func n).alloc) ∧
      t.xlt.windows = s.xlt.windows ∧ t.xlt.table = s.xlt.table ∧ t.xlt.owners = s.xlt.owners ∧ t.fw.run = s.fw.run) ∧
  (∀ (s : State) (n : Nat), 1 ≤ n → n ≤ 16 → (s.fw.attach ≠ 0 ∨ s.fwOn = false) → exec (.flrVf n) s = .next s) ∧
  (∀ (s : State), s.on = true → exec (.vfEnableClear 15) s = exec (.flrVf 16) s ∧ exec (.vfEnableClear 16) s = .next s)

/-- Link events and power states (R335, R336, R277). Hot reset and loss of the link leave the link to train again, its crossing not
aligned, and every function in D0 without pending interrupts and with BAR2 at 64 GiB (the model's choice of reset size, log entry 147); when
the link has trained, its crossing is aligned again and what was held pending leaves; D3hot holds a function's interrupts and D0 sends
them; a failed host request is logged and stops its requester as an invalid entry does; and in the other modes none is an event. -/
def Claims.LinkEvents : Prop :=
  (∀ s : State, s.on = true → s.fw.attach = 0 → ∃ t : State, exec (.hotReset .hotReset) s = .next t ∧ exec (.hotReset .linkDown) s = .next t ∧
    t = { s with fw := { s.fw with linkUp := false }, funcs := t.funcs, health := { s.health with pcieDepth := 0 } } ∧
    (∀ f, f < s.funcs.length → (t.func f).d3 = false ∧ (t.func f).held = [] ∧ (t.func f).bar2 = 36 ∧ (t.func f).orphan = (s.func f).orphan ∧ (t.func f).alloc = (s.func f).alloc)) ∧
  (∀ s : State, s.on = true → s.fw.attach = 0 →
    exec (.hotReset .flr0) s = .next { s with funcs := s.funcs.map (fun f => { f with d3 := false, held := [], bar2 := 36 }) }) ∧
  (∀ s : State, s.on = true → s.fw.attach = 0 → ∃ t : State, exec .pcieLinkTrained s = .next t ∧ t.fw.linkUp = true ∧
    t = { s with fw := { s.fw with linkUp := true }, funcs := t.funcs, out := { s.out with irqs := t.out.irqs },
                 health := { s.health with pcieDepth := 8 } } ∧
    (∀ f, f < 17 → f < s.funcs.length → (s.func f).d3 = false →
      (t.func f).held = [] ∧ ∀ v, v ∈ (s.func f).held → (f, v) ∈ t.out.irqs)) ∧
  (∀ (s : State) (f : Nat), s.on = true → s.fw.attach = 0 → f < 17 → f < s.funcs.length →
    exec (.powerStateChange f true) s = .next (s.setFunc f (fun x => { x with d3 := true })) ∧
    (s.fw.linkUp = true → ∃ t : State, exec (.powerStateChange f false) s = .next t ∧ (t.func f).held = [] ∧ (t.func f).d3 = false ∧
      t.out.irqs = s.out.irqs ++ (s.func f).held.map (fun v => (f, v)))) ∧
  (∀ (s : State) (f page p : Nat) (w : Bool), s.on = true → f < 17 → s.fw.attach = 0 → s.xentry page = .host p f w →
    let t := s.logE 0x0023 4 f 0xff 0 0 page 0 0
    exec (.completionTimeout f page .hub) s = .next (s.sameInputs t) ∧
    (∀ n, exec (.completionTimeout f page (.ring n)) s = .next (s.sameInputs (t.ringStop n page))) ∧
    (∀ n, exec (.completionTimeout f page (.queue n)) s = .next (s.sameInputs (t.pqStop n page)))) ∧
  (∀ (s : State) (f page : Nat) (who : HostRequester) (k : HostReset) (b : Bool), s.on = true → f < 17 → s.fw.attach ≠ 0 →
    exec .pcieLinkTrained s = .next s ∧ exec (.powerStateChange f b) s = .next s ∧ exec (.hotReset k) s = .next s ∧
    exec (.completionTimeout f page who) s = .next s)

/-- Host start (R343): outside self-hosted mode it starts the eight host cores once at its entry point in machine mode, with the core's
number in a0 and the blob's address in a1; else, or with an entry or a blob
outside the windows of function 0, it is answered 0x80, the model's choice of status. -/
def Claims.HostStart : Prop :=
  ∀ (s : State) (p : Nat) (r : Req), s.accepts p 0x0030 r = true →
    let good : Prop := s.fw.hostRun = false ∧ s.fw.attach ≠ 2 ∧ s.inFn 0 (fld r.body 0 8) 1 = true ∧ s.inFn 0 (fld r.body 8 8) 1 = true
    let cores : List HostCore := [0, 1, 2, 3, 4, 5, 6, 7].map (fun n =>
      { pc := fld r.body 0 8, a0 := n, a1 := fld r.body 8 8, machine := true })
    (good → exec (.hostStart p) s = .next (s.sameInputs (((s.accepted r).setFw (fun f =>
      { f with hostRun := true, hostEntry := fld r.body 0 8, hostBlob := fld r.body 8 8, hostCores := cores })).answer r 0 []))) ∧
    (¬ good → exec (.hostStart p) s = .next (s.sameInputs ((s.accepted r).answer r 0x80 [])))

/-- USB transactions (R340, R384). Each is answered with its tag and a status: 2 for a length that is no multiple of 4 between 4 bytes and
1 MiB, or a device range outside the address space; 1 for an operation that the attachment does not open; else 0, with the words of the
registers or the bytes of device space that were read. The boot ROM in a rescue serves the `dev` block, writes within the rescue area
and the rescue message, and answers every other well-formed operation 1 (R370). -/
def Claims.UsbTransactions : Prop :=
  (∀ (s : State) (tag o n a p : Nat) (d : List Byte), s.on = true →
    (usbLength n = false → exec (.usbRegisterRead tag o n) s = .next (s.usbAnswer tag 2 [])) ∧
    (usbLength n = false ∨ (s.inRescue = false ∧ 0x1000000000 < a + n) → exec (.usbDeviceRead tag a n) s = .next (s.usbAnswer tag 2 [])) ∧
    (usbLength d.length = false → exec (.usbRegisterWrite tag o d) s = .next (s.usbAnswer tag 2 [])) ∧
    (usbLength d.length = false ∨ (s.inRescue = false ∧ 0x1000000000 < a + d.length) →
      exec (.usbDeviceWrite tag a d) s = .next (s.usbAnswer tag 2 [])) ∧
    (usbLength d.length = false ∨ 256 < d.length → exec (.usbMailboxMessage tag p d) s = .next (s.usbAnswer tag 2 []))) ∧
  (∀ (s : State) (tag o a : Nat) (d : List Byte), s.on = true → s.fw.attach ≠ 1 → usbLength d.length = true →
    exec (.usbRegisterWrite tag o d) s = .next (s.usbAnswer tag 1 []) ∧
    (s.inRescue = false → a + d.length ≤ 0x1000000000 → exec (.usbDeviceWrite tag a d) s = .next (s.usbAnswer tag 1 []))) ∧
  (∀ (s : State) (tag o : Nat), s.on = true → (s.inRescue = false ∨ o + 4 ≤ 0x10000) → exec (.usbRegisterRead tag o 4) s =
    .next ((s.readReg 0 o).usbAnswer tag 0 (toLE 4 (s.regValue 0 o)))) ∧
  (∀ (s : State) (tag o : Nat) (d : List Byte), s.on = true → s.inRescue = false → s.fw.attach = 1 → d.length = 4 →
    exec (.usbRegisterWrite tag o d) s = .next (s.sameInputs ((s.writeReg 0 o (leNat d)).usbAnswer tag 0 []))) ∧
  (∀ (s : State) (tag a n : Nat), s.on = true → s.inRescue = false → usbLength n = true → a + n ≤ 0x1000000000 →
    ∃ t : State,
    exec (.usbDeviceRead tag a n) s = .next t ∧
    t.out.usb = s.out.usb ++ [toLE 1 tag ++ [0, 0, 0] ++ (List.range n).map (fun i =>
      if s.bar2Page 0 ((a + i) / 4096) false = true then s.devGet (a + i) else 0)] ∧ t.hbm = s.hbm ∧ t.hostMem = s.hostMem) ∧
  (∀ (s : State) (tag a : Nat) (d : List Byte), s.on = true → s.inRescue = false → s.fw.attach = 1 → usbLength d.length = true →
    a + d.length ≤ 0x1000000000 →
    exec (.usbDeviceWrite tag a d) s = .next (s.sameInputs
      ((((s.touchAll a d.length).logBar2 0 a d.length true).bar2Put 0 a d).usbAnswer tag 0 []))) ∧
  (∀ (s : State) (tag o n a : Nat) (d : List Byte), s.on = true → s.inRescue = true → usbLength n = true → usbLength d.length = true →
    (0x10000 < o + n → exec (.usbRegisterRead tag o n) s = .next (s.usbAnswer tag 1 [])) ∧
    exec (.usbDeviceRead tag a n) s = .next (s.usbAnswer tag 1 []) ∧ exec (.usbRegisterWrite tag o d) s = .next (s.usbAnswer tag 1 []) ∧
    (a + d.length ≤ 0x1000000 → exec (.usbDeviceWrite tag a d) s = .next (s.sameInputs ((s.rescuePut a d).usbAnswer tag 0 []))) ∧
    (0x1000000 < a + d.length → exec (.usbDeviceWrite tag a d) s = .next (s.usbAnswer tag 1 [])) ∧
    (∀ p, d.length ≤ 256 → fld d 2 2 ≠ 0x0048 → exec (.usbMailboxMessage tag p d) s = .next (s.usbAnswer tag 1 []))) ∧
  (∀ (s : State) (tag p : Nat) (d : List Byte), s.on = true → usbLength d.length = true → d.length ≤ 256 →
    (s.inRescue = false ∨ fld d 2 2 = 0x0048) →
    let open_ : Prop := (s.fw.attach = 1 ∨ p = 15) ∧ p < 16 ∧ (s.pair p).reqV = false
    (open_ → exec (.usbMailboxMessage tag p d) s =
      .next ((s.setPair p (fun x => { x with req := padTo 256 d, reqV := true })).usbAnswer tag 0 [])) ∧
    (¬ open_ → exec (.usbMailboxMessage tag p d) s = .next (s.usbAnswer tag 1 [])))

/-! ## Ethernet and the Abapex link -/

/-- Packet queues and rules (R346, R347). A set-up in order makes an empty queue, a queue that holds entries is answered 0x44, a port that
the lane mode does not have 0x45, a ring that does not lie in the owner's windows 0x46, another field out of range 0x48; a delete makes the
same checks (log entry 117), and the queue goes with the rules that name it disabled; a rule names a receive queue of its port, else 0x47;
and a doorbell moves the host's index of its owner's queue within the queue, or is logged. -/
def Claims.PacketQueues : Prop :=
  (∀ (s : State) (p : Nat) (r : Req), s.accepts p 0x0034 r = true → byteAt r.body 1 = 0 →
    let b := r.body
    let refused := fun (st : Nat) => exec (.packetQueueSetup p) s = .next (s.sameInputs ((s.accepted r).answer r st []))
    let empty := s.pqEmpty (byteAt b 0)
    let port : Prop := portLanes s.fab.mode (byteAt b 2) ≠ none
    let placed : Prop := fld b 8 8 % 4096 = 0 ∧ 16 ≤ fld b 8 8 ∧
      s.inFn (byteAt b 4) (fld b 8 8 - 16) (16 + 32 * 2 ^ byteAt b 5) = true
    let range : Prop := pqRange b = true
    let q : PktQ := { port := byteAt b 2, rx := decide (byteAt b 3 = 1), owner := byteAt b 4, log := byteAt b 5, base := fld b 8 8,
                      p := 0, c := 0, stopped := false }
    (empty = false → refused 0x44) ∧ (empty = true → ¬ port → refused 0x45) ∧ (empty = true → port → ¬ placed → refused 0x46) ∧
    (empty = true → port → placed → ¬ range → refused 0x48) ∧
    (empty = true → port → placed → range → exec (.packetQueueSetup p) s = .next (s.sameInputs
      (((s.accepted r).setFab (fun f => { f with queues := aSet f.queues (byteAt b 0) q })).answer r 0 [])))) ∧
  (∀ b : List Byte, pqRange b = true ↔ byteAt b 3 ≤ 1 ∧ byteAt b 4 ≤ 16 ∧ 1 ≤ byteAt b 5 ∧ byteAt b 5 ≤ 16 ∧ fld b 6 2 = 0) ∧
  (∀ (s : State) (p : Nat) (r : Req) (q : PktQ), s.accepts p 0x0034 r = true → byteAt r.body 1 = 1 → s.pq? (byteAt r.body 0) = some q →
    let b := r.body
    let refused := fun (st : Nat) => exec (.packetQueueDelete p) s = .next (s.sameInputs ((s.accepted r).answer r st []))
    let port : Prop := portLanes s.fab.mode (byteAt b 2) ≠ none
    let placed : Prop := fld b 8 8 % 4096 = 0 ∧ 16 ≤ fld b 8 8 ∧
      s.inFn (byteAt b 4) (fld b 8 8 - 16) (16 + 32 * 2 ^ byteAt b 5) = true
    (q.p = q.c → ¬ port → refused 0x45) ∧ (q.p = q.c → port → ¬ placed → refused 0x46) ∧
    (q.p = q.c → port → placed → pqRange b = false → refused 0x48) ∧
    (q.p = q.c → port → placed → pqRange b = true → ∃ t : State, exec (.packetQueueDelete p) s = .next (s.sameInputs (t.answer r 0 [])) ∧ t.pq? (byteAt r.body 0) = none ∧
      (∀ m, m ≠ byteAt r.body 0 → t.pq? m = s.pq? m) ∧
      (q.rx = true → ∀ k x, aGet t.fab.rules k = some x → x.queue = byteAt r.body 0 → bit x.flags 7 = false)) ∧
    (q.p ≠ q.c → refused 0x44)) ∧
  (∀ (s : State) (p : Nat) (r : Req), s.accepts p 0x0034 r = true → byteAt r.body 1 = 1 → s.pq? (byteAt r.body 0) = none →
    exec (.packetQueueDelete p) s = .next (s.sameInputs ((s.accepted r).answer r 0x44 []))) ∧
  (∀ (s : State) (p : Nat) (r : Req), s.accepts p 0x0035 r = true →
    let b := r.body
    let port : Prop := portLanes s.fab.mode (byteAt b 0) ≠ none
    let own : Prop := ∃ x, s.pq? (fld b 6 2) = some x ∧ x.rx = true ∧ x.port = byteAt b 0
    let range : Prop := byteAt b 1 = 0 ∧ fld b 2 2 ≤ 255 ∧ bits (byteAt b 4) 6 4 = 0 ∧ byteAt b 5 = 0 ∧ fld b 14 2 < 4096 ∧ fld b 20 4 = 0
    let refused := fun (st : Nat) => exec (.steeringRule p) s = .next (s.sameInputs ((s.accepted r).answer r st []))
    let x : Steer := { flags := byteAt b 4, queue := fld b 6 2, mac := beNat ((b.drop 8).take 6), vlan := fld b 14 2,
                       ether := fld b 16 2, udp := fld b 18 2 }
    (¬ port → refused 0x45) ∧ (port → ¬ own → refused 0x47) ∧ (port → own → ¬ range → refused 0x48) ∧
    (port → own → range → exec (.steeringRule p) s = .next (s.sameInputs
      (((s.accepted r).setFab (fun f => { f with rules := aSet f.rules (byteAt b 0 * 256 + fld b 2 2) x })).answer r 0 [])))) ∧
  (∀ (s : State) (f q v : Nat) (x : PktQ), s.on = true → f < 17 → q < 256 → v < M32 → s.pq? q = some x →
    (x.owner = f → (if x.rx = true then (x.p + M32 - v) % M32 else (v + M32 - x.c) % M32) ≤ 2 ^ x.log →
      ∃ t : State, exec (.pqDoorbell f q v) s = .next t ∧ t = { s with fab := { s.fab with queues := t.fab.queues } } ∧
        (∀ m, m ≠ q → t.pq? m = s.pq? m) ∧
        t.pq? q = some (if x.rx = true then { x with c := v } else { x with p := v })) ∧
    (x.owner ≠ f → exec (.pqDoorbell f q v) s = .next (s.sameInputs (s.logE 0x0020 4 f 0xff 0 q v x.p x.c))))

/-- Frames of the Ethernet ports (R345, R346). A frame with a bad FCS or a size out of range is dropped and counted, and one that no rule
steers too; a steered frame goes into its queue's next buffer, or is dropped and counted when the queue is full; the queue's next
transmit descriptor sends its frame when the port is up, with status 0, else it completes with status 2 and nothing is sent; and on a
port that is down nothing arrives. -/
def Claims.EthernetFrames : Prop :=
  (∀ (s : State) (port : Nat) (ok : Bool) (b : List Byte), s.on = true → port < 4 → s.portUp port = true →
    let lost : State := s.setFab (fun f => { f with dropped := lMod f.dropped port (· + 1) })
    ((ok = false ∨ b.length < 60 ∨ 9212 < b.length) → exec (.frameReceive port ok b) s = .next lost) ∧
    (ok = true → 60 ≤ b.length → b.length ≤ 9212 → (ethHead b).inner = 0x8808 → exec (.frameReceive port ok b) s = .next s) ∧
    (ok = true → 60 ≤ b.length → b.length ≤ 9212 → (ethHead b).inner ≠ 0x8808 → s.udpPeer b = none →
      (s.steer port b = none → exec (.frameReceive port ok b) s = .next lost) ∧
      (∀ q x, s.steer port b = some q → s.pq? q = some x →
        (2 ^ x.log ≤ (x.p + M32 - x.c) % M32 → exec (.frameReceive port ok b) s = .next lost) ∧
        ((x.p + M32 - x.c) % M32 < 2 ^ x.log → x.stopped = false → s.fnReads x.owner (x.slotAddr x.p) 32 = true →
          s.fnWrites x.owner (x.slotAddr x.p) 32 = true →
          let d := s.devRead (x.slotAddr x.p) 32
          let part := b.take (fld d 8 4)
          s.fnWrites x.owner (fld d 0 8) part.length = true →
          let back := toLE 4 b.length ++ toLE 1 (2 * b2n (sumsGood b) + 4 * b2n (ethHead b).vlan.isSome) ++
            toLE 1 (b2n (decide (fld d 8 4 < b.length))) ++ (d.drop 14).take 2 ++ toLE 8 s.now
          exec (.frameReceive port ok b) s = .next (s.sameInputs
            ((((((s.touchAll (x.slotAddr x.p) 32).hubWrite (fld d 0 8) part).hubWrite (x.slotAddr x.p + 8) back).setPq q (fun x => { x with p := (x.p + 1) % M32 }))).pqAdvanced q
              (fld d 14 2))))))) ∧
  (∀ (s : State) (port : Nat) (ok : Bool) (b : List Byte), port < 4 → s.portUp port = false →
    exec (.frameReceive port ok b) s = .next s) ∧
  (∀ (s : State) (port i q : Nat) (b : List Byte) (x : Steer), i < 256 → aGet s.fab.rules (port * 256 + i) = some x → x.hits b = true →
    x.queue = q → (∀ j y, j < i → aGet s.fab.rules (port * 256 + j) = some y → y.hits b = false) → s.steer port b = some q) ∧
  (∀ (s : State) (q : Nat) (x : PktQ), s.on = true → q < 256 → s.pq? q = some x → x.rx = false → x.stopped = false →
    (x.p + M32 - x.c) % M32 ≠ 0 → s.fnReads x.owner (x.slotAddr x.c) 32 = true → s.fnWrites x.owner (x.slotAddr x.c) 32 = true →
    let a := x.slotAddr x.c
    let d := s.devRead a 32
    let s₁ := s.touchAll a 32
    let done := fun (t : State) (st : Nat) (stamp : List Byte) =>
      ((t.hubWrite (a + 13) (toLE 1 st ++ (d.drop 14).take 2 ++ stamp)).setPq q (fun x => { x with c := (x.c + 1) % M32 })).pqAdvanced q
        (fld d 14 2)
    ((s.portUp x.port = false ∨ fld d 8 4 < 60 ∨ 9212 < fld d 8 4) →
      exec (.frameTransmit q) s = .next (s.sameInputs (done s₁ 2 ((d.drop 16).take 8)))) ∧
    (s.portUp x.port = true → 60 ≤ fld d 8 4 → fld d 8 4 ≤ 9212 → s.fnReads x.owner (fld d 0 8) (fld d 8 4) = true →
      bit (byteAt d 12) 0 = true → bit (byteAt d 12) 1 = false →
      exec (.frameTransmit q) s = .next (s.sameInputs (done ((s₁.touchAll (fld d 0 8) (fld d 8 4)).setOut (fun o =>
        { o with eth := o.eth ++ [(x.port, s.devRead (fld d 0 8) (fld d 8 4))] })) 0 (toLE 8 s.now))))) ∧
  (∀ (s : State) (q : Nat), q < 256 → s.pq? q = none → exec (.frameTransmit q) s = .next s)

/-- Chip number and peers (R354). The number is set while no suite and no peer exists; a peer whose number and chip are free, whose path is
there, whose buffer lies in the windows of function 0 and whose other fields are in range waits for its hello, and the first check
that fails gives the status 0x40 to 0x43. The status of a refused chip message is the model's reading (log entry 43). -/
def Claims.ChipAndPeers : Prop :=
  (∀ (s : State) (p : Nat) (r : Req), s.accepts p 0x0031 r = true →
    let good : Prop := fld r.body 0 4 < 0xfffff ∧ s.fab.peers = [] ∧ ∀ k, k < 32 → (s.suite k).st = 0
    (good → exec (.chip p) s = .next (s.sameInputs
      (((s.accepted r).setFab (fun f => { f with chip := fld r.body 0 4 })).answer r 0 []))) ∧
    (¬ good → exec (.chip p) s = .next (s.sameInputs ((s.accepted r).answer r 0x80 [])))) ∧
  (∀ (s : State) (p : Nat) (r : Req), s.accepts p 0x0032 r = true →
    let b := r.body
    let taken : Prop := (s.peer? (byteAt b 0)).isSome = true ∨ (s.peerOf (fld b 4 4)).isSome = true
    let path := s.pathOk (byteAt b 1) (byteAt b 2)
    let buffer : Prop := byteAt b 1 = 3 → s.inFn 0 (fld b 52 8) (fld b 60 4) = true
    let refused := fun (st : Nat) => exec (.peerSetup p) s = .next (s.sameInputs ((s.accepted r).answer r st []))
    (taken → refused 0x40) ∧ (¬ taken → path = false → refused 0x41) ∧ (¬ taken → path = true → ¬ buffer → refused 0x42) ∧
    (¬ taken → path = true → buffer → s.peerRange b = false → refused 0x43) ∧
    (¬ taken → path = true → buffer → s.peerRange b = true → exec (.peerSetup p) s = .next (s.sameInputs
      (((s.accepted r).setFab (fun f => { f with peers := aSet f.peers (byteAt b 0) (peerOfBody b s.now) })).answer r 0 []))) ∧
    (peerOfBody b s.now).st = 1 ∧ (peerOfBody b s.now).txSeq = 0 ∧ (peerOfBody b s.now).rxSeq = 0)

/-- Received frames of a peer (R355 to R358). A frame with a failed check is not taken, whatever command brings it; a data or credit frame
of the expected sequence advances it and is taken, an earlier one was taken before, and a gap asks for the expected one; an
acknowledgement frees the frames before its sequence, a negative one resends from its sequence; and each frame of a peer that is not up is
no event but a hello, by which a peer with a common major comes up and one without stays in state 4. -/
def Claims.LinkFrames : Prop :=
  (∀ (s : State) (n : Nat) (p : Peer) (b : List Byte), s.on = true → n < 256 → s.peer? n = some p → s.frameGood p b = false →
    let t := if p.st = 2 then s.sendNak n p else s
    exec (.dataFrame n b) s = .next (s.sameInputs t) ∧ exec (.creditFrame n b) s = .next (s.sameInputs t) ∧
    exec (.acknowledge n b) s = .next (s.sameInputs t) ∧ exec (.negativeAcknowledge n b) s = .next (s.sameInputs t) ∧
    exec (.hello n b) s = .next (s.sameInputs t)) ∧
  (∀ (s : State) (n : Nat) (p : Peer) (b : List Byte), s.on = true → n < 256 → s.peer? n = some p → s.frameGood p b = true → p.st = 2 →
    p.sent = [] → p.held = [] → p.nakAt = none →
    let u := fun (q : Peer) => { q with rxSeq := (q.rxSeq + 1) % M32, rxSince := q.rxSince + 1,
                                        rxAt := if q.rxSince = 0 then s.now else q.rxAt, nakAt := none }
    (byteAt b 0 = 1 → fld b 12 4 = p.rxSeq →
      exec (.dataFrame n b) s = .next (s.sameInputs (((s.setPeer n u).takeData n p b).drainHeld n 64))) ∧
    (byteAt b 0 = 2 → fld b 12 4 = p.rxSeq →
      exec (.creditFrame n b) s = .next (s.sameInputs (((s.setPeer n u).takeCredits p b).drainHeld n 64))) ∧
    (byteAt b 0 = 1 → fld b 12 4 ≠ p.rxSeq → serialLt p.rxSeq (fld b 12 4) = false → exec (.dataFrame n b) s = .next s) ∧
    (byteAt b 0 = 1 → p.path = 3 → serialLt p.rxSeq (fld b 12 4) = true →
      exec (.dataFrame n b) s = .next (s.sameInputs ((s.setPeer n (fun q => { q with nakAt := some s.now })).sendPlain n 4 []))) ∧
    (byteAt b 0 = 1 → p.path ≠ 3 → serialLt p.rxSeq (fld b 12 4) = true → (fld b 12 4 + M32 - p.rxSeq) % M32 < 64 →
      exec (.dataFrame n b) s = .next (s.setPeer n (fun q => { q with held := q.held ++ [{ sn := fld b 12 4, bytes := b }] })))) ∧
  (∀ (s : State) (n : Nat) (p : Peer) (b : List Byte), s.on = true → n < 256 → s.peer? n = some p → s.frameGood p b = true → p.st = 2 →
    let rest := p.sent.filter (fun f => !serialLt f.sn (fld b 16 4))
    let t := if rest.length = p.sent.length then s else
      s.setPeer n (fun q => { q with sent := rest, acked := fld b 16 4, ackedAt := s.now, sentAt := s.now })
    (byteAt b 0 = 3 → exec (.acknowledge n b) s = .next (s.sameInputs t)) ∧
    (byteAt b 0 = 4 → exec (.negativeAcknowledge n b) s = .next (s.sameInputs (t.resend n (fld b 16 4))))) ∧
  (∀ (s : State) (n : Nat) (p : Peer) (b : List Byte), s.on = true → n < 256 → s.peer? n = some p → s.frameGood p b = true →
    (p.st = 1 ∨ p.st = 4) →
    (byteAt b 0 = 1 → exec (.dataFrame n b) s = .next s) ∧ (byteAt b 0 = 3 → exec (.acknowledge n b) s = .next s)) ∧
  (∀ (s : State) (n m : Nat) (p : Peer) (b : List Byte), s.on = true → n < 256 → s.peer? n = some p → s.frameGood p b = true →
    byteAt b 0 = 5 → p.st = 1 → p.sent = [] →
    ((helloPairs (b.drop 32)).find? (fun v => v.1 = 1) = some (1, m) →
      exec (.hello n b) s = .next (s.sameInputs ((s.setPeer n (fun q => q.newEpoch (fld (b.drop 32) 0 8))).setPeer n (fun q =>
        { q with major := 1, minor := 0, st := 2, ackedAt := s.now })))) ∧
    ((helloPairs (b.drop 32)).find? (fun v => v.1 = 1) = none →
      ∃ c, exec (.hello n b) s = .next (s.sameInputs (((s.setPeer n (fun q => q.newEpoch (fld (b.drop 32) 0 8))).setPeer n (fun q =>
        { q with st := 4 })).logE 0x0041 0 0xff 0xff 10 n p.chip c 0)))) ∧
  (∀ (p : Peer) (e o : Nat), p.epoch = some o → o ≠ e →
    (p.newEpoch e).sent = [] ∧ (p.newEpoch e).txSeq = 0 ∧ (p.newEpoch e).rxSeq = 0 ∧ (p.newEpoch e).epoch = some e)

/-- Timers and credits of the link (R356 to R358). An acknowledgement leaves after 16 frames or 2 µs; a replay timeout resends every kept
frame; the loss limit makes the peer unreachable, with a log entry; up to 64 records of credits leave in one frame
when the replay buffer has room for it; and a hello goes to
each peer. -/
def Claims.LinkTimers : Prop :=
  (∀ (s : State) (n : Nat) (p : Peer), s.on = true → n < 256 → s.peer? n = some p → p.st = 2 →
    ((16 ≤ p.rxSince ∨ (p.rxSince ≠ 0 ∧ p.rxAt + 2000 ≤ s.now)) → exec (.ackTimer n) s = .next (s.sameInputs (s.sendPlain n 3 []))) ∧
    (p.rxSince = 0 ∨ (p.rxSince < 16 ∧ s.now < p.rxAt + 2000) → exec (.ackTimer n) s = .next s) ∧
    (∀ f l, p.sent = f :: l →
      (p.sentAt + p.timeout * 1000 ≤ s.now → exec (.replayTimeout n) s = .next (s.sameInputs (s.resend n f.sn))) ∧
      (s.now < p.sentAt + p.timeout * 1000 → exec (.replayTimeout n) s = .next s) ∧
      (p.ackedAt + p.loss * 1000000 ≤ s.now → exec (.peerLossLimit n) s = .next (s.sameInputs
        ((s.setPeer n (fun q => { q with st := 3 })).logE 0x0040 0 0xff 0xff 10 n p.chip 0 0))) ∧
      (s.now < p.ackedAt + p.loss * 1000000 → exec (.peerLossLimit n) s = .next s)) ∧
    (p.sent = [] → exec (.replayTimeout n) s = .next s ∧ exec (.peerLossLimit n) s = .next s) ∧
    (p.credOut ≠ [] → p.buffered + 32 + 8 * min 64 p.credOut.length ≤ p.capacity → exec (.creditFrameSend n) s = .next (s.sameInputs
      ((s.setPeer n (fun q => { q with credOut := q.credOut.drop 64 })).sendKept n 2 0
        ((p.credOut.take 64).flatMap (fun r => toLE 4 r.1 ++ toLE 4 r.2))))) ∧
    (p.credOut = [] ∨ p.capacity < p.buffered + 32 + 8 * min 64 p.credOut.length → exec (.creditFrameSend n) s = .next s)) ∧
  (∀ s : State, s.on = true → s.fab.peers = [] → exec .helloTimer s = .next s) ∧
  (∀ (s : State) (n : Nat) (p : Peer), s.on = true → s.fab.peers = [(n, p)] →
    exec .helloTimer s = .next (s.sameInputs (s.sendPlain n 5 (toLE 8 s.fab.epoch ++ toLE 4 s.fab.chip ++ [1, 0])))) ∧
  (∀ (s : State) (n type word : Nat) (l : List Byte) (p : Peer), s.peer? n = some p →
    ∃ q, (s.sendKept n type word l).peer? n = some q ∧ q.txSeq = (p.txSeq + 1) % M32 ∧ q.rxSince = 0 ∧ q.rxSeq = p.rxSeq ∧
      ∃ f, q.sent = p.sent ++ [f] ∧ f.sn = p.txSeq)

/-! ## Firmware and trust -/

/-- Reports of the firmware (R372 to R374, R381). Identity writes the certificate chain to a buffer of the sender and answers its length;
attestation writes a report of the sender's suites that begins with its magic, holds the nonce and ends with 96 bytes of signature; and the
firmware status answers the three registers. Fields out of range, and a buffer that cannot be written, are answered 0x80 without effect, the
model's reading of a request that R382 gives no own status. -/
def Claims.FirmwareReports : Prop :=
  (∀ (s : State) (p : Nat) (r : Req), s.accepts p 0x0040 r = true →
    let a := fld r.body 0 8
    let good := s.inFn r.fn a (max 16384 s.certChain.length) && s.writable a s.certChain.length
    (good = true → exec (.identity p) s = .next (s.sameInputs
      (((s.accepted r).hubWrite a s.certChain).answer r 0 (toLE 4 s.certChain.length)))) ∧
    (good = false → exec (.identity p) s = .next (s.sameInputs ((s.accepted r).answer r 0x80 [])))) ∧
  (∀ (s : State) (p : Nat) (r : Req), s.accepts p 0x0041 r = true →
    let n := byteAt r.body 0
    let good : Prop := 1 ≤ n ∧ n ≤ 64 ∧ fld r.body 1 7 = 0 ∧ allZero (r.body.drop (16 + n)) = true ∧ s.inFn r.fn (fld r.body 8 8) 8192 = true ∧
      s.writable (fld r.body 8 8) ((s.attestBody r.fn n ((r.body.drop 16).take n)).length + 96) = true
    (good → ∃ (rep : List Byte) (t : State), exec (.attestation p) s = .next (s.sameInputs ((t.hubWrite (fld r.body 8 8) rep).answer r 0 (toLE 4 rep.length))) ∧
      t = { s.accepted r with free := s.free + 1 } ∧ rep.take 4 = [0x4d, 0x59, 0x41, 0x54] ∧
      (rep.drop 9).take 64 = padTo 64 ((r.body.drop 16).take n) ∧
      ∃ sig, rep = s.attestBody r.fn n ((r.body.drop 16).take n) ++ sig ∧ sig.length = 96) ∧
    (¬ good → exec (.attestation p) s = .next (s.sameInputs ((s.accepted r).answer r 0x80 [])))) ∧
  (∀ (s : State) (p : Nat) (r : Req), s.accepts p 0x0042 r = true →
    exec (.firmwareStatus p) s = .next (s.sameInputs ((s.accepted r).answer r 0
      (toLE 4 (s.regValue 0 0x20) ++ toLE 4 (s.regValue 0 0x24) ++ toLE 4 (s.regValue 0 0x28)))))

/-- Images that are written (R368, R382, R385). Stage, refused 0x54 during an update, takes an acceptable firmware image whose handoff
version fits into the slot that is not active, and only that; any other is answered 0x51 or 0x52. A recovery write takes an acceptable
recovery image under the same checks, a host image write any bytes in range; a write to the flash that fails is answered 0x56. An image is
acceptable only under a programmed key that is not revoked, at the least security version or above. -/
def Claims.ImageWrites : Prop :=
  (∀ (s : State) (p : Nat) (r : Req), s.accepts p 0x0043 r = true →
    let refused := fun (st : Nat) => ∀ k, exec (.stage p k) s = .next (s.sameInputs ((s.accepted r).answer r st []))
    (s.updating = true → refused 0x54) ∧
    (s.updating = false → s.messageImage r 512 0x1000000 = none → refused 0x51) ∧
    (∀ b, s.updating = false → s.messageImage r 512 0x1000000 = some b → acceptImage s.fuses 0 b = none → refused 0x51) ∧
    (∀ b i j, s.updating = false → s.messageImage r 512 0x1000000 = some b → acceptImage s.fuses 0 b = some i → s.fw.run = some j →
      Mem.wf flashDefault s.flash = true →
      (readsHandoff i j = false → refused 0x52) ∧
      (readsHandoff i j = true → exec (.stage p false) s = .next (s.sameInputs ((s.accepted r).answer r 0x56 []))) ∧
      (readsHandoff i j = true → ∃ t : State, exec (.stage p true) s = .next (s.sameInputs (t.answer r 0 [])) ∧
        t = { s.accepted r with flash := t.flash, fw := { s.fw with staged := some i, update := 2 }, xlt := t.xlt, free := t.free } ∧
        t.xlt = { s.xlt with cache := t.xlt.cache, misses := t.xlt.misses } ∧
        (s.directory.1.active = 0 → ∀ x, x < b.length → slotB + x < recoveryAt → memGet flashDefault t.flash (slotB + x) = b.getD x 0) ∧
        (s.directory.1.active ≠ 0 → ∀ x, x < b.length → slotA + x < slotB → memGet flashDefault t.flash (slotA + x) = b.getD x 0)))) ∧
  (∀ (s : State) (p : Nat) (r : Req), s.accepts p 0x0047 r = true →
    let refused := fun (st : Nat) => ∀ k, exec (.recoveryWrite p k) s = .next (s.sameInputs ((s.accepted r).answer r st []))
    (s.updating = true → refused 0x54) ∧
    (s.updating = false → s.messageImage r 512 0x800000 = none → refused 0x51) ∧
    (∀ b, s.updating = false → s.messageImage r 512 0x800000 = some b → acceptImage s.fuses 1 b = none → refused 0x51) ∧
    (∀ b i j, s.updating = false → s.messageImage r 512 0x800000 = some b → acceptImage s.fuses 1 b = some i → s.fw.run = some j →
      (readsHandoff i j = false → refused 0x52) ∧
      (readsHandoff i j = true →
        exec (.recoveryWrite p true) s = .next (s.sameInputs ((((s.accepted r).touchImage r).flashWrite recoveryAt b).answer r 0 [])) ∧
        exec (.recoveryWrite p false) s = .next (s.sameInputs ((s.accepted r).answer r 0x56 []))))) ∧
  (∀ (s : State) (p : Nat) (r : Req), s.accepts p 0x0033 r = true →
    (s.messageImage r 1 0x1000000 = none → ∀ k, exec (.hostImageWrite p k) s = .next (s.sameInputs ((s.accepted r).answer r 0x80 []))) ∧
    (∀ b, s.messageImage r 1 0x1000000 = some b →
      exec (.hostImageWrite p true) s = .next (s.sameInputs ((((s.accepted r).touchImage r).flashWrite hostImageAt b).answer r 0 [])) ∧
      exec (.hostImageWrite p false) s = .next (s.sameInputs ((s.accepted r).answer r 0x56 [])))) ∧
  (∀ (f : Fuses) (kind : Nat) (b : List Byte) (i : Image), acceptImage f kind b = some i →
    i.key = byteAt b 5 ∧ i.key < 4 ∧ f.keys.getD i.key [] ≠ [] ∧ f.revoked.getD i.key true = false ∧ f.minSec ≤ i.secVer ∧
      i.secVer = fld b 6 2 ∧ byteAt b 13 = kind ∧ sha384 ((b.drop 512).take (fld b 16 4)) = (b.drop 24).take 48)

/-- Fuses (R371). A key slot is revoked unless it is out of range, serves an image that the device runs or holds, or is the last usable
one, which is answered 0x57; the least security version rises, to at most that of each image, else 0x58. -/
def Claims.FuseMessages : Prop :=
  (∀ (s : State) (p : Nat) (r : Req), s.accepts p 0x0045 r = true →
    let k := byteAt r.body 0
    let good : Prop := k ≤ 3 ∧ fld r.body 1 3 = 0 ∧ (∀ i, i ∈ s.images → i.1 ≠ k) ∧ (List.range 4).filter (usableKey s.fuses) ≠ [k]
    (good → exec (.revokeKeySlot p) s = .next (s.sameInputs
      (({ s.accepted r with fuses := { s.fuses with revoked := s.fuses.revoked.set k true } } : State).answer r 0 []))) ∧
    (¬ good → exec (.revokeKeySlot p) s = .next (s.sameInputs ((s.accepted r).answer r 0x57 [])))) ∧
  (∀ (s : State) (p : Nat) (r : Req), s.accepts p 0x0046 r = true →
    let v := fld r.body 0 2
    let good : Prop := 1 ≤ v ∧ v ≤ 64 ∧ fld r.body 2 2 = 0 ∧ s.fuses.minSec < v ∧ ∀ i, i ∈ s.images → v ≤ i.2
    (good → exec (.advanceSecurityVersion p) s = .next (s.sameInputs
      (({ s.accepted r with fuses := { s.fuses with minSec := v } } : State).answer r 0 []))) ∧
    (¬ good → exec (.advanceSecurityVersion p) s = .next (s.sameInputs ((s.accepted r).answer r 0x58 []))))

/-- Activation (R386 to R389). It is answered 0x54 during an update and 0x50 with nothing staged; an emergency condition defers it, for at
most 10 s, after which it is answered 0x53 and the image stays staged; else the pause begins with a handoff block in both copies. A new
image that finds no copy it reads leaves the old one to resume. The takeover makes the staged image the running one, is answered 0x00 and
moves every heartbeat time later by the pause; the rollback is answered 0x55 and the old image runs on. -/
def Claims.Activation : Prop :=
  (∀ (s : State) (p : Nat) (r : Req), s.accepts p 0x0044 r = true →
    (s.updating = true → exec (.activate p) s = .next (s.sameInputs ((s.accepted r).answer r 0x54 []))) ∧
    (s.updating = false → s.fw.staged = none → exec (.activate p) s = .next (s.sameInputs ((s.accepted r).answer r 0x50 []))) ∧
    (s.updating = false → s.fw.staged ≠ none → s.emergency = true → exec (.activate p) s = .next (s.sameInputs
      ((s.accepted r).setFw (fun f => { f with actPair := some p, update := 3, deferAt := s.now, deferMs := 0 })))) ∧
    (s.updating = false → s.fw.staged ≠ none → s.emergency = false → ∃ t : State, exec (.activate p) s = .next (s.sameInputs t) ∧
      t = ((s.accepted r).setFw (fun f => { f with actPair := some p })).beginActivation ∧ t.fw.update = 4 ∧ t.firmwareActs = false)) ∧
  (∀ s : State, s.fwOn = true → s.fw.update = 3 →
    (s.emergency = false → ∃ t : State, exec .activationRecheck s = .next (s.sameInputs t) ∧ t.fw.update = 4 ∧ t.fw.pause = some s.now) ∧
    (s.emergency = true → s.now < s.fw.deferAt + 10000000000 → exec .activationRecheck s =
      .next (s.setFw (fun f => { f with deferMs := (s.now - s.fw.deferAt) / 1000000 }))) ∧
    (s.emergency = true → s.fw.deferAt + 10000000000 ≤ s.now → exec .activationRecheck s = .next (s.sameInputs
      (((s.setFw (fun f => { f with deferMs := 10000 })).setFw (fun f => { f with update := 2 })).answerActivate 0x53)))) ∧
  (∀ s : State, s.fw.update ≠ 3 → exec .activationRecheck s = .next s) ∧
  (∀ (s : State) (a : Nat) (i : Image), s.on = true → s.fw.update = 4 → s.fw.pause = some a → s.fw.staged = some i →
    s.health.heldFault = [] → s.handoffReads = true →
    ∃ t : State, exec .activationTakeover s = .next (s.sameInputs t) ∧ t.fw.run = some i ∧ t.fw.staged = none ∧ t.fw.update = 0 ∧
      t.fw.updated = true ∧ t.fw.bootPath = 1 - min s.directory.1.active 1 ∧
      (∀ f, (t.func f).beat = (s.func f).beat.map (· + (s.now - a))) ∧ t.suites = s.suites ∧ t.cores = s.cores ∧ t.rings = s.rings ∧
      t.hbm = s.hbm ∧ t.xlt = s.xlt) ∧
  (∀ (s : State) (a : Nat) (i : Image), s.fw.pause = some a → s.fw.staged = some i → s.handoffReads = false →
    exec .activationTakeover s = exec .activationRollback s) ∧
  (∀ (s : State) (h : Handoff) (i j : Image), s.fw.handoff = some h → s.fw.staged = some i → s.fw.run = some j →
    (s.handoffReads = true ↔ readsHandoff i j = true ∧ ∃ c ∈ h.copies, s.copyReads h c = true)) ∧
  (∀ s : State, s.on = true → s.fw.update = 4 → s.health.heldFault = [] →
    ∃ t : State, exec .activationRollback s = .next (s.sameInputs t) ∧ t.fw.run = s.fw.run ∧ t.fw.update = 5 ∧ t.fw.rolled = true ∧
      t.suites = s.suites ∧ t.cores = s.cores ∧ t.rings = s.rings ∧ t.flash = s.flash) ∧
  (∀ s : State, s.fw.update ≠ 4 → exec .activationTakeover s = .next s ∧ exec .activationRollback s = .next s)

/-- The rescue (R370, R390). The boot ROM without an image answers a bad check 0xf0, a wrong length 0xf3, a length out of range 0x80 and an
image that is not acceptable 0x51; an acceptable recovery image of the rescue area runs from memory and brings the device up, with the
outcomes of the tests as operand; tests that find nothing write no retirement. Once firmware runs it is no event. -/
def Claims.RescueOutcomes : Prop :=
  (∀ (s : State) (p : Nat) (r₀ : TestResults), p < 64 → s.on = true → s.fw.run = none → s.fw.bootPath = 3 → (s.pair p).reqV = true → (s.pair p).due = none →
    let r := parseReq p (s.pair p).req
    r.type = 0x0048 →
    let n := fld r.body 0 4
    let image := (List.range n).map (fun i => s.hbmGet (frameKey s.rescueChan 0 * 4096 + i))
    let said := fun (t : State) (st : Nat) => exec (.rescue ⟨p, r₀⟩) s = .next (s.sameInputs ((t.take p).deliver p (t.replyBytes r st [])))
    (r.crcOk = false → said s 0xf0) ∧ (r.crcOk = true → r.len ≠ 4 → said s 0xf3) ∧
    (r.crcOk = true → r.len = 4 → (n < 512 ∨ 0x800000 < n) → said s 0x80) ∧
    (r.crcOk = true → r.len = 4 → 512 ≤ n → n ≤ 0x800000 → acceptImage s.fuses 1 image = none → said s 0x51) ∧
    (∀ i, r.crcOk = true → r.len = 4 → 512 ≤ n → n ≤ 0x800000 → acceptImage s.fuses 1 image = some i →
      ∃ t : State, said t 0 ∧ t.fw.run = some i ∧ t.health.phase = 1 ∧ t.hbm = s.hbm ∧
        (r₀.pcs = [] → r₀.d2dLanes = [] → r₀.lanes = [] → r₀.shelves = [] → r₀.cores = [] → t.flash = s.flash))) ∧
  (∀ (s : State) (p : Nat) (r₀ : TestResults), p < 64 → s.fw.run ≠ none → exec (.rescue ⟨p, r₀⟩) s = .next s)

/-! ## Supply, heat and faults -/

/-- Supply points (R396, R397). A window moves the point by at most 100 mV to its target, and the new target rises by 20 mV for a busy
cluster, falls by 10 mV for an idle one, keeps between floor and ceiling and below every hardware ceiling, and is the floor when no suite
holds a core of the cluster. -/
def Claims.SupplyPoints : Prop :=
  (∀ (s : State) (x busy : Nat), s.on = true → x < 8 → busy ≤ 1000 → clusterFitted s.fuses.grade x = true → (s.cluster x).powered = true →
    x < s.clusters.length → ∃ t : State, exec (.regulatorWindow x busy) s = .next t ∧ t = { s with clusters := t.clusters } ∧
      (∀ y, y ≠ x → t.cluster y = s.cluster y) ∧
      (s.cluster x).point ≤ (t.cluster x).point + 100 ∧ (t.cluster x).point ≤ (s.cluster x).point + 100 ∧
      ((s.cluster x).target ≤ (s.cluster x).point + 100 → (s.cluster x).point ≤ (s.cluster x).target + 100 →
        (t.cluster x).point = (s.cluster x).target) ∧
      (t.cluster x).target ≤ (s.cluster x).ceil ∧ (t.cluster x).target ≤ s.fuses.vmax ∧ (t.cluster x).target ≤ (s.cluster x).curCeil ∧
      (s.clusterUsed x = true → 750 ≤ busy → (s.cluster x).floor ≤ (s.cluster x).target + 20 →
        (s.cluster x).target + 20 ≤ (s.cluster x).ceil → (s.cluster x).target + 20 ≤ s.hwCeil x →
        (t.cluster x).target = (s.cluster x).target + 20) ∧
      (s.clusterUsed x = true → busy ≤ 250 → (s.cluster x).floor ≤ (s.cluster x).target - 10 →
        (s.cluster x).target - 10 ≤ (s.cluster x).ceil → (s.cluster x).target - 10 ≤ s.hwCeil x →
        (t.cluster x).target = (s.cluster x).target - 10) ∧
      (s.clusterUsed x = false → (s.cluster x).floor ≤ (s.cluster x).ceil → (s.cluster x).floor ≤ s.hwCeil x →
        (t.cluster x).target = (s.cluster x).floor)) ∧
  (∀ (s : State) (x busy : Nat), x < 8 → busy ≤ 1000 → (clusterFitted s.fuses.grade x = false ∨ (s.cluster x).powered = false) →
    exec (.regulatorWindow x busy) s = .next s)

/-- Power and heat limits (R399 to R402). Package power above 220 W for 100 µs starts the current ceiling, which is counted and logged,
and 1 ms at or below 200 W ends it; a die's throttle starts at 105 °C, or at a stack of 100 °C, and ends at 100 °C with every stack below
95 °C; at 115 °C both compute dies switch off and a fault is raised; all sensors at 95 °C or below end the wait after a trip; and
THERMTRIP_N is asserted from 125 °C of the hub die until power-good falls. -/
def Claims.HardwareLimits : Prop :=
  (∀ (s : State) (w : Nat), s.on = true → ∃ t : State, exec (.powerSense w) s = .next (s.sameInputs t) ∧ t.power.readings = (w :: s.power.readings).take 100 ∧
    t.power.energy = s.power.energy + w ∧
    (s.power.current = false →
      (t.power.current = true ↔ 2200 < w ∧ s.power.overFrom.getD s.now + 100000 ≤ s.now) ∧
      (t.power.current = true → t.power.curEvents = min (s.power.curEvents + 1) 0xffffffff)) ∧
    (s.power.current = true → (t.power.current = false ↔ w ≤ 2000 ∧ s.power.underFrom.getD s.now + 1000000 ≤ s.now))) ∧
  (∀ (s : State) (r : Temps), s.on = true → ∃ t : State, exec (.thermalSense r) s = .next (s.sameInputs t) ∧
    t.power.die0 = r.die0 ∧ t.power.die1 = r.die1 ∧ t.power.hub = r.hub ∧ t.power.hubHot = decide (105 < r.hub) ∧
    (s.power.thr0 = false → (t.power.thr0 = true ↔ 105 ≤ r.die0 ∨ ∃ c ∈ s.stackTemps, 100 ≤ c)) ∧
    (s.power.thr1 = false → (t.power.thr1 = true ↔ 105 ≤ r.die1 ∨ ∃ c ∈ s.stackTemps, 100 ≤ c)) ∧
    (s.power.thr0 = true → (t.power.thr0 = false ↔ r.die0 ≤ 100 ∧ ∀ c ∈ s.stackTemps, c < 95)) ∧
    (115 ≤ r.die0 → s.power.die0 < 115 → t.power.trip = true ∧ ∀ x, (t.cluster x).powered = false) ∧
    (r.die0 < 115 → r.die1 < 115 → t.power.trip = s.power.trip)) ∧
  (∀ (s : State) (r : Temps), s.on = true → s.power.trip = true →
    (r.die0 ≤ 95 → r.die1 ≤ 95 → (∀ c ∈ r.clusters, c ≤ 95) → s.reseating = true → exec (.tripCooldown r) s = .next (s.sameInputs
      ((s.setPower (fun w => { w with trip := false, die0 := r.die0, die1 := r.die1, hub := r.hub })).setHealth (fun h =>
        { h with reseatAt := some s.now })))) ∧
    ((95 < r.die0 ∨ 95 < r.die1 ∨ ∃ c ∈ r.clusters, 95 < c) → exec (.tripCooldown r) s = .next s)) ∧
  (∀ (s : State) (r : Temps), s.power.trip = false → exec (.tripCooldown r) s = .next s) ∧
  (∀ (s : State) (c : Int), s.on = true →
    (125 ≤ c → exec (.thermtrip c) s = .next (s.setPower (fun w => { w with thermPin := false, hub := c }))) ∧
    (c < 125 → exec (.thermtrip c) s = .next s))

/-- Faults (R416, R421 to R423, R427). A fault of a ready device is counted, logged and reported; outside a live-update pause every suite
becomes free and the compute complex reseats, and during one the fault is held. Corrected errors are counted and raise nothing. Before
ready, and after a hub fault, nothing is raised. A hub fault frees every suite and powers the compute dies off for good. -/
def Claims.FaultOutcomes : Prop :=
  (∀ (s : State) (x : Nat), s.on = true → s.ready = true → s.health.hubFault = false →
    let raised := fun (c : Instr) (cause unit : Nat) => ∃ t : State, exec c s = .next (s.sameInputs t) ∧ t.health.cause = cause ∧
      t.health.unit = unit ∧ t.health.faults = min (s.health.faults + 1) 0xffffffff ∧
      (s.fw.update ≠ 4 → s.reseating = false → t.health.phase = 5 ∧ t.health.reseatAt = some s.now ∧
        t.health.reseats = min (s.health.reseats + 1) 0xffffffff ∧ (s.suites.length = 32 → ∀ k, (t.suite k).st = 0) ∧ t.flight = [] ∧ t.shelf = []) ∧
      (s.fw.update = 4 → t.suites = s.suites ∧ t.cores = s.cores ∧ t.health.phase = s.health.phase ∧
        t.health.heldFault = s.health.heldFault ++ [{ cause := cause, unit := unit, frame := 0 }])
    (x < 2 → raised (.d2dReplayLimit x) 6 x) ∧
    (x < 8 → clusterFitted s.fuses.grade x = true → (s.cluster x).powered = true → raised (.regulatorFault x) 7 x) ∧
    (x < 40 → s.usable x = true → raised (.scrub (.coreStore x) true) 2 x) ∧
    (x < 8 → clusterFitted s.fuses.grade x = true → (s.cluster x).absent = false → raised (.scrub (.shelf x) true) 3 x)) ∧
  (∀ (s : State) (x : Nat), s.on = true → s.ready = false ∨ s.health.hubFault = true → x < 2 → exec (.d2dReplayLimit x) s = .next s) ∧
  (∀ (s : State) (x : Nat), s.on = true →
    (x < 40 → s.usable x = true → exec (.scrub (.coreStore x) false) s =
      .next (s.setPhys x (fun p => { p with corrected := min (p.corrected + 1) 0xffffffff }))) ∧
    (x < 8 → clusterFitted s.fuses.grade x = true → (s.cluster x).absent = false → exec (.scrub (.shelf x) false) s =
      .next (s.setCluster x (fun c => { c with corrected := min (c.corrected + 1) 0xffffffff }))) ∧
    exec (.scrub .hubCopy true) s = .next (s.setHealth (fun h => { h with repairs := min (h.repairs + 1) 0xffff })) ∧
    exec (.scrub .hubCopy false) s = .next s) ∧
  (∀ (s : State) (a w : Nat), s.on = true →
    (s.health.hubFault = false → ∃ t : State, exec (.hubFault a w) s = .next (s.sameInputs t) ∧ t.health.hubFault = true ∧
      (s.suites.length = 32 → ∀ k, (t.suite k).st = 0) ∧ (∀ x, (t.cluster x).powered = false) ∧ t.firmwareActs = false) ∧
    (s.health.hubFault = true → exec (.hubFault a w) s = .next s))

/-- Ready and the end of a reseat (R413 to R418). The device becomes ready with the usable cores of each cluster in its logical numbers;
without a pseudo-channel, without a core or on a recovery image it is out of service for good in this run, with the reason, and without a
host attachment, a trained USB link or in PCIe mode a trained PCIe link, it waits. A reseat ends when its tests have, with the numbers that
remain and a notice, and waits during a trip. -/
def Claims.ReadyOutcomes : Prop :=
  (∀ (s : State) (host : Bool), s.fwOn = true → s.health.phase = 1 →
    let has := s.presentChans ≠ []
    let some_ := presentMask s.fillAll ≠ 0
    (¬ has → ∃ t : State, exec (.ready host) s = .next (s.sameInputs t) ∧ t.health.phase = 6 ∧ t.health.reason = 1) ∧
    (has → ¬ some_ → ∃ t : State, exec (.ready host) s = .next (s.sameInputs t) ∧ t.health.phase = 6 ∧ t.health.reason = 2) ∧
    (has → some_ → s.recovery = true → ∃ t : State, exec (.ready host) s = .next (s.sameInputs t) ∧ t.health.phase = 6 ∧
      t.health.reason = 3) ∧
    let attached : Prop := host = true ∨ (s.fw.attach = 0 ∧ s.fw.linkUp = true)
    (has → some_ → s.recovery = false → ¬ attached → exec (.ready host) s = .next s) ∧
    (has → some_ → s.recovery = false → attached → s.fw.attach ≠ 2 → ∃ t : State, exec (.ready host) s = .next (s.sameInputs t) ∧
      t.health.phase = 4 ∧ t.health.cores = s.fillAll ∧ t.health.present = presentMask s.fillAll ∧
      t.health.readyMs = min (s.now / 1000000) 0xffff ∧ t.suites = s.suites ∧ t.hbm = s.hbm)) ∧
  (∀ (s : State) (host : Bool), s.health.phase ≠ 1 → exec (.ready host) s = .next s) ∧
  (∀ (s : State) (r : TestResults) (e : Nat), (s.reseating = false ∨ s.firmwareActs = false ∨ s.power.trip = true) →
    exec (.reseatReady r e) s = .next s) ∧
  (∀ (s : State) (r : TestResults) (e : Nat), s.reseating = true → s.firmwareActs = true → s.power.trip = false →
    ∃ t : State, exec (.reseatReady r e) s = .next (s.sameInputs t) ∧ t.reseating = false ∧ t.health.units = [] ∧
      t.health.present = presentMask t.health.cores ∧ (t.health.phase = 4 ∨ t.health.phase = 6) ∧
      (t.health.phase = 4 → t.health.present ≠ 0 ∧ t.fab.epoch = e))

/-! ## Numbered rules that a statement holds whole -/

/-- Sequence numbers of a pair (R379), for a request that the earlier checks pass and that is no negotiation: the last accepted number
plus 1, modulo 2^16, is accepted; the last accepted one is a repeat, whose kept reply is sent again without acting; any other is answered
0xf4 with the expected number in bytes 4 and 5. A negotiation sets the last number to its own. A pair whose kept reply is gone (an FLR
empties it, log entry 46) holds no repeat. -/
def Obligations.SequenceNumbers : Prop :=
  (∀ (s : State) (r : Req), let x := s.pair r.pair
    r.crcOk = true → r.type ≠ 1 → x.major ≠ 0 → r.major = x.major → r.minor ≤ x.minor → r.seq < 65536 → x.lastSeq < 65536 →
    (r.seq = (x.lastSeq + 1) % 65536 → s.verdict r ≠ .again ∧ (∀ e, s.verdict r ≠ .refuse 0xf4 e)) ∧
    (r.seq = x.lastSeq → x.stored ≠ [] → s.verdict r = .again) ∧
    (r.seq = x.lastSeq → x.stored = [] → s.verdict r = .refuse 0xf4 (toLE 2 ((x.lastSeq + 1) % 65536))) ∧
    (r.seq ≠ x.lastSeq → r.seq ≠ (x.lastSeq + 1) % 65536 → s.verdict r = .refuse 0xf4 (toLE 2 ((x.lastSeq + 1) % 65536)))) ∧
  (∀ (s : State) (r : Req), r.pair < s.pairs.length → ((s.accepted r).pair r.pair).lastSeq = r.seq) ∧
  (∀ (i : Instr) (p : Nat) (s : State) (r : Req), messagePair i = some p → p < 64 → s.on = true → s.request p = some r →
    messageRow i r = true → s.verdict r = .again →
    exec i s = .next (s.sameInputs ((s.take p).deliver p (s.pair p).stored))) ∧
  (∀ (s : State) (r : Req) (e : List Byte), ∃ h, s.replyBytes r 0xf4 (toLE 2 ((s.pair r.pair).lastSeq + 1) ++ e) =
    h ++ [0xf4, 0, 0, 0] ++ toLE 2 ((s.pair r.pair).lastSeq + 1) ++ e ∧ h.length = 16) ∧
  (∀ (s : State) (p m : Nat) (r : Req), s.accepts p 0x0001 r = true → listedMinor r.body = some m → p < s.pairs.length →
    ∃ t : State, exec (.versionNegotiation p) s = .next t ∧ (t.pair p).lastSeq = r.seq)

/-- The digest of a load (R230). When it differs from the trailer the load is refused with status 0x60, no core, cluster or shelf is
written, and the suite returns to state 1; the digest of a loaded image is kept, and an attestation of the suite shows it. -/
def Obligations.DigestMismatch : Prop :=
  (∀ (s : State) (k : Nat) (l : Load), k < 32 → k < s.suites.length → s.fwOn = true → s.fw.update ≠ 4 → (s.suite k).st = 2 →
    (s.suite k).load = some l → l.phase = 0 → l.pair < s.pairs.length → (s.pair l.pair).busy = true →
    let image := s.devRead l.addr l.len
    let d := sha384 (image.take (l.len - 48))
    (d ≠ image.drop (l.len - 48) → ∃ t : State, exec (.loadDigestDone k) s = .next t ∧ (t.suite k).st = 1 ∧ (t.suite k).load = none ∧
      t.cores = s.cores ∧ t.clusters = s.clusters ∧ t.shelf = s.shelf ∧ t.flight = s.flight ∧ (t.suite k).prog = (s.suite k).prog ∧
      ∃ h e, (t.pair l.pair).stored = h ++ [0x60, 0, 0, 0] ++ e ∧ h.length = 16) ∧
    (d = image.drop (l.len - 48) → ∃ t : State, exec (.loadDigestDone k) s = .next t ∧ (t.suite k).digest = d ∧ (t.suite k).st = 2)) ∧
  (∀ (s : State) (k : Nat), (s.suite k).prog.isSome = true →
    ((s.attestSuite k).drop 16) = padTo 48 (s.suite k).digest)

/-- The signals of an event-log entry (R434). A new entry raises vector 1 of function 0 and, when its function field names a virtual
function, vector 1 of that function, sent at once or held while no interrupt can leave; and a virtual function reads 0 in the log. -/
def Obligations.LogSignals : Prop :=
  (∀ (s : State) (code cls fn suite kind unit a b c : Nat), s.funcs.length = 17 → fn < 256 →
    let t := s.logE code cls fn suite kind unit a b c
    let signalled := fun (f : Nat) => if s.irqOpen f = true then (f, 1) ∈ t.out.irqs else 1 ∈ (t.func f).held
    signalled 0 ∧ (1 ≤ fn → fn ≤ 16 → signalled fn)) ∧
  (∀ (s : State) (f o : Nat), f ≠ 0 → 0x1100000 ≤ o → o < 0x1200000 → s.regValue f o = 0)

/-! ## Every command completes -/

/-- Commands of suites and their cores complete (R138, R155, R181, R186, R238 to R240, R245 to R266, R416). Each of STALL_WATCHDOG_EXPIRY,
WAIT_SATISFIED, WALK_GUARD_SATISFIED, RESEAT_READY, RING_SETUP, RING_DOORBELL, DISPATCH_ENTRY, COMPLETION_ENTRY_WRITE, STEP_ASSEMBLY,
HEARTBEAT_TIMEOUT, ADOPT and ALLOCATION answers the next state of its own effect under conditions on the state and its operands alone: a
stalled suite halts, issue goes on past its wait, a walk whose guards are satisfied forms its next entry, the device is ready again, a
ring stands, a doorbell moves an index, an entry starts its first kernel, a completion entry is written, a step is dispatched, a silent
function is an orphan, the buffer receives the records, and a function has its allocation. -/
def Obligations.SuiteCommandsComplete : Prop :=
  (∀ (s : State) (k : Nat), k < 32 → s.on = true → (s.suite k).st = 4 → s.kernelOver k = false →
    (s.suite k).stallFrom + (s.suite k).stall * 1000 ≤ s.now → k < s.suites.length →
    ∃ t : State, exec (.stallWatchdogExpiry k) s = .next t ∧ (t.suite k).st = 5 ∧ (t.suite k).cause = 2) ∧
  (∀ (s : State) (n k no idx v : Nat) (f : FlagName), s.on = true → n < 32 → s.runningSuite n = some k → (s.suite k).st = 4 →
    (s.core n).seq.hold = some (no, idx, f, v) → flagMet (s.flagValue f) v = true → (s.core n).seq.flow = [] →
    exec (.waitSatisfied n) s = .next (s.sameInputs
      ((s.setSeq n (fun q => { (q.goto (q.pc + 1)) with hold := none })).handshake k))) ∧
  (∀ (s t : State) (n k : Nat) (i : Issued) (o : StWalkOp) (r q : WalkRun) (p : WalkPlan), s.on = true → n < 32 → o.unit < 4 →
    s.runningSuite n = some k → (s.suite k).st = 4 → (s.core n).seq.hold = none → (s.core n).seq.flow = [.work i] → i.instr = .stWalk o →
    i.met = true → (s.core n).walks.getD o.unit none = some r → r.spec = false → r.ready = [] → s.runPlan k r = some p →
    r.mayFetch p = true → s.fetchVisits k n p r p.pass = (t, q, .none) →
    exec (.walkGuardSatisfied n o.unit) s = .next (s.sameInputs ((t.setWalk n o.unit (some q)).settleFor k n 16))) ∧
  (∀ (s : State) (k n v w : Nat) (p : WalkPlan) (sh : List ShVal) (f : FlagName) (g : GuardRec),
    p.guardTarget sh g v = some w → guardFlag g = some f → flagMet (s.flagValue f) w = true →
    s.tryGuard k n p sh none g v = .inl (s.handshake k)) ∧
  (∀ (s : State) (r : TestResults) (e : Nat), s.reseating = true → s.firmwareActs = true → s.power.trip = false →
    ∃ t : State, exec (.reseatReady r e) s = .next t ∧ t.reseating = false ∧ (t.health.phase = 4 ∨ t.health.phase = 6) ∧
      (t.health.phase = 4 → t.health.present ≠ 0 ∧ t.fab.epoch = e)) ∧
  (∀ (s : State) (p : Nat) (r : Req), s.accepts p 0x0014 r = true →
    let n := fld r.body 0 2
    let g : Ring := { ringOf r.fn r.body with rejected := s.ringRejected n, media := ((s.ring? n).map Ring.media).getD false }
    s.ownsRing r.fn n = true → (∀ o, s.ring? n = some o → o.owner = r.fn ∧ o.suite = none) → ringRange r.body = true → 16 ≤ g.base →
    s.inFn r.fn (g.base - 16) (16 + 2 ^ (g.slotLog + g.cntLog)) = true →
    exec (.ringSetup p) s = .next (s.sameInputs
      (({ s.accepted r with rings := aSet s.rings n g, ringRejects := s.ringRejects.filter (· != n) } : State).answer r 0 []))) ∧
  (∀ (s : State) (f rn v : Nat) (r : Ring), s.on = true → f < 17 → rn < 65536 → v < M32 → s.ring? rn = some r → r.owner = f →
    ((r.kind = 0 ∧ (s.func f).orphan = false) ∨ r.kind = 3) → (v + M32 - r.c) % M32 ≤ r.slots →
    exec (.ringDoorbell f rn v) s = .next (s.sameInputs ((s.setRing rn (fun x => { x with p := v })).ringFlag rn
      (if (v + M32 - r.p) % M32 ≤ r.slots then (v + M32 - r.p) % M32 else 0)))) ∧
  (∀ (s : State) (k : Nat) (r : Ring), k < 32 → s.suiteIdle k = true → (s.suite k).started = false → (s.suite k).assembled = false →
    s.ring? (s.suite k).subRing = some r → r.held ≠ 0 → r.stopped = false → s.ringReads r (r.slotAddr r.c) 256 = true →
    let e := parseEntry (s.devRead (r.slotAddr r.c) 256)
    let t := s.touchPins e.recs (s.touchAll (r.slotAddr r.c) 256)
    t.badEntry k e = false → e.recs.all t.pinHolds = true → t.resvFits k e.resv = true →
    exec (.dispatchEntry k) s = .next (s.sameInputs
      (((t.reserve k e.resv).setSuite k (fun x => { x with
        disp := some { isStep := false, index := r.c, first := e.first, last := e.last, kernel := e.first, words := e.words,
                       notify := decide (e.flags = 1), resv := e.resv,
                       pins := e.recs.map (fun p => { ring := p.1, index := p.2.1 }), done := 0 } })).beginRun k e.first))) ∧
  (∀ (s : State) (rn : Nat) (c : Comp) (r : Ring), s.on = true → rn < 65536 → s.comps.find? (fun c => c.ring = rn) = some c →
    s.ring? rn = some r → r.free ≠ 0 → r.stopped = false → s.firmwareActs = true → s.ringWrites r (r.slotAddr r.p) 32 = true →
    c.after = .none →
    exec (.completionEntryWrite rn) s = .next (s.sameInputs (({ s with comps := s.comps.erase c } : State).ringAppend rn c.bytes))) ∧
  (∀ (s : State) (k : Nat), k < 32 → s.suiteIdle k = true → (s.suite k).batching = true → (s.suite k).lastStep < (s.suite k).kernels →
    (s.suite k).started = false → (s.suite k).assembled = true → s.resvFits k (s.suite k).stepResv = true →
    let x := s.suite k
    exec (.stepAssembly k) s = .next (s.sameInputs (((s.reserve k x.stepResv).setSuite k (fun y =>
      { y with stepNo := y.stepNo + 1, assembled := false,
               disp := some { isStep := true, index := x.stepNo % M32, first := x.firstStep, last := x.lastStep, kernel := x.firstStep,
                              words := stepWords x.stepBuf x.stepNo x.rows, notify := false, resv := x.stepResv, pins := [],
                              done := 0 } })).beginRun k x.firstStep))) ∧
  (∀ (s : State) (f b : Nat), f < 17 → s.firmwareActs = true → (s.func f).beat = some b → (s.func f).orphan = false →
    b + 300000000 ≤ s.now →
    exec (.heartbeatTimeout f) s = .next (s.sameInputs
      (((s.setFunc f (fun x => { x with orphan := true })).logE 0x0030 0 f 0xff 0 0 (b % M32) (b / M32) 0).dueEvent f 0x01))) ∧
  (∀ (s : State) (p : Nat) (r : Req), s.accepts p 0x0003 r = true →
    let a := fld r.body 0 8
    let n := fld r.body 8 4
    let recs := (s.ringsOf r.fn).flatMap ringRecord ++ (s.suitesOf r.fn).flatMap s.suiteRecord
    a % 16 = 0 → 65536 ≤ n → n ≤ 2097152 → n % 16 = 0 → fld r.body 12 4 = 0 → s.inFn r.fn a n = true → recs.length ≤ n →
    s.writable a recs.length = true → (s.func r.fn).orphan = false →
    exec (.adopt p) s = .next (s.sameInputs (((s.accepted r).hubWrite a recs).answer r 0
      (toLE 4 (s.ringsOf r.fn).length ++ toLE 4 (s.suitesOf r.fn).length)))) ∧
  (∀ (s : State) (p : Nat) (r : Req), s.accepts p 0x0010 r = true → allocRange r.body = true →
    s.allocOverlaps (byteAt r.body 0) (allocOf r.body) = false → s.allocWithdraws (byteAt r.body 0) (allocOf r.body) = false →
    exec (.allocation p) s = .next (s.sameInputs
      (((s.accepted r).setFunc (byteAt r.body 0) (fun x => { x with alloc := allocOf r.body })).answer r 0 [])))

/-- Commands of the registers, the time base and the memory complete (R13, R287, R289, R291 to R294, R302, R344, R349 to R352, R362, R405).
Each of LATCHING_READ, READ_CLEAR, REGISTER_WRITE, TS_INCR_WRITE, TS_STEP, TS_STEP_ABSORBED, LANE_MODE_WRITE, CL_BOUNDS_WRITE,
AGE_LIMIT_WRITE, REFCLK_EDGE, PPS_IN_EDGE, PPS_HOLDOVER, PPS_OUT, MAP, TRANSLATION_DRAIN_COMPLETE, WINDOW_CREATE, WINDOW_DELETE,
WINDOW_SET_SUITE_MASK, BAR2_READ, BAR2_WRITE, MEM_REQUEST, MEM_SCHEDULE, AGE_PROMOTION, REFRESH and STACK_TEMP_READ answers the next state
of its own effect under conditions on the state and its operands alone. -/
def Obligations.RegisterAndMemoryCommandsComplete : Prop :=
  (∀ (s : State) (f o : Nat), s.on = true → f < 17 → ∃ t : State, exec (.latchingRead f ⟨o, 4⟩) s = .next t ∧
    exec (.readClear f ⟨o, 4⟩) s = .next t ∧ t.out.word = BitVec.ofNat 32 (s.regValue f o)) ∧
  (∀ (s : State) (f o v : Nat), s.on = true → f < 17 → exec (.registerWrite f ⟨o, 4⟩ v) s = .next (s.sameInputs (s.writeReg f o v)) ∧
    exec (.registerWrite f ⟨0x80, 4⟩ v) s = .next (s.setFunc f (fun x => { x with tdcProbe := v % 32 }))) ∧
  (∀ (s : State) (v : Nat), s.on = true → s.ts.source ≠ 1 → exec (.tsIncrWrite 0 v) s =
    .next (s.setTs (fun t => { t with incInt := v % 256, inc := v % 256 * M32 + t.shadow }))) ∧
  (∀ (s : State) (v : Nat), s.on = true → s.ts.stepping = false → v ≤ 1000000000 →
    exec (.tsStep 0 v) s = .next (s.setTs (fun t => { t with stepAdd := t.stepAdd + v }))) ∧
  (∀ s : State, s.on = true → s.ts.absorb = 0 → exec .tsStepAbsorbed s = .next (s.setTs (fun t => { t with stepping := false }))) ∧
  (∀ (s : State) (v : Nat), s.on = true → v < 32 → (∀ p, p < 2 → changesPair s.fab.mode v p = true → s.pairUsed p = false) →
    ∃ t : State, exec (.laneModeWrite 0 v) s = .next t ∧ t.fab.mode = v) ∧
  (∀ (s : State) (x v : Nat), s.on = true → x < 8 → 600 ≤ bits v 9 0 → bits v 9 0 ≤ bits v 25 16 → bits v 25 16 ≤ 850 →
    exec (.clBoundsWrite 0 x v) s =
      .next (s.setCluster x (fun c => { c with floor := floor10 (bits v 9 0), ceil := floor10 (bits v 25 16) }))) ∧
  (∀ (s : State) (v : Nat), s.on = true → 1 ≤ v → v ≤ 64 →
    exec (.ageLimitWrite 0 v) s = .next (s.setXlt (fun x => { x with ageLimit := v }))) ∧
  (∀ s : State, s.on = true → s.ts.stepAdd = 0 → s.ts.stepping = false → s.ts.frac < M32 → ∃ t : State,
    exec (.refclkEdge none) s = .next t ∧ t.ts.count = (s.ts.count + (s.ts.frac + s.ts.rate) / M32) % 0x10000000000000000) ∧
  (∀ s : State, s.on = true → s.ts.servoOn = true → ∃ t : State, exec .ppsInEdge s = .next t ∧
    t.ts.ppsError = secondError s.ts.count ∧ t.ts.holdover = false) ∧
  (∀ (s : State) (a : Nat), s.on = true → s.ts.ppsLast = some a → s.ts.servoOn = true → a + 1100000000 ≤ s.ts.count →
    exec .ppsHoldover s = .next (s.setTs (fun t => { t with holdover := true, locked := false, ppsGood := 0 }))) ∧
  (∀ s : State, s.on = true → s.ts.ppsOutOn = true → s.ts.count % 1000000000 < 100000 →
    ∃ t : State, exec .ppsOut s = .next t ∧ t.ts.ppsPin = true) ∧
  (∀ (s : State) (p : Nat) (r : Req), s.accepts p 0x0018 r = true →
    let v := fld r.body 0 4
    let n := fld r.body 4 4
    byteAt r.body 16 = 1 → v < 0x1000000 → 1 ≤ n → v + n ≤ 0x1000000 → fld r.body 17 7 = 0 → s.mapChecks r.fn v n [] = none →
    ∃ t : State, exec (.map p) s = .next t ∧ (∀ q, v ≤ q → q < v + n → t.xentry q = .invalid 0 ∧ t.cached q = false) ∧
      (∀ q, (q < v ∨ v + n ≤ q) → t.xentry q = s.xentry q)) ∧
  (∀ (s : State) (p : Nat), p < 64 → s.firmwareActs = true → s.xlt.drains.any (fun d => d.pair = p) = true →
    (∀ d ∈ s.xlt.drains, d.pair = p → s.drained d = true) →
    exec (.translationDrainComplete p) s = .next (s.sameInputs
      ((s.setXlt (fun x => { x with drains := x.drains.filter (fun d => d.pair != p) })).answerLate p 0
        (if (parseReq p (s.pair p).asked).type = 0x0018 then toLE 4 0 else [])))) ∧
  (∀ (s : State) (p : Nat) (r : Req), s.accepts p 0x0015 r = true →
    let b := r.body
    let n := fld b 2 2
    n ≤ 1023 →
    (byteAt b 0 = 0 → r.fn = 0 → aGet s.xlt.windows n = none →
      s.xlt.windows.any (fun w => overlapN w.2.first w.2.count (fld b 4 4) (fld b 8 4) != 0) = false → windowRange 0 b = true →
      exec (.windowCreate p) s = .next (s.sameInputs (((s.accepted r).setXlt (fun x => { x with
        windows := aSet x.windows n { first := fld b 4 4, count := fld b 8 4, owner := byteAt b 12, mask := fld b 16 4 } })).answer r 0 []))) ∧
    (∀ w, byteAt b 0 = 1 → r.fn = 0 → aGet s.xlt.windows n = some w → s.windowHasRing w = false → windowRange 1 b = true →
      exec (.windowDelete p) s = .next (s.sameInputs
        (((s.accepted r).setXlt (fun x => { x with windows := aErase x.windows n })).answer r 0 []))) ∧
    (∀ w, byteAt b 0 = 2 → aGet s.xlt.windows n = some w → w.owner = r.fn → windowRange 2 b = true →
      let pages := (List.range w.count).map (· + w.first)
      exec (.windowSetSuiteMask p) s = .next (s.sameInputs
        ((((s.accepted r).setXlt (fun x => { x with windows := aMod x.windows n (fun w => { w with mask := fld b 16 4 }) })).uncache
          pages).setXlt (fun x => { x with drains := x.drains ++
            [{ pair := r.pair, at_ := s.now, old := pages.map (fun v => (v, s.xentry v)) }] }))))) ∧
  (∀ (s : State) (f a n : Nat), s.on = true → f < 17 → a + n ≤ 0x1000000000 → s.bar2Open f a n = true →
    ∃ t : State, exec (.bar2Read f a ⟨n, .ok⟩) s = .next t ∧ t.out.data = s.bar2Bytes f a n ∧ t.out.abort = false) ∧
  (∀ (s : State) (f a : Nat) (b : Byte), s.on = true → f < 17 → a + 1 ≤ 0x1000000000 → s.bar2Open f a 1 = true →
    s.bar2Page f (a / 4096) true = true → Mem.wf hbmDefault s.hbm = true →
    ∃ t : State, exec (.bar2Write f a [b]) s = .next t ∧ t.devGet a = b) ∧
  (∀ (s : State) (r : MemReq) (f p : Nat) (w : Bool), s.on = true → r.addr < 0x1000000000 → r.cls < 4 →
    s.xentry (r.addr / 4096) = .hbm f p w → s.present p = true → f < 196608 → s.cached (r.addr / 4096) = true → r.write = false →
    queuedWrite (s.chan p) (f * 64 + r.addr % 4096 / 64) = none → (s.chan p).rq.length < 128 →
    exec (.memRequest r) s = .next (s.setChan p (fun d => { d with
      rq := d.rq ++ [{ who := r.who, sector := f * 64 + r.addr % 4096 / 64, cls := r.cls, at_ := s.now, spec := r.spec, aged := false,
                       held := false }] }))) ∧
  (∀ (s : State) (p : Nat) (k : SchedCand), s.on = true → s.present p = true → (s.chan p).trained = true →
    firstSched ((s.promote p).chan p).candidates = some k → k.sector < 12582912 → Mem.wf hbmDefault s.hbm = true →
    k.write = false → (s.chan p).waiting = [] →
    ∃ t : State, exec (.memSchedule p .ok) s = .next t ∧ t.hbm = s.hbm ∧ (t.chan p).rq.length + 1 = (s.chan p).rq.length) ∧
  (∀ (s : State) (p : Nat), s.on = true → s.present p = true → ∃ t : State, exec (.agePromotion p) s = .next t ∧
    (∀ r, r ∈ (t.chan p).rq → s.now > r.at_ + 1000 * s.xlt.ageLimit → r.aged = true)) ∧
  (∀ (s : State) (p : Nat), s.on = true → s.present p = true → (s.chan p).trained = true → (s.chan p).nextRef ≤ 16 * s.now →
    exec (.refresh p) s = .next (s.setChan p (fun c => { c with
      openRow := [], nextRef := c.nextRef + (if s.xlt.stackFast.getD (p / 32) false = true then 31200 else 62400) }))) ∧
  (∀ (s : State) (k : Nat) (c : Int), s.on = true → k < 2 → 32 * k < s.n0 → k < s.xlt.stackTemp.length → k < s.xlt.stackFast.length →
    ∃ t : State, exec (.stackTempRead k c) s = .next t ∧ t.xlt.stackTemp = s.xlt.stackTemp.set k c)

/-- Commands of the cameras and the codecs complete (R305 to R331, R382, R426). Each of CONTEXT_SETUP, CONTEXT_PARAMETER, STOP_CONTEXT,
STOP_STREAM, STOP_SESSION, STOP_LOCK_GROUP, FRAME_START, LINE_ARRIVAL, FRAME_END, LINE_TIMEOUT, PORT_LOCK_LOSS, LOCK_GROUP_SETUP, TRIGGER,
TRIGGER_WINDOW_EXPIRY, DECODE_SETUP, BITSTREAM_ENTRY, BITSTREAM_ENTRY_CONSUMED, ENCODE_SETUP, ENCODE_JOB, ENCODE_JOB_COMPLETE and
CONTEXT_SLOT_ERROR answers the next state of its own effect under conditions on the state and its operands alone. -/
def Obligations.MediaCommandsComplete : Prop :=
  (∀ (s : State) (p : Nat) (lock : Bool) (bad : List Nat) (r : Req), s.accepts p 0x0020 r = true → s.ctxStatus r.fn r.body = 0 →
    ∃ t : State, exec (.contextSetup p ⟨lock, bad⟩) s = .next (s.sameInputs (t.answer r 0 [])) ∧ (t.ctx? (byteAt r.body 0)).isSome = true) ∧
  (∀ (s : State) (p : Nat) (r : Req) (c : Ctx), s.accepts p 0x0021 r = true → s.ctx? (byteAt r.body 0) = some c → c.owner = r.fn →
    let a := fld r.body 8 8
    allZero ((r.body.drop 1).take 7) = true → a % 4096 = 0 → s.fnReads r.fn a 4096 = true →
    paramOk c.width c.height (s.devRead a 4096) = true →
    (∀ i, i < 3 → ∀ m, c.taps.getD i none = some m → ∃ g, s.ring? m = some g ∧ tapNeed (s.devRead a 4096) i ≤ 2 ^ g.slotLog) →
    exec (.contextParameter p) s = .next (s.sameInputs
      ((((s.accepted r).touchBlock r.fn a).setCtx (byteAt r.body 0) (fun c => { c with pend := some (s.devRead a 4096) })).answer r 0 []))) ∧
  (∀ (s : State) (p : Nat) (r : Req), s.accepts p 0x0022 r = true → fld r.body 2 2 = 0 →
    let n := byteAt r.body 0
    (∀ c, byteAt r.body 1 = 0 → s.ctx? n = some c → c.owner = r.fn →
      ∃ t : State, exec (.stopContext p) s = .next (s.sameInputs (t.answer r 0 [])) ∧ t.ctx? n = none) ∧
    (∀ x, byteAt r.body 1 = 1 → s.stream? n = some x → x.owner = r.fn →
      ∃ t : State, exec (.stopStream p) s = .next (s.sameInputs (t.answer r 0 [])) ∧ t.stream? n = none) ∧
    (∀ x, byteAt r.body 1 = 2 → s.session? n = some x → x.owner = r.fn →
      ∃ t : State, exec (.stopSession p) s = .next (s.sameInputs (t.answer r 0 [])) ∧ t.session? n = none) ∧
    (∀ g, byteAt r.body 1 = 3 → aGet s.media.groups n = some g → g.owner = r.fn → s.groupMembers n = [] →
      exec (.stopLockGroup p) s = .next (s.sameInputs
        (((s.accepted r).setMedia (fun m => { m with groups := aErase m.groups n })).answer r 0 [])))) ∧
  (∀ (s : State) (p vc n num stamp : Nat) (c : Ctx), s.on = true → p < 4 → vc < 16 → s.portOpen p = true →
    s.ctxsOn p vc (fun c => c.vc = vc) = [n] → s.ctx? n = some c → c.frame = none → c.live = true →
    s.frameId { c with params := c.pend.getD c.params, pend := none } = some (num, stamp) →
    let d : Ctx := { c with params := c.pend.getD c.params, pend := none }
    let t := s.takeSlots d.owner d.frameRings
    t.2.fail = none → exec (.frameStart p vc false) s = .next (s.sameInputs (t.1.setCtx n (fun _ => { d with
      frame := some { number := num, stamp := stamp, slots := t.2.slots, lines := [], emb := [] },
      dropped := min (c.dropped + t.2.drops) 0xffffffff, nextNum := if c.group.isNone then (c.nextNum + 1) % M32 else c.nextNum,
      window := c.window.map (fun w => (w.1, w.2.1, true)) })))) ∧
  (∀ (s : State) (p vc dt n : Nat) (l : List Nat) (c : Ctx), s.on = true → p < 4 → vc < 16 → s.portOpen p = true →
    (dt = 0x12 ∨ rawTypes.contains dt = true) → s.ctxsOn p vc (fun c => c.live && decide (vc < c.vc + c.exps)) = [n] → s.ctx? n = some c →
    exec (.lineArrival p vc dt true false l) s = .next (s.setCtx n (fun c => c.addLine vc dt true l))) ∧
  (∀ (s : State) (p vc n : Nat) (c : Ctx) (f : FrameRun), s.on = true → p < 4 → vc < 16 → n < 64 → s.portOpen p = true →
    s.ctx? n = some c → c.frame = some f → f.slots = [none, none, none, none] →
    let t : State := ({ s with free := s.free + 4 } : State).setCtx n (fun c => { c with st := 2, frame := none })
    exec (.lineTimeout n) s = .next t ∧
    (vc = c.vc + c.exps - 1 → s.media.ctxs = [(n, c)] → c.port = p → c.vc ≤ vc → exec (.frameEnd p vc false) s = .next t)) ∧
  (∀ (s : State) (p : Nat), s.on = true → p < 4 → (s.port p).enabled = true → (s.port p).retired = false → (s.port p).losses.length < 2 →
    exec (.portLockLoss p) s = .next (s.setPort p (fun q => { q with losses := (s.port p).losses ++ [s.now] }))) ∧
  (∀ (s : State) (p : Nat) (r : Req), s.accepts p 0x0023 r = true →
    let b := r.body
    let n := byteAt b 0
    let epoch := fld b 4 8 * 65536 + fld b 12 2
    let period := fld b 16 4 * 65536 + fld b 14 2
    let g : LockGroup := { owner := r.fn, pins := byteAt b 1, polarity := byteAt b 2, epoch := epoch, period := period,
                           pulse := fld b 20 4, window := fld b 24 4, next := firstTrigger epoch period s.now, high := none }
    lockRange b = true → s.groupMembers n = [] → (∀ g, aGet s.media.groups n = some g → g.owner = r.fn) →
    (∀ e, e ∈ s.media.groups → e.1 ≠ n → e.2.pins &&& byteAt b 1 = 0) →
    exec (.lockGroupSetup p) s = .next (s.sameInputs
      (((s.accepted r).setMedia (fun m => { m with groups := aSet m.groups n g })).answer r 0 []))) ∧
  (∀ (s : State) (n : Nat) (g : LockGroup), s.on = true → n < 16 → aGet s.media.groups n = some g →
    let at_ := (g.epoch + g.next * g.period) / 65536
    at_ ≤ s.now → ∃ t : State, exec (.trigger n) s = .next t ∧
      aGet t.media.groups n = some { g with next := g.next + 1, high := some (at_ + g.pulse) }) ∧
  (∀ (s : State) (n k a g : Nat) (x : LockGroup) (c : Ctx), s.on = true → n < 64 → s.ctx? n = some c → c.window = some (k, a, false) →
    c.group = some g → aGet s.media.groups g = some x → a + x.window < s.now →
    exec (.triggerWindowExpiry n) s = .next (s.setCtx n (fun c => c.closeWindow))) ∧
  (∀ (s : State) (p : Nat) (r : Req), s.accepts p 0x0024 r = true → s.streamStatus r.fn r.body = 0 →
    ∃ t : State, exec (.decodeSetup p) s = .next (s.sameInputs (t.answer r 0 [])) ∧
      t.stream? (byteAt r.body 0) = some (streamOf r.fn r.body (s.devRead (fld r.body 24 8) 4096))) ∧
  (∀ (s : State) (p : Nat) (r : Req), s.accepts p 0x0025 r = true → s.sessionStatus r.fn r.body = 0 →
    ∃ t : State, exec (.encodeSetup p) s = .next (s.sameInputs (t.answer r 0 [])) ∧
      t.session? (byteAt r.body 0) = some (sessionOf r.fn r.body)) ∧
  (∀ (s : State) (n : Nat) (x : Stream) (r : Ring), n < 64 → s.firmwareActs = true → s.stream? n = some x → x.st = 1 →
    s.ring? x.bits = some r → r.held ≠ 0 → r.stopped = false → (∀ c, x.comp = some c → s.codecWaits c = false) →
    s.ringReads r (r.slotAddr r.c) 256 = true →
    let b := s.devRead (r.slotAddr r.c) 256
    bitEntryOk b = true → s.fnReads x.owner (fld b 0 8) (fld b 8 4) = true →
    exec (.bitstreamEntry n) s = .next (s.sameInputs
      (((s.touchAll (r.slotAddr r.c) 256).touchAll (fld b 0 8) (fld b 8 4)).setStream n (fun x => { x with
        st := 2, job := some (r.c, byteAt b 12), stamps := aSet x.stamps r.c (fld b 16 8), gap := x.gap || bit (byteAt b 12) 1 })))) ∧
  (∀ (s : State) (n index flags k j : Nat) (x : Stream), n < 64 → s.firmwareActs = true → s.stream? n = some x → x.st = 2 →
    x.job = some (index, flags) → s.badPage x.owner x.store x.storeLen = none →
    exec (.bitstreamEntryConsumed n ⟨k, []⟩ j) s = .next (s.sameInputs
      (((((s.fillStore n x).losePictures n index x.owner j).setStream n (fun x => { x with st := 1, job := none })).ringAdvC
        x.bits).dueCodec x.comp index 0 k))) ∧
  (∀ (s : State) (n : Nat) (x : Session) (r : Ring), n < 16 → s.firmwareActs = true → s.session? n = some x → x.st = 1 →
    s.ring? x.jobs = some r → r.held ≠ 0 → r.stopped = false → s.codecWaits x.comp = false →
    s.ringReads r (r.slotAddr r.c) 256 = true →
    let b := s.devRead (r.slotAddr r.c) 256
    let u := s.touchAll (r.slotAddr r.c) 256
    s.sourceFails x b = none → s.jobStatus x b = 0 → ∃ v : State, exec (.encodeJob n) s = .next (s.sameInputs (v.setSession n (fun x => { x with
      st := 2, job := some (r.c, fld b 16 8, { ring := fld b 0 2, index := fld b 4 4 }), force := bit (byteAt b 12) 0 }))) ∧
      (v = u ∨ v = u.touchPins [(fld b 0 2, fld b 4 4, 0)] u)) ∧
  (∀ (s : State) (n index a : Nat) (q : Pin) (x : Session) (out : List Byte), n < 16 → s.firmwareActs = true → s.session? n = some x →
    x.st = 2 → x.job = some (index, a, q) → x.outputOk out = true → s.badPage x.owner a out.length = none →
    exec (.encodeJobComplete n out) s = .next (s.sameInputs
      ((((s.hubWrite a out).setSession n (fun y => { y with
        st := 1, job := none, force := false, pics := min (y.pics + 1) 0xffffffff,
        since := if x.intraNext then 1 % x.intra else (x.since + 1) % x.intra })).ringAdvC x.jobs).dueCodec
          (some x.comp) index 0 out.length))) ∧
  (∀ (s : State) (pipe k n : Nat) (c : Ctx), s.on = true → pipe < 2 → k < 32 → s.slotHolder pipe k = some (n, c) → c.frame = none →
    exec (.contextSlotError pipe k true) s = .next (s.sameInputs (s.logTransient 7 (32 * pipe + k) 0 0)))

/-- Commands of the host interface, the Ethernet ports, the lanes and the Abapex link complete (R335, R336, R340, R343, R346, R347, R354 to
R358, R363, R377, R410, R428). Each of MBX_REPLY_ACK, FLR_VF, VF_ENABLE_CLEAR, HOT_RESET, COMPLETION_TIMEOUT, PCIE_LINK_TRAINED,
POWER_STATE_CHANGE, the five USB transactions, HOST_START, PACKET_QUEUE_SETUP, PACKET_QUEUE_DELETE, STEERING_RULE, PQ_DOORBELL,
FRAME_RECEIVE, FRAME_TRANSMIT, FEC_LOCK_LOSS, LANE_FAR_END_CHECK, CHIP, PEER_SETUP, DATA_FRAME, CREDIT_FRAME, CREDIT_FRAME_SEND,
ACKNOWLEDGE, NEGATIVE_ACKNOWLEDGE, HELLO, ACK_TIMER, REPLAY_TIMEOUT, PEER_LOSS_LIMIT and HELLO_TIMER answers the next state of its own
effect under conditions on the state and its operands alone. -/
def Obligations.HostAndLinkCommandsComplete : Prop :=
  (∀ (s : State) (f p : Nat), s.on = true → f < 17 → p < 64 → (f = 0 ∨ pairOwner p = f) → (s.pair p).replyV = true →
    (s.pair p).due = none → exec (.mbxReplyAck f p) s = .next (s.setPair p (fun x => { x with replyV := false, due := none }))) ∧
  (∀ (s : State) (n : Nat), 1 ≤ n → n ≤ 16 → s.fw.attach = 0 → s.fwOn = true → ∃ t : State, exec (.flrVf n) s = .next t ∧
    (∀ r g, t.ring? r = some g → g.owner ≠ n) ∧ (n < s.funcs.length → (t.func n).orphan = false ∧ (t.func n).beat = none)) ∧
  (∀ s : State, s.fw.attach = 0 → s.fwOn = true → ∃ t : State, exec (.vfEnableClear 15) s = .next t ∧
    (∀ r g, t.ring? r = some g → g.owner ≠ 16)) ∧
  (∀ s : State, s.on = true → s.fw.attach = 0 → ∃ t : State, exec (.hotReset .hotReset) s = .next t ∧ t.fw.linkUp = false ∧
    (∀ f, f < s.funcs.length → (t.func f).d3 = false ∧ (t.func f).held = [])) ∧
  (∀ (s : State) (f page p : Nat) (w : Bool), s.on = true → f < 17 → s.fw.attach = 0 → s.xentry page = .host p f w →
    exec (.completionTimeout f page .hub) s = .next (s.sameInputs (s.logE 0x0023 4 f 0xff 0 0 page 0 0))) ∧
  (∀ s : State, s.on = true → s.fw.attach = 0 → ∃ t : State, exec .pcieLinkTrained s = .next t ∧ t.fw.linkUp = true) ∧
  (∀ (s : State) (f : Nat), s.on = true → s.fw.attach = 0 → f < 17 → f < s.funcs.length →
    exec (.powerStateChange f true) s = .next (s.setFunc f (fun x => { x with d3 := true }))) ∧
  (∀ (s : State) (tag o : Nat), s.on = true → s.inRescue = false →
    exec (.usbRegisterRead tag o 4) s = .next ((s.readReg 0 o).usbAnswer tag 0 (toLE 4 (s.regValue 0 o)))) ∧
  (∀ (s : State) (tag o : Nat) (d : List Byte), s.on = true → s.inRescue = false → s.fw.attach = 1 → d.length = 4 →
    exec (.usbRegisterWrite tag o d) s = .next (s.sameInputs ((s.writeReg 0 o (leNat d)).usbAnswer tag 0 []))) ∧
  (∀ (s : State) (tag a n : Nat), s.on = true → s.inRescue = false → usbLength n = true → a + n ≤ 0x1000000000 →
    ∃ t : State, exec (.usbDeviceRead tag a n) s = .next t ∧
      t.out.usb = s.out.usb ++ [toLE 1 tag ++ [0, 0, 0] ++ s.bar2Bytes 0 a n]) ∧
  (∀ (s : State) (tag a : Nat) (d : List Byte), s.on = true → s.inRescue = false → s.fw.attach = 1 → usbLength d.length = true →
    a + d.length ≤ 0x1000000000 →
    exec (.usbDeviceWrite tag a d) s = .next (s.sameInputs
      ((((s.touchAll a d.length).logBar2 0 a d.length true).bar2Put 0 a d).usbAnswer tag 0 []))) ∧
  (∀ (s : State) (tag p : Nat) (d : List Byte), s.on = true → usbLength d.length = true → d.length ≤ 256 → s.inRescue = false →
    (s.fw.attach = 1 ∨ p = 15) → p < 16 → (s.pair p).reqV = false →
    exec (.usbMailboxMessage tag p d) s = .next ((s.setPair p (fun x => { x with req := padTo 256 d, reqV := true })).usbAnswer tag 0 [])) ∧
  (∀ (s : State) (p : Nat) (r : Req), s.accepts p 0x0030 r = true → s.fw.hostRun = false → s.fw.attach ≠ 2 →
    s.inFn 0 (fld r.body 0 8) 1 = true → s.inFn 0 (fld r.body 8 8) 1 = true →
    ∃ t : State, exec (.hostStart p) s = .next (s.sameInputs (t.answer r 0 [])) ∧ t.fw.hostRun = true ∧
      t.fw.hostEntry = fld r.body 0 8) ∧
  (∀ (s : State) (p : Nat) (r : Req), s.accepts p 0x0034 r = true →
    let b := r.body
    s.pqEmpty (byteAt b 0) = true → portLanes s.fab.mode (byteAt b 2) ≠ none → fld b 8 8 % 4096 = 0 → 16 ≤ fld b 8 8 →
    s.inFn (byteAt b 4) (fld b 8 8 - 16) (16 + 32 * 2 ^ byteAt b 5) = true → pqRange b = true →
    (byteAt b 1 = 0 → exec (.packetQueueSetup p) s = .next (s.sameInputs (((s.accepted r).setFab (fun f => { f with
      queues := aSet f.queues (byteAt b 0) { port := byteAt b 2, rx := decide (byteAt b 3 = 1), owner := byteAt b 4, log := byteAt b 5,
                                             base := fld b 8 8, p := 0, c := 0, stopped := false } })).answer r 0 []))) ∧
    (∀ q, byteAt b 1 = 1 → s.pq? (byteAt b 0) = some q →
      ∃ t : State, exec (.packetQueueDelete p) s = .next (s.sameInputs (t.answer r 0 [])) ∧ t.pq? (byteAt b 0) = none)) ∧
  (∀ (s : State) (p : Nat) (r : Req) (x : PktQ), s.accepts p 0x0035 r = true →
    let b := r.body
    portLanes s.fab.mode (byteAt b 0) ≠ none → s.pq? (fld b 6 2) = some x → x.rx = true → x.port = byteAt b 0 → byteAt b 1 = 0 →
    fld b 2 2 ≤ 255 → bits (byteAt b 4) 6 4 = 0 → byteAt b 5 = 0 → fld b 14 2 < 4096 → fld b 20 4 = 0 →
    exec (.steeringRule p) s = .next (s.sameInputs (((s.accepted r).setFab (fun f => { f with
      rules := aSet f.rules (byteAt b 0 * 256 + fld b 2 2)
        { flags := byteAt b 4, queue := fld b 6 2, mac := beNat ((b.drop 8).take 6), vlan := fld b 14 2, ether := fld b 16 2,
          udp := fld b 18 2 } })).answer r 0 []))) ∧
  (∀ (s : State) (f q v : Nat) (x : PktQ), s.on = true → f < 17 → q < 256 → v < M32 → s.pq? q = some x → x.owner = f → x.rx = false →
    (v + M32 - x.c) % M32 ≤ 2 ^ x.log → ∃ t : State, exec (.pqDoorbell f q v) s = .next t ∧ t.pq? q = some { x with p := v }) ∧
  (∀ (s : State) (port q : Nat) (x : PktQ) (b : List Byte), s.on = true → port < 4 → s.portUp port = true → 60 ≤ b.length →
    b.length ≤ 9212 → (ethHead b).inner ≠ 0x8808 → s.udpPeer b = none → s.steer port b = some q → s.pq? q = some x →
    (x.p + M32 - x.c) % M32 < 2 ^ x.log → x.stopped = false → s.fnReads x.owner (x.slotAddr x.p) 32 = true →
    s.fnWrites x.owner (x.slotAddr x.p) 32 = true →
    let d := s.devRead (x.slotAddr x.p) 32
    let part := b.take (fld d 8 4)
    s.fnWrites x.owner (fld d 0 8) part.length = true →
    ∃ back : List Byte, exec (.frameReceive port true b) s = .next (s.sameInputs
      ((((((s.touchAll (x.slotAddr x.p) 32).hubWrite (fld d 0 8) part).hubWrite (x.slotAddr x.p + 8) back).setPq q
        (fun x => { x with p := (x.p + 1) % M32 }))).pqAdvanced q (fld d 14 2))) ∧ back.take 4 = toLE 4 b.length) ∧
  (∀ (s : State) (q : Nat) (x : PktQ), s.on = true → q < 256 → s.pq? q = some x → x.rx = false → x.stopped = false →
    (x.p + M32 - x.c) % M32 ≠ 0 → s.fnReads x.owner (x.slotAddr x.c) 32 = true → s.fnWrites x.owner (x.slotAddr x.c) 32 = true →
    let a := x.slotAddr x.c
    let d := s.devRead a 32
    s.portUp x.port = true → 60 ≤ fld d 8 4 → fld d 8 4 ≤ 9212 → s.fnReads x.owner (fld d 0 8) (fld d 8 4) = true →
    bit (byteAt d 12) 0 = true → bit (byteAt d 12) 1 = false →
    exec (.frameTransmit q) s = .next (s.sameInputs
      ((((((s.touchAll a 32).touchAll (fld d 0 8) (fld d 8 4)).setOut (fun o =>
        { o with eth := o.eth ++ [(x.port, s.devRead (fld d 0 8) (fld d 8 4))] })).hubWrite (a + 13)
          (toLE 1 0 ++ (d.drop 14).take 2 ++ toLE 8 s.now)).setPq q (fun x => { x with c := (x.c + 1) % M32 })).pqAdvanced q (fld d 14 2)))) ∧
  (∀ (s : State) (n c : Nat), s.on = true → n < 4 → (s.lane n).up = true → (s.lane n).losses.length < 2 →
    exec (.fecLockLoss ⟨n, c⟩) s = .next (s.setLane n (fun l =>
      { l with up := false, losses := (s.lane n).losses ++ [s.now], fails := 0, depth := 0, uncorr := min (l.uncorr + c) 0xffff }))) ∧
  (∀ (s : State) (n e : Nat), s.on = true → n < 4 → pairMode s.fab.mode (n / 2) ≠ 0 → (s.lane n).present = true →
    (s.lane n).retired = false → (s.lane n).up = false → (s.lane n).fails < 3 → e ≤ 1000 →
    exec (.laneFarEndCheck n e) s = .next (s.setLane n (fun l => { l with up := true, fails := 0, depth := 6 }))) ∧
  (∀ (s : State) (p : Nat) (r : Req), s.accepts p 0x0031 r = true → fld r.body 0 4 < 0xfffff → s.fab.peers = [] →
    (∀ k, k < 32 → (s.suite k).st = 0) →
    exec (.chip p) s = .next (s.sameInputs (((s.accepted r).setFab (fun f => { f with chip := fld r.body 0 4 })).answer r 0 []))) ∧
  (∀ (s : State) (p : Nat) (r : Req), s.accepts p 0x0032 r = true →
    let b := r.body
    s.peer? (byteAt b 0) = none → s.peerOf (fld b 4 4) = none → s.pathOk (byteAt b 1) (byteAt b 2) = true → byteAt b 1 ≠ 3 →
    s.peerRange b = true →
    exec (.peerSetup p) s = .next (s.sameInputs
      (((s.accepted r).setFab (fun f => { f with peers := aSet f.peers (byteAt b 0) (peerOfBody b s.now) })).answer r 0 []))) ∧
  (∀ (s : State) (n : Nat) (p : Peer) (b : List Byte), s.on = true → n < 256 → s.peer? n = some p → s.frameGood p b = true → p.st = 2 →
    p.sent = [] → p.held = [] → p.nakAt = none →
    let u := fun (q : Peer) => { q with rxSeq := (q.rxSeq + 1) % M32, rxSince := q.rxSince + 1,
                                        rxAt := if q.rxSince = 0 then s.now else q.rxAt, nakAt := none }
    (byteAt b 0 = 1 → fld b 12 4 = p.rxSeq →
      exec (.dataFrame n b) s = .next (s.sameInputs (((s.setPeer n u).takeData n p b).drainHeld n 64))) ∧
    (byteAt b 0 = 2 → fld b 12 4 = p.rxSeq →
      exec (.creditFrame n b) s = .next (s.sameInputs (((s.setPeer n u).takeCredits p b).drainHeld n 64)))) ∧
  (∀ (s : State) (n : Nat) (p : Peer) (b : List Byte), s.on = true → n < 256 → s.peer? n = some p → s.frameGood p b = true → p.st = 2 →
    let rest := p.sent.filter (fun f => !serialLt f.sn (fld b 16 4))
    rest.length ≠ p.sent.length →
    let t := s.setPeer n (fun q => { q with sent := rest, acked := fld b 16 4, ackedAt := s.now, sentAt := s.now })
    (byteAt b 0 = 3 → exec (.acknowledge n b) s = .next (s.sameInputs t)) ∧
    (byteAt b 0 = 4 → exec (.negativeAcknowledge n b) s = .next (s.sameInputs (t.resend n (fld b 16 4))))) ∧
  (∀ (s : State) (n m : Nat) (p : Peer) (b : List Byte), s.on = true → n < 256 → s.peer? n = some p → s.frameGood p b = true →
    byteAt b 0 = 5 → p.st = 1 → p.sent = [] → (helloPairs (b.drop 32)).find? (fun v => v.1 = 1) = some (1, m) →
    exec (.hello n b) s = .next (s.sameInputs ((s.setPeer n (fun q => q.newEpoch (fld (b.drop 32) 0 8))).setPeer n (fun q =>
      { q with major := 1, minor := 0, st := 2, ackedAt := s.now })))) ∧
  (∀ (s : State) (n : Nat) (p : Peer), s.on = true → n < 256 → s.peer? n = some p → p.st = 2 →
    (p.credOut ≠ [] → p.buffered + 32 + 8 * min 64 p.credOut.length ≤ p.capacity → exec (.creditFrameSend n) s = .next (s.sameInputs
      ((s.setPeer n (fun q => { q with credOut := q.credOut.drop 64 })).sendKept n 2 0
        ((p.credOut.take 64).flatMap (fun r => toLE 4 r.1 ++ toLE 4 r.2))))) ∧
    (16 ≤ p.rxSince → exec (.ackTimer n) s = .next (s.sameInputs (s.sendPlain n 3 []))) ∧
    (∀ f l, p.sent = f :: l → p.sentAt + p.timeout * 1000 ≤ s.now →
      exec (.replayTimeout n) s = .next (s.sameInputs (s.resend n f.sn))) ∧
    (∀ f l, p.sent = f :: l → p.ackedAt + p.loss * 1000000 ≤ s.now → exec (.peerLossLimit n) s = .next (s.sameInputs
      ((s.setPeer n (fun q => { q with st := 3 })).logE 0x0040 0 0xff 0xff 10 n p.chip 0 0)))) ∧
  (∀ (s : State) (n : Nat) (p : Peer), s.on = true → s.fab.peers = [(n, p)] →
    exec .helloTimer s = .next (s.sameInputs (s.sendPlain n 5 (toLE 8 s.fab.epoch ++ toLE 4 s.fab.chip ++ [1, 0]))))

/-- Commands of the firmware, the supply, the heat and the faults complete (R264, R370 to R389, R396 to R402, R406, R415, R421 to R427,
R446). Each of HEARTBEAT, VERSION_NEGOTIATION, IDENTITY, ATTESTATION, FIRMWARE_STATUS, STAGE, ACTIVATE, ACTIVATION_RECHECK,
ACTIVATION_TAKEOVER, ACTIVATION_ROLLBACK, REVOKE_KEY_SLOT, ADVANCE_SECURITY_VERSION, RECOVERY_WRITE, HOST_IMAGE_WRITE, RESCUE,
NOTICE_DELIVERY, UNDEFINED_TYPE_REQUEST, POWER_GOOD, POWER_GOOD_FALL, READY, THERMTRIP, REGULATOR_WINDOW, POWER_SENSE, THERMAL_SENSE,
TRIP_COOLDOWN, REGULATOR_FAULT, D2D_REPLAY_LIMIT, SCRUB and HUB_FAULT answers the next state of its own effect under conditions on the
state and its operands alone. -/
def Obligations.FirmwareAndPowerCommandsComplete : Prop :=
  (∀ (s : State) (p : Nat) (r : Req), s.accepts p 0x0002 r = true →
    exec (.heartbeat p) s = .next (s.sameInputs
      (((s.accepted r).setFunc r.fn (fun f => { f with beat := some s.now })).answer r 0 []))) ∧
  (∀ (s : State) (p m : Nat) (r : Req), s.accepts p 0x0001 r = true → listedMinor r.body = some m →
    ∃ e, exec (.versionNegotiation p) s = .next (s.sameInputs
      (((s.accepted r).setPair p (fun x => { x with major := 1, minor := 0, lastSeq := r.seq })).answer r 0 ([1, 0] ++ e)))) ∧
  (∀ (s : State) (p : Nat) (r : Req), s.accepts p 0x0040 r = true →
    s.inFn r.fn (fld r.body 0 8) (max 16384 s.certChain.length) = true → s.writable (fld r.body 0 8) s.certChain.length = true →
    exec (.identity p) s = .next (s.sameInputs
      (((s.accepted r).hubWrite (fld r.body 0 8) s.certChain).answer r 0 (toLE 4 s.certChain.length)))) ∧
  (∀ (s : State) (p : Nat) (r : Req), s.accepts p 0x0041 r = true →
    let n := byteAt r.body 0
    1 ≤ n → n ≤ 64 → fld r.body 1 7 = 0 → allZero (r.body.drop (16 + n)) = true → s.inFn r.fn (fld r.body 8 8) 8192 = true →
    s.writable (fld r.body 8 8) ((s.attestBody r.fn n ((r.body.drop 16).take n)).length + 96) = true →
    ∃ sig : List Byte, let rep := s.attestBody r.fn n ((r.body.drop 16).take n) ++ sig
      sig.length = 96 ∧ exec (.attestation p) s = .next (s.sameInputs
        ((({ s.accepted r with free := s.free + 1 } : State).hubWrite (fld r.body 8 8) rep).answer r 0 (toLE 4 rep.length)))) ∧
  (∀ (s : State) (p : Nat) (r : Req), s.accepts p 0x0042 r = true →
    exec (.firmwareStatus p) s = .next (s.sameInputs ((s.accepted r).answer r 0
      (toLE 4 (s.regValue 0 0x20) ++ toLE 4 (s.regValue 0 0x24) ++ toLE 4 (s.regValue 0 0x28))))) ∧
  (∀ (s : State) (p : Nat) (r : Req) (b : List Byte) (i j : Image), s.accepts p 0x0043 r = true → s.updating = false →
    s.messageImage r 512 0x1000000 = some b → acceptImage s.fuses 0 b = some i → s.fw.run = some j → readsHandoff i j = true →
    ∃ t : State, exec (.stage p true) s = .next (s.sameInputs (t.answer r 0 [])) ∧ t.fw = { s.fw with staged := some i, update := 2 }) ∧
  (∀ (s : State) (p : Nat) (r : Req), s.accepts p 0x0044 r = true → s.updating = false → s.fw.staged ≠ none → s.emergency = false →
    ∃ t : State, exec (.activate p) s = .next t ∧ t.fw.update = 4 ∧ t.fw.pause = some s.now ∧ t.fw.handoff.isSome = true) ∧
  (∀ s : State, s.fwOn = true → s.fw.update = 3 → s.emergency = false →
    ∃ t : State, exec .activationRecheck s = .next t ∧ t.fw.update = 4 ∧ t.fw.pause = some s.now) ∧
  (∀ (s : State) (a : Nat) (i : Image), s.on = true → s.fw.update = 4 → s.fw.pause = some a → s.fw.staged = some i →
    s.health.heldFault = [] → s.handoffReads = true →
    ∃ t : State, exec .activationTakeover s = .next t ∧ t.fw.run = some i ∧ t.fw.staged = none ∧ t.fw.update = 0) ∧
  (∀ s : State, s.on = true → s.fw.update = 4 → s.health.heldFault = [] →
    ∃ t : State, exec .activationRollback s = .next t ∧ t.fw.run = s.fw.run ∧ t.fw.update = 5 ∧ t.fw.rolled = true) ∧
  (∀ (s : State) (p : Nat) (r : Req), s.accepts p 0x0045 r = true →
    let k := byteAt r.body 0
    k ≤ 3 → fld r.body 1 3 = 0 → (∀ i, i ∈ s.images → i.1 ≠ k) → (List.range 4).filter (usableKey s.fuses) ≠ [k] →
    exec (.revokeKeySlot p) s = .next (s.sameInputs
      (({ s.accepted r with fuses := { s.fuses with revoked := s.fuses.revoked.set k true } } : State).answer r 0 []))) ∧
  (∀ (s : State) (p : Nat) (r : Req), s.accepts p 0x0046 r = true →
    let v := fld r.body 0 2
    1 ≤ v → v ≤ 64 → fld r.body 2 2 = 0 → s.fuses.minSec < v → (∀ i, i ∈ s.images → v ≤ i.2) →
    exec (.advanceSecurityVersion p) s = .next (s.sameInputs
      (({ s.accepted r with fuses := { s.fuses with minSec := v } } : State).answer r 0 []))) ∧
  (∀ (s : State) (p : Nat) (r : Req) (b : List Byte) (i j : Image), s.accepts p 0x0047 r = true → s.updating = false →
    s.messageImage r 512 0x800000 = some b → acceptImage s.fuses 1 b = some i → s.fw.run = some j → readsHandoff i j = true →
    exec (.recoveryWrite p true) s = .next (s.sameInputs ((((s.accepted r).touchImage r).flashWrite recoveryAt b).answer r 0 []))) ∧
  (∀ (s : State) (p : Nat) (r : Req) (b : List Byte), s.accepts p 0x0033 r = true → s.messageImage r 1 0x1000000 = some b →
    exec (.hostImageWrite p true) s = .next (s.sameInputs ((((s.accepted r).touchImage r).flashWrite hostImageAt b).answer r 0 []))) ∧
  (∀ (s : State) (p : Nat) (r₀ : TestResults) (i : Image), p < 64 → s.on = true → s.fw.run = none → s.fw.bootPath = 3 →
    (s.pair p).reqV = true → (s.pair p).due = none →
    let r := parseReq p (s.pair p).req
    let n := fld r.body 0 4
    r.type = 0x0048 → r.crcOk = true → r.len = 4 → 512 ≤ n → n ≤ 0x800000 →
    acceptImage s.fuses 1 ((List.range n).map (fun i => s.hbmGet (frameKey s.rescueChan 0 * 4096 + i))) = some i →
    ∃ t : State, exec (.rescue ⟨p, r₀⟩) s = .next t ∧ t.fw.run = some i ∧ t.health.phase = 1) ∧
  (∀ (s : State) (f : Nat) (n : Notice) (rest : List Notice), f < 17 → s.fwOn = true → s.fw.update ≠ 4 →
    (s.func f).notices = n :: rest → (s.pair (noticePair f)).replyV = false → (s.pair (noticePair f)).due = none →
    exec (.noticeDelivery f) s = .next (s.sameInputs
      ((s.setFunc f (fun y => { y with notices := rest, noticeNo := (y.noticeNo + 1) % 65536 })).deliver (noticePair f)
        (mkMessage (s.pair (noticePair f)).major (s.pair (noticePair f)).minor n.type (s.func f).noticeNo n.suite n.body)))) ∧
  (∀ (s : State) (p st : Nat) (ex : List Byte) (r : Req), s.on = true → s.request p = some r → s.verdict r = .refuse st ex →
    exec (.undefinedTypeRequest p) s = .next (s.sameInputs ((s.take p).deliver p (s.replyBytes r st ex)))) ∧
  (∀ (s : State) (mode e : Nat) (r : TestResults), s.on = false → (s.cold.markUnits).bootChoice.1 = none →
    ∃ t : State, exec (.powerGood ⟨mode, e⟩ r) s = .next t ∧ t.on = true ∧ t.ts = TimeBase.reset ∧ t.fuses = s.fuses) ∧
  (∀ s : State, ∃ t : State, exec .powerGoodFall s = .next t ∧ t.on = false ∧ t.fuses = s.fuses ∧ t.flash = s.flash) ∧
  (∀ s : State, s.fwOn = true → s.health.phase = 1 → s.presentChans ≠ [] → presentMask s.fillAll ≠ 0 → s.recovery = false →
    ∃ t : State, exec (.ready true) s = .next t ∧ t.health.phase = 4 ∧ t.health.cores = s.fillAll) ∧
  (∀ (s : State) (c : Int), s.on = true → 125 ≤ c →
    exec (.thermtrip c) s = .next (s.setPower (fun w => { w with thermPin := false, hub := c }))) ∧
  (∀ (s : State) (x busy : Nat), s.on = true → x < 8 → busy ≤ 1000 → clusterFitted s.fuses.grade x = true → (s.cluster x).powered = true →
    exec (.regulatorWindow x busy) s = .next (s.setCluster x (fun c =>
      { c with point := approach 100 c.point c.target, target := s.newTarget x busy }))) ∧
  (∀ (s : State) (w : Nat), s.on = true → ∃ t : State, exec (.powerSense w) s = .next t ∧
    t.power.readings = (w :: s.power.readings).take 100 ∧ t.power.energy = s.power.energy + w) ∧
  (∀ (s : State) (r : Temps), s.on = true → ∃ t : State, exec (.thermalSense r) s = .next t ∧ t.power.die0 = r.die0 ∧
    t.power.die1 = r.die1 ∧ t.power.hub = r.hub) ∧
  (∀ (s : State) (r : Temps), s.on = true → s.power.trip = true → r.die0 ≤ 95 → r.die1 ≤ 95 → (∀ c ∈ r.clusters, c ≤ 95) →
    s.reseating = true → exec (.tripCooldown r) s = .next (s.sameInputs
      ((s.setPower (fun w => { w with trip := false, die0 := r.die0, die1 := r.die1, hub := r.hub })).setHealth (fun h =>
        { h with reseatAt := some s.now })))) ∧
  (∀ (s : State) (x : Nat), s.on = true → s.ready = true → s.health.hubFault = false →
    (x < 2 → ∃ t : State, exec (.d2dReplayLimit x) s = .next t ∧ t.health.cause = 6 ∧ t.health.unit = x) ∧
    (x < 8 → clusterFitted s.fuses.grade x = true → (s.cluster x).powered = true →
      ∃ t : State, exec (.regulatorFault x) s = .next t ∧ t.health.cause = 7 ∧ t.health.unit = x)) ∧
  (∀ (s : State) (x : Nat), s.on = true → x < 40 → s.usable x = true → exec (.scrub (.coreStore x) false) s =
    .next (s.setPhys x (fun p => { p with corrected := min (p.corrected + 1) 0xffffffff }))) ∧
  (∀ (s : State) (a w : Nat), s.on = true → s.health.hubFault = false → ∃ t : State, exec (.hubFault a w) s = .next t ∧
    t.health.hubFault = true ∧ ∀ x, (t.cluster x).powered = false)

/-! ## The statements that gather several clauses -/

/-- A step takes one command from the queue; with none waiting one beat passes (model choice, log entry 50). -/
def Obligations.QueueSteps : Prop := Claims.EmptyQueueStep ∧ Claims.StepTakesOneCommand

/-- PWRGOOD: low holds the reset, a fall loses all but fuses and flash, a rise starts at time 0. -/
def Obligations.PowerCycles : Prop := Claims.PowerLowHoldsReset ∧ Claims.PowerGoodCycle

/-- A refused request changes nothing but its reply, a repeat resends it; an answer touches its pair and vector. -/
def Obligations.RequestsAndAnswers : Prop := Claims.MessageChecks ∧ Claims.AnswerFrame

/-- Negotiation, heartbeat (field order: log entry 20), refused requests, acknowledgement and notices. -/
def Obligations.MailboxServices : Prop := Claims.NegotiationAndHeartbeat ∧ Claims.RefusalAckAndNotice

/-- Allocation and ring setup: effect, statuses and their order. -/
def Obligations.AllocationAndRings : Prop := Claims.AllocationOutcomes ∧ Claims.RingSetupOutcomes

/-- Suite create and release: checks in order, effect and frame. -/
def Obligations.SuiteLifetime : Prop := Claims.SuiteCreateOutcomes ∧ Claims.SuiteReleaseOutcomes

/-- Heartbeat timeout enters orphan mode and adopt leaves it. -/
def Obligations.OrphanMode : Prop := Claims.HeartbeatTimeout ∧ Claims.AdoptOutcomes

/-- Dispatch of a submission entry, and completion entries written once their ring has a free slot. -/
def Obligations.DispatchAndCompletion : Prop := Claims.DispatchOutcomes ∧ Claims.CompletionEntryWritten

/-- Starting a kernel on every core and ending it when all are done. -/
def Obligations.KernelStartAndEnd : Prop := Claims.StartKernelEffect ∧ Claims.KernelEndOutcomes

/-- A load begins, and its digest decides whether it goes on. -/
def Obligations.LoadBegins : Prop := Claims.LoadOutcomes ∧ Claims.DigestOutcomes

/-- Segments, reports and the rounds of a load. -/
def Obligations.LoadRounds : Prop := Claims.SegmentOutcomes ∧ Claims.ReportOutcomes ∧ Claims.RoundEndOutcomes

/-- mx.seat fills its bank and dr.chain binds to the next matrix instruction. -/
def Obligations.SeatAndChain : Prop := Claims.SeatCompletes ∧ Claims.ChainBinds

/-- st.store writes its entry item by item and completes. -/
def Obligations.StoreWrites : Prop := Claims.StoreCompletes ∧ Claims.StoreVisitWrites

/-- q.signal completes and its addition takes effect in its turn. -/
def Obligations.SignalRule : Prop := Claims.SignalCompletes ∧ Claims.FlagSignalOutcomes

/-- The stall watchdog, and waits that are satisfied. -/
def Obligations.WaitsAndStalls : Prop := Claims.StallWatchdog ∧ Claims.WaitSatisfied

/-- Arrivals, credits, multicast detachment and fallback. -/
def Obligations.EntriesArrive : Prop := Claims.ArrivalAndCredit ∧ Claims.MulticastOutcomes

/-- Cushion beats, ramps and check tiles of an array. -/
def Obligations.ArrayBeats : Prop := Claims.CushionAndRamps ∧ Claims.CheckTileOutcomes

/-- Reads and writes of BAR0: values, latches, clears and what a write changes. -/
def Obligations.RegisterAccess : Prop := Claims.RegisterRead ∧ Claims.RegisterWrite

/-- The time base, its steps and the pulse servo (servo rate: log entry 14). -/
def Obligations.TimeBaseRules : Prop := Claims.TimeAndSteps ∧ Claims.PulseServo

/-- Lane modes, lane training and the bounds of supply points. -/
def Obligations.LanesAndBounds : Prop := Claims.LanesAndBounds

/-- Windows and the translation table: checks, effect and frame. -/
def Obligations.TranslationMessages : Prop := Claims.WindowOutcomes ∧ Claims.MapOutcomes

/-- BAR2 reads and writes reach allowed pages only. -/
def Obligations.HostMemoryAccess : Prop := Claims.Bar2Access

/-- The pseudo-channel controllers: queues, choice, data, age and refresh. -/
def Obligations.MemoryController : Prop := Claims.MemoryRequest ∧ Claims.MemorySchedule ∧ Claims.RefreshAndAge

/-- Contexts and lock groups: setup, parameters, triggers and stop. -/
def Obligations.CameraSetup : Prop := Claims.ContextMessages ∧ Claims.LockGroups

/-- Frames of contexts, and ports and slots that fail. -/
def Obligations.CameraRun : Prop := Claims.CameraFrames ∧ Claims.CameraFaults

/-- Decode streams and encode sessions: setup, work and stop. -/
def Obligations.CodecUnits : Prop := Claims.CodecMessages ∧ Claims.CodecWork

/-- Function resets, link events, power states and host start. -/
def Obligations.HostResets : Prop := Claims.FunctionReset ∧ Claims.LinkEvents ∧ Claims.HostStart

/-- USB transactions: statuses, data and effect. -/
def Obligations.UsbTransactions : Prop := Claims.UsbTransactions

/-- Packet queues, steering rules and Ethernet frames. -/
def Obligations.EthernetTraffic : Prop := Claims.PacketQueues ∧ Claims.EthernetFrames

/-- Chip number, peers, frames and timers of the Abapex link. -/
def Obligations.AbapexLink : Prop := Claims.ChipAndPeers ∧ Claims.LinkFrames ∧ Claims.LinkTimers

/-- Identity, attestation, status, images written and fuses. -/
def Obligations.FirmwareServices : Prop := Claims.FirmwareReports ∧ Claims.ImageWrites ∧ Claims.FuseMessages

/-- Activation, takeover, rollback and rescue. -/
def Obligations.FirmwareUpdate : Prop := Claims.Activation ∧ Claims.RescueOutcomes

/-- Supply points and the hardware limits. -/
def Obligations.SupplyAndHeat : Prop := Claims.SupplyPoints ∧ Claims.HardwareLimits

/-- Faults, hub fault, ready and the end of a reseat. -/
def Obligations.FaultsAndReady : Prop := Claims.FaultOutcomes ∧ Claims.ReadyOutcomes
end

