-- ==== Sys2Proof/Laws/Map.lean ====
section
/-! SUPPORT. Maps and lists: what a lookup gives after an update. -/

namespace Sys2Proof.Machine

theorem aGet_aSet_same (m : AMap α) (k : Nat) (x : α) : aGet (aSet m k x) k = some x := by
  induction m with
  | nil => simp [aSet, aGet]
  | cons e t ih =>
    obtain ⟨a, v⟩ := e
    unfold aSet
    split
    · simp [aGet]
    · split
      · simp [aGet]
      · simp [aGet, *]

theorem aGet_aSet_other (m : AMap α) (k j : Nat) (x : α) (h : j ≠ k) : aGet (aSet m k x) j = aGet m j := by
  induction m with
  | nil => simp [aSet, aGet, Ne.symm h]
  | cons e t ih =>
    obtain ⟨a, v⟩ := e
    unfold aSet
    split
    · simp [aGet, Ne.symm h]
    · split
      · subst_vars; simp [aGet, Ne.symm h]
      · simp [aGet, ih]

theorem aGet_aMod (m : AMap α) (k j : Nat) (f : α → α) :
    aGet (aMod m k f) j = if j = k then (aGet m j).map f else aGet m j := by
  induction m with
  | nil => simp [aMod, aGet]
  | cons e t ih =>
    obtain ⟨a, v⟩ := e
    simp only [aMod] at ih
    by_cases h : a = k <;> by_cases h2 : a = j <;> simp_all [aMod, aGet]

theorem lMod_lMod (l : List α) (i : Nat) (f g : α → α) : lMod (lMod l i f) i g = lMod l i (fun x => g (f x)) := by
  induction l generalizing i with
  | nil => simp [lMod]
  | cons a t ih => cases i <;> simp [lMod, ih]

@[simp] theorem length_lMod (l : List α) (i : Nat) (f : α → α) : (lMod l i f).length = l.length := by
  induction l generalizing i with
  | nil => simp [lMod]
  | cons a t ih => cases i <;> simp [lMod, ih]

theorem getD_lMod_same (l : List α) (i : Nat) (f : α → α) (d : α) (h : i < l.length) :
    (lMod l i f).getD i d = f (l.getD i d) := by
  induction l generalizing i with
  | nil => simp at h
  | cons a t ih =>
    cases i with
    | zero => simp [lMod]
    | succ j => simpa [lMod] using ih j (by simpa using h)

theorem getD_lMod_other (l : List α) (i j : Nat) (f : α → α) (d : α) (h : j ≠ i) :
    (lMod l i f).getD j d = l.getD j d := by
  induction l generalizing i j with
  | nil => simp [lMod]
  | cons a t ih =>
    cases i with
    | zero => cases j with
      | zero => exact absurd rfl h
      | succ j => simp [lMod]
    | succ i => cases j with
      | zero => simp [lMod]
      | succ j => simpa [lMod] using ih i j (by omega)

end Sys2Proof.Machine
end

