-- ==== Sys2Proof/Laws/State.lean ====
section
/-! SUPPORT. Every field after every update of the state, and after the shared operations that signal: all but the field that the
update names are as before. -/

namespace Sys2Proof.Machine

/-! ## After `setCore` -/

@[simp] theorem State.setCore_fuses (s : State) (n : Nat) (f : Core → Core) : (s.setCore n f).fuses = s.fuses := rfl
@[simp] theorem State.setCore_ts (s : State) (n : Nat) (f : Core → Core) : (s.setCore n f).ts = s.ts := rfl
@[simp] theorem State.setCore_health (s : State) (n : Nat) (f : Core → Core) : (s.setCore n f).health = s.health := rfl
@[simp] theorem State.setCore_power (s : State) (n : Nat) (f : Core → Core) : (s.setCore n f).power = s.power := rfl
@[simp] theorem State.setCore_fw (s : State) (n : Nat) (f : Core → Core) : (s.setCore n f).fw = s.fw := rfl
@[simp] theorem State.setCore_phys (s : State) (n : Nat) (f : Core → Core) : (s.setCore n f).phys = s.phys := rfl
@[simp] theorem State.setCore_cores (s : State) (n : Nat) (f : Core → Core) : (s.setCore n f).cores = lMod s.cores n f := rfl
@[simp] theorem State.setCore_clusters (s : State) (n : Nat) (f : Core → Core) : (s.setCore n f).clusters = s.clusters := rfl
@[simp] theorem State.setCore_suites (s : State) (n : Nat) (f : Core → Core) : (s.setCore n f).suites = s.suites := rfl
@[simp] theorem State.setCore_flight (s : State) (n : Nat) (f : Core → Core) : (s.setCore n f).flight = s.flight := rfl
@[simp] theorem State.setCore_rings (s : State) (n : Nat) (f : Core → Core) : (s.setCore n f).rings = s.rings := rfl
@[simp] theorem State.setCore_ringProbe (s : State) (n : Nat) (f : Core → Core) : (s.setCore n f).ringProbe = s.ringProbe := rfl
@[simp] theorem State.setCore_ringRejects (s : State) (n : Nat) (f : Core → Core) : (s.setCore n f).ringRejects = s.ringRejects := rfl
@[simp] theorem State.setCore_comps (s : State) (n : Nat) (f : Core → Core) : (s.setCore n f).comps = s.comps := rfl
@[simp] theorem State.setCore_funcs (s : State) (n : Nat) (f : Core → Core) : (s.setCore n f).funcs = s.funcs := rfl
@[simp] theorem State.setCore_pairs (s : State) (n : Nat) (f : Core → Core) : (s.setCore n f).pairs = s.pairs := rfl
@[simp] theorem State.setCore_xlt (s : State) (n : Nat) (f : Core → Core) : (s.setCore n f).xlt = s.xlt := rfl
@[simp] theorem State.setCore_chans (s : State) (n : Nat) (f : Core → Core) : (s.setCore n f).chans = s.chans := rfl
@[simp] theorem State.setCore_hbm (s : State) (n : Nat) (f : Core → Core) : (s.setCore n f).hbm = s.hbm := rfl
@[simp] theorem State.setCore_shelf (s : State) (n : Nat) (f : Core → Core) : (s.setCore n f).shelf = s.shelf := rfl
@[simp] theorem State.setCore_hostMem (s : State) (n : Nat) (f : Core → Core) : (s.setCore n f).hostMem = s.hostMem := rfl
@[simp] theorem State.setCore_flash (s : State) (n : Nat) (f : Core → Core) : (s.setCore n f).flash = s.flash := rfl
@[simp] theorem State.setCore_media (s : State) (n : Nat) (f : Core → Core) : (s.setCore n f).media = s.media := rfl
@[simp] theorem State.setCore_fab (s : State) (n : Nat) (f : Core → Core) : (s.setCore n f).fab = s.fab := rfl
@[simp] theorem State.setCore_log (s : State) (n : Nat) (f : Core → Core) : (s.setCore n f).log = s.log := rfl
@[simp] theorem State.setCore_latch (s : State) (n : Nat) (f : Core → Core) : (s.setCore n f).latch = s.latch := rfl
@[simp] theorem State.setCore_record (s : State) (n : Nat) (f : Core → Core) : (s.setCore n f).record = s.record := rfl
@[simp] theorem State.setCore_out (s : State) (n : Nat) (f : Core → Core) : (s.setCore n f).out = s.out := rfl
@[simp] theorem State.setCore_free (s : State) (n : Nat) (f : Core → Core) : (s.setCore n f).free = s.free := rfl
@[simp] theorem State.setCore_pending (s : State) (n : Nat) (f : Core → Core) : (s.setCore n f).pending = s.pending := rfl

/-! ## After `setSuite` -/

@[simp] theorem State.setSuite_fuses (s : State) (n : Nat) (f : Suite → Suite) : (s.setSuite n f).fuses = s.fuses := rfl
@[simp] theorem State.setSuite_ts (s : State) (n : Nat) (f : Suite → Suite) : (s.setSuite n f).ts = s.ts := rfl
@[simp] theorem State.setSuite_health (s : State) (n : Nat) (f : Suite → Suite) : (s.setSuite n f).health = s.health := rfl
@[simp] theorem State.setSuite_power (s : State) (n : Nat) (f : Suite → Suite) : (s.setSuite n f).power = s.power := rfl
@[simp] theorem State.setSuite_fw (s : State) (n : Nat) (f : Suite → Suite) : (s.setSuite n f).fw = s.fw := rfl
@[simp] theorem State.setSuite_phys (s : State) (n : Nat) (f : Suite → Suite) : (s.setSuite n f).phys = s.phys := rfl
@[simp] theorem State.setSuite_cores (s : State) (n : Nat) (f : Suite → Suite) : (s.setSuite n f).cores = s.cores := rfl
@[simp] theorem State.setSuite_clusters (s : State) (n : Nat) (f : Suite → Suite) : (s.setSuite n f).clusters = s.clusters := rfl
@[simp] theorem State.setSuite_suites (s : State) (n : Nat) (f : Suite → Suite) : (s.setSuite n f).suites = lMod s.suites n f := rfl
@[simp] theorem State.setSuite_flight (s : State) (n : Nat) (f : Suite → Suite) : (s.setSuite n f).flight = s.flight := rfl
@[simp] theorem State.setSuite_rings (s : State) (n : Nat) (f : Suite → Suite) : (s.setSuite n f).rings = s.rings := rfl
@[simp] theorem State.setSuite_ringProbe (s : State) (n : Nat) (f : Suite → Suite) : (s.setSuite n f).ringProbe = s.ringProbe := rfl
@[simp] theorem State.setSuite_ringRejects (s : State) (n : Nat) (f : Suite → Suite) : (s.setSuite n f).ringRejects = s.ringRejects := rfl
@[simp] theorem State.setSuite_comps (s : State) (n : Nat) (f : Suite → Suite) : (s.setSuite n f).comps = s.comps := rfl
@[simp] theorem State.setSuite_funcs (s : State) (n : Nat) (f : Suite → Suite) : (s.setSuite n f).funcs = s.funcs := rfl
@[simp] theorem State.setSuite_pairs (s : State) (n : Nat) (f : Suite → Suite) : (s.setSuite n f).pairs = s.pairs := rfl
@[simp] theorem State.setSuite_xlt (s : State) (n : Nat) (f : Suite → Suite) : (s.setSuite n f).xlt = s.xlt := rfl
@[simp] theorem State.setSuite_chans (s : State) (n : Nat) (f : Suite → Suite) : (s.setSuite n f).chans = s.chans := rfl
@[simp] theorem State.setSuite_hbm (s : State) (n : Nat) (f : Suite → Suite) : (s.setSuite n f).hbm = s.hbm := rfl
@[simp] theorem State.setSuite_shelf (s : State) (n : Nat) (f : Suite → Suite) : (s.setSuite n f).shelf = s.shelf := rfl
@[simp] theorem State.setSuite_hostMem (s : State) (n : Nat) (f : Suite → Suite) : (s.setSuite n f).hostMem = s.hostMem := rfl
@[simp] theorem State.setSuite_flash (s : State) (n : Nat) (f : Suite → Suite) : (s.setSuite n f).flash = s.flash := rfl
@[simp] theorem State.setSuite_media (s : State) (n : Nat) (f : Suite → Suite) : (s.setSuite n f).media = s.media := rfl
@[simp] theorem State.setSuite_fab (s : State) (n : Nat) (f : Suite → Suite) : (s.setSuite n f).fab = s.fab := rfl
@[simp] theorem State.setSuite_log (s : State) (n : Nat) (f : Suite → Suite) : (s.setSuite n f).log = s.log := rfl
@[simp] theorem State.setSuite_latch (s : State) (n : Nat) (f : Suite → Suite) : (s.setSuite n f).latch = s.latch := rfl
@[simp] theorem State.setSuite_record (s : State) (n : Nat) (f : Suite → Suite) : (s.setSuite n f).record = s.record := rfl
@[simp] theorem State.setSuite_out (s : State) (n : Nat) (f : Suite → Suite) : (s.setSuite n f).out = s.out := rfl
@[simp] theorem State.setSuite_free (s : State) (n : Nat) (f : Suite → Suite) : (s.setSuite n f).free = s.free := rfl
@[simp] theorem State.setSuite_pending (s : State) (n : Nat) (f : Suite → Suite) : (s.setSuite n f).pending = s.pending := rfl

/-! ## After `setFunc` -/

@[simp] theorem State.setFunc_fuses (s : State) (n : Nat) (f : Func → Func) : (s.setFunc n f).fuses = s.fuses := rfl
@[simp] theorem State.setFunc_ts (s : State) (n : Nat) (f : Func → Func) : (s.setFunc n f).ts = s.ts := rfl
@[simp] theorem State.setFunc_health (s : State) (n : Nat) (f : Func → Func) : (s.setFunc n f).health = s.health := rfl
@[simp] theorem State.setFunc_power (s : State) (n : Nat) (f : Func → Func) : (s.setFunc n f).power = s.power := rfl
@[simp] theorem State.setFunc_fw (s : State) (n : Nat) (f : Func → Func) : (s.setFunc n f).fw = s.fw := rfl
@[simp] theorem State.setFunc_phys (s : State) (n : Nat) (f : Func → Func) : (s.setFunc n f).phys = s.phys := rfl
@[simp] theorem State.setFunc_cores (s : State) (n : Nat) (f : Func → Func) : (s.setFunc n f).cores = s.cores := rfl
@[simp] theorem State.setFunc_clusters (s : State) (n : Nat) (f : Func → Func) : (s.setFunc n f).clusters = s.clusters := rfl
@[simp] theorem State.setFunc_suites (s : State) (n : Nat) (f : Func → Func) : (s.setFunc n f).suites = s.suites := rfl
@[simp] theorem State.setFunc_flight (s : State) (n : Nat) (f : Func → Func) : (s.setFunc n f).flight = s.flight := rfl
@[simp] theorem State.setFunc_rings (s : State) (n : Nat) (f : Func → Func) : (s.setFunc n f).rings = s.rings := rfl
@[simp] theorem State.setFunc_ringProbe (s : State) (n : Nat) (f : Func → Func) : (s.setFunc n f).ringProbe = s.ringProbe := rfl
@[simp] theorem State.setFunc_ringRejects (s : State) (n : Nat) (f : Func → Func) : (s.setFunc n f).ringRejects = s.ringRejects := rfl
@[simp] theorem State.setFunc_comps (s : State) (n : Nat) (f : Func → Func) : (s.setFunc n f).comps = s.comps := rfl
@[simp] theorem State.setFunc_funcs (s : State) (n : Nat) (f : Func → Func) : (s.setFunc n f).funcs = lMod s.funcs n f := rfl
@[simp] theorem State.setFunc_pairs (s : State) (n : Nat) (f : Func → Func) : (s.setFunc n f).pairs = s.pairs := rfl
@[simp] theorem State.setFunc_xlt (s : State) (n : Nat) (f : Func → Func) : (s.setFunc n f).xlt = s.xlt := rfl
@[simp] theorem State.setFunc_chans (s : State) (n : Nat) (f : Func → Func) : (s.setFunc n f).chans = s.chans := rfl
@[simp] theorem State.setFunc_hbm (s : State) (n : Nat) (f : Func → Func) : (s.setFunc n f).hbm = s.hbm := rfl
@[simp] theorem State.setFunc_shelf (s : State) (n : Nat) (f : Func → Func) : (s.setFunc n f).shelf = s.shelf := rfl
@[simp] theorem State.setFunc_hostMem (s : State) (n : Nat) (f : Func → Func) : (s.setFunc n f).hostMem = s.hostMem := rfl
@[simp] theorem State.setFunc_flash (s : State) (n : Nat) (f : Func → Func) : (s.setFunc n f).flash = s.flash := rfl
@[simp] theorem State.setFunc_media (s : State) (n : Nat) (f : Func → Func) : (s.setFunc n f).media = s.media := rfl
@[simp] theorem State.setFunc_fab (s : State) (n : Nat) (f : Func → Func) : (s.setFunc n f).fab = s.fab := rfl
@[simp] theorem State.setFunc_log (s : State) (n : Nat) (f : Func → Func) : (s.setFunc n f).log = s.log := rfl
@[simp] theorem State.setFunc_latch (s : State) (n : Nat) (f : Func → Func) : (s.setFunc n f).latch = s.latch := rfl
@[simp] theorem State.setFunc_record (s : State) (n : Nat) (f : Func → Func) : (s.setFunc n f).record = s.record := rfl
@[simp] theorem State.setFunc_out (s : State) (n : Nat) (f : Func → Func) : (s.setFunc n f).out = s.out := rfl
@[simp] theorem State.setFunc_free (s : State) (n : Nat) (f : Func → Func) : (s.setFunc n f).free = s.free := rfl
@[simp] theorem State.setFunc_pending (s : State) (n : Nat) (f : Func → Func) : (s.setFunc n f).pending = s.pending := rfl

/-! ## After `setPair` -/

@[simp] theorem State.setPair_fuses (s : State) (n : Nat) (f : Pair → Pair) : (s.setPair n f).fuses = s.fuses := rfl
@[simp] theorem State.setPair_ts (s : State) (n : Nat) (f : Pair → Pair) : (s.setPair n f).ts = s.ts := rfl
@[simp] theorem State.setPair_health (s : State) (n : Nat) (f : Pair → Pair) : (s.setPair n f).health = s.health := rfl
@[simp] theorem State.setPair_power (s : State) (n : Nat) (f : Pair → Pair) : (s.setPair n f).power = s.power := rfl
@[simp] theorem State.setPair_fw (s : State) (n : Nat) (f : Pair → Pair) : (s.setPair n f).fw = s.fw := rfl
@[simp] theorem State.setPair_phys (s : State) (n : Nat) (f : Pair → Pair) : (s.setPair n f).phys = s.phys := rfl
@[simp] theorem State.setPair_cores (s : State) (n : Nat) (f : Pair → Pair) : (s.setPair n f).cores = s.cores := rfl
@[simp] theorem State.setPair_clusters (s : State) (n : Nat) (f : Pair → Pair) : (s.setPair n f).clusters = s.clusters := rfl
@[simp] theorem State.setPair_suites (s : State) (n : Nat) (f : Pair → Pair) : (s.setPair n f).suites = s.suites := rfl
@[simp] theorem State.setPair_flight (s : State) (n : Nat) (f : Pair → Pair) : (s.setPair n f).flight = s.flight := rfl
@[simp] theorem State.setPair_rings (s : State) (n : Nat) (f : Pair → Pair) : (s.setPair n f).rings = s.rings := rfl
@[simp] theorem State.setPair_ringProbe (s : State) (n : Nat) (f : Pair → Pair) : (s.setPair n f).ringProbe = s.ringProbe := rfl
@[simp] theorem State.setPair_ringRejects (s : State) (n : Nat) (f : Pair → Pair) : (s.setPair n f).ringRejects = s.ringRejects := rfl
@[simp] theorem State.setPair_comps (s : State) (n : Nat) (f : Pair → Pair) : (s.setPair n f).comps = s.comps := rfl
@[simp] theorem State.setPair_funcs (s : State) (n : Nat) (f : Pair → Pair) : (s.setPair n f).funcs = s.funcs := rfl
@[simp] theorem State.setPair_pairs (s : State) (n : Nat) (f : Pair → Pair) : (s.setPair n f).pairs = lMod s.pairs n f := rfl
@[simp] theorem State.setPair_xlt (s : State) (n : Nat) (f : Pair → Pair) : (s.setPair n f).xlt = s.xlt := rfl
@[simp] theorem State.setPair_chans (s : State) (n : Nat) (f : Pair → Pair) : (s.setPair n f).chans = s.chans := rfl
@[simp] theorem State.setPair_hbm (s : State) (n : Nat) (f : Pair → Pair) : (s.setPair n f).hbm = s.hbm := rfl
@[simp] theorem State.setPair_shelf (s : State) (n : Nat) (f : Pair → Pair) : (s.setPair n f).shelf = s.shelf := rfl
@[simp] theorem State.setPair_hostMem (s : State) (n : Nat) (f : Pair → Pair) : (s.setPair n f).hostMem = s.hostMem := rfl
@[simp] theorem State.setPair_flash (s : State) (n : Nat) (f : Pair → Pair) : (s.setPair n f).flash = s.flash := rfl
@[simp] theorem State.setPair_media (s : State) (n : Nat) (f : Pair → Pair) : (s.setPair n f).media = s.media := rfl
@[simp] theorem State.setPair_fab (s : State) (n : Nat) (f : Pair → Pair) : (s.setPair n f).fab = s.fab := rfl
@[simp] theorem State.setPair_log (s : State) (n : Nat) (f : Pair → Pair) : (s.setPair n f).log = s.log := rfl
@[simp] theorem State.setPair_latch (s : State) (n : Nat) (f : Pair → Pair) : (s.setPair n f).latch = s.latch := rfl
@[simp] theorem State.setPair_record (s : State) (n : Nat) (f : Pair → Pair) : (s.setPair n f).record = s.record := rfl
@[simp] theorem State.setPair_out (s : State) (n : Nat) (f : Pair → Pair) : (s.setPair n f).out = s.out := rfl
@[simp] theorem State.setPair_free (s : State) (n : Nat) (f : Pair → Pair) : (s.setPair n f).free = s.free := rfl
@[simp] theorem State.setPair_pending (s : State) (n : Nat) (f : Pair → Pair) : (s.setPair n f).pending = s.pending := rfl

/-! ## After `setChan` -/

@[simp] theorem State.setChan_fuses (s : State) (n : Nat) (f : Chan → Chan) : (s.setChan n f).fuses = s.fuses := rfl
@[simp] theorem State.setChan_ts (s : State) (n : Nat) (f : Chan → Chan) : (s.setChan n f).ts = s.ts := rfl
@[simp] theorem State.setChan_health (s : State) (n : Nat) (f : Chan → Chan) : (s.setChan n f).health = s.health := rfl
@[simp] theorem State.setChan_power (s : State) (n : Nat) (f : Chan → Chan) : (s.setChan n f).power = s.power := rfl
@[simp] theorem State.setChan_fw (s : State) (n : Nat) (f : Chan → Chan) : (s.setChan n f).fw = s.fw := rfl
@[simp] theorem State.setChan_phys (s : State) (n : Nat) (f : Chan → Chan) : (s.setChan n f).phys = s.phys := rfl
@[simp] theorem State.setChan_cores (s : State) (n : Nat) (f : Chan → Chan) : (s.setChan n f).cores = s.cores := rfl
@[simp] theorem State.setChan_clusters (s : State) (n : Nat) (f : Chan → Chan) : (s.setChan n f).clusters = s.clusters := rfl
@[simp] theorem State.setChan_suites (s : State) (n : Nat) (f : Chan → Chan) : (s.setChan n f).suites = s.suites := rfl
@[simp] theorem State.setChan_flight (s : State) (n : Nat) (f : Chan → Chan) : (s.setChan n f).flight = s.flight := rfl
@[simp] theorem State.setChan_rings (s : State) (n : Nat) (f : Chan → Chan) : (s.setChan n f).rings = s.rings := rfl
@[simp] theorem State.setChan_ringProbe (s : State) (n : Nat) (f : Chan → Chan) : (s.setChan n f).ringProbe = s.ringProbe := rfl
@[simp] theorem State.setChan_ringRejects (s : State) (n : Nat) (f : Chan → Chan) : (s.setChan n f).ringRejects = s.ringRejects := rfl
@[simp] theorem State.setChan_comps (s : State) (n : Nat) (f : Chan → Chan) : (s.setChan n f).comps = s.comps := rfl
@[simp] theorem State.setChan_funcs (s : State) (n : Nat) (f : Chan → Chan) : (s.setChan n f).funcs = s.funcs := rfl
@[simp] theorem State.setChan_pairs (s : State) (n : Nat) (f : Chan → Chan) : (s.setChan n f).pairs = s.pairs := rfl
@[simp] theorem State.setChan_xlt (s : State) (n : Nat) (f : Chan → Chan) : (s.setChan n f).xlt = s.xlt := rfl
@[simp] theorem State.setChan_chans (s : State) (n : Nat) (f : Chan → Chan) : (s.setChan n f).chans = lMod s.chans n f := rfl
@[simp] theorem State.setChan_hbm (s : State) (n : Nat) (f : Chan → Chan) : (s.setChan n f).hbm = s.hbm := rfl
@[simp] theorem State.setChan_shelf (s : State) (n : Nat) (f : Chan → Chan) : (s.setChan n f).shelf = s.shelf := rfl
@[simp] theorem State.setChan_hostMem (s : State) (n : Nat) (f : Chan → Chan) : (s.setChan n f).hostMem = s.hostMem := rfl
@[simp] theorem State.setChan_flash (s : State) (n : Nat) (f : Chan → Chan) : (s.setChan n f).flash = s.flash := rfl
@[simp] theorem State.setChan_media (s : State) (n : Nat) (f : Chan → Chan) : (s.setChan n f).media = s.media := rfl
@[simp] theorem State.setChan_fab (s : State) (n : Nat) (f : Chan → Chan) : (s.setChan n f).fab = s.fab := rfl
@[simp] theorem State.setChan_log (s : State) (n : Nat) (f : Chan → Chan) : (s.setChan n f).log = s.log := rfl
@[simp] theorem State.setChan_latch (s : State) (n : Nat) (f : Chan → Chan) : (s.setChan n f).latch = s.latch := rfl
@[simp] theorem State.setChan_record (s : State) (n : Nat) (f : Chan → Chan) : (s.setChan n f).record = s.record := rfl
@[simp] theorem State.setChan_out (s : State) (n : Nat) (f : Chan → Chan) : (s.setChan n f).out = s.out := rfl
@[simp] theorem State.setChan_free (s : State) (n : Nat) (f : Chan → Chan) : (s.setChan n f).free = s.free := rfl
@[simp] theorem State.setChan_pending (s : State) (n : Nat) (f : Chan → Chan) : (s.setChan n f).pending = s.pending := rfl

/-! ## After `setCluster` -/

@[simp] theorem State.setCluster_fuses (s : State) (n : Nat) (f : Cluster → Cluster) : (s.setCluster n f).fuses = s.fuses := rfl
@[simp] theorem State.setCluster_ts (s : State) (n : Nat) (f : Cluster → Cluster) : (s.setCluster n f).ts = s.ts := rfl
@[simp] theorem State.setCluster_health (s : State) (n : Nat) (f : Cluster → Cluster) : (s.setCluster n f).health = s.health := rfl
@[simp] theorem State.setCluster_power (s : State) (n : Nat) (f : Cluster → Cluster) : (s.setCluster n f).power = s.power := rfl
@[simp] theorem State.setCluster_fw (s : State) (n : Nat) (f : Cluster → Cluster) : (s.setCluster n f).fw = s.fw := rfl
@[simp] theorem State.setCluster_phys (s : State) (n : Nat) (f : Cluster → Cluster) : (s.setCluster n f).phys = s.phys := rfl
@[simp] theorem State.setCluster_cores (s : State) (n : Nat) (f : Cluster → Cluster) : (s.setCluster n f).cores = s.cores := rfl
@[simp] theorem State.setCluster_clusters (s : State) (n : Nat) (f : Cluster → Cluster) : (s.setCluster n f).clusters = lMod s.clusters n f := rfl
@[simp] theorem State.setCluster_suites (s : State) (n : Nat) (f : Cluster → Cluster) : (s.setCluster n f).suites = s.suites := rfl
@[simp] theorem State.setCluster_flight (s : State) (n : Nat) (f : Cluster → Cluster) : (s.setCluster n f).flight = s.flight := rfl
@[simp] theorem State.setCluster_rings (s : State) (n : Nat) (f : Cluster → Cluster) : (s.setCluster n f).rings = s.rings := rfl
@[simp] theorem State.setCluster_ringProbe (s : State) (n : Nat) (f : Cluster → Cluster) : (s.setCluster n f).ringProbe = s.ringProbe := rfl
@[simp] theorem State.setCluster_ringRejects (s : State) (n : Nat) (f : Cluster → Cluster) : (s.setCluster n f).ringRejects = s.ringRejects := rfl
@[simp] theorem State.setCluster_comps (s : State) (n : Nat) (f : Cluster → Cluster) : (s.setCluster n f).comps = s.comps := rfl
@[simp] theorem State.setCluster_funcs (s : State) (n : Nat) (f : Cluster → Cluster) : (s.setCluster n f).funcs = s.funcs := rfl
@[simp] theorem State.setCluster_pairs (s : State) (n : Nat) (f : Cluster → Cluster) : (s.setCluster n f).pairs = s.pairs := rfl
@[simp] theorem State.setCluster_xlt (s : State) (n : Nat) (f : Cluster → Cluster) : (s.setCluster n f).xlt = s.xlt := rfl
@[simp] theorem State.setCluster_chans (s : State) (n : Nat) (f : Cluster → Cluster) : (s.setCluster n f).chans = s.chans := rfl
@[simp] theorem State.setCluster_hbm (s : State) (n : Nat) (f : Cluster → Cluster) : (s.setCluster n f).hbm = s.hbm := rfl
@[simp] theorem State.setCluster_shelf (s : State) (n : Nat) (f : Cluster → Cluster) : (s.setCluster n f).shelf = s.shelf := rfl
@[simp] theorem State.setCluster_hostMem (s : State) (n : Nat) (f : Cluster → Cluster) : (s.setCluster n f).hostMem = s.hostMem := rfl
@[simp] theorem State.setCluster_flash (s : State) (n : Nat) (f : Cluster → Cluster) : (s.setCluster n f).flash = s.flash := rfl
@[simp] theorem State.setCluster_media (s : State) (n : Nat) (f : Cluster → Cluster) : (s.setCluster n f).media = s.media := rfl
@[simp] theorem State.setCluster_fab (s : State) (n : Nat) (f : Cluster → Cluster) : (s.setCluster n f).fab = s.fab := rfl
@[simp] theorem State.setCluster_log (s : State) (n : Nat) (f : Cluster → Cluster) : (s.setCluster n f).log = s.log := rfl
@[simp] theorem State.setCluster_latch (s : State) (n : Nat) (f : Cluster → Cluster) : (s.setCluster n f).latch = s.latch := rfl
@[simp] theorem State.setCluster_record (s : State) (n : Nat) (f : Cluster → Cluster) : (s.setCluster n f).record = s.record := rfl
@[simp] theorem State.setCluster_out (s : State) (n : Nat) (f : Cluster → Cluster) : (s.setCluster n f).out = s.out := rfl
@[simp] theorem State.setCluster_free (s : State) (n : Nat) (f : Cluster → Cluster) : (s.setCluster n f).free = s.free := rfl
@[simp] theorem State.setCluster_pending (s : State) (n : Nat) (f : Cluster → Cluster) : (s.setCluster n f).pending = s.pending := rfl

/-! ## After `setPhys` -/

@[simp] theorem State.setPhys_fuses (s : State) (n : Nat) (f : Phys → Phys) : (s.setPhys n f).fuses = s.fuses := rfl
@[simp] theorem State.setPhys_ts (s : State) (n : Nat) (f : Phys → Phys) : (s.setPhys n f).ts = s.ts := rfl
@[simp] theorem State.setPhys_health (s : State) (n : Nat) (f : Phys → Phys) : (s.setPhys n f).health = s.health := rfl
@[simp] theorem State.setPhys_power (s : State) (n : Nat) (f : Phys → Phys) : (s.setPhys n f).power = s.power := rfl
@[simp] theorem State.setPhys_fw (s : State) (n : Nat) (f : Phys → Phys) : (s.setPhys n f).fw = s.fw := rfl
@[simp] theorem State.setPhys_phys (s : State) (n : Nat) (f : Phys → Phys) : (s.setPhys n f).phys = lMod s.phys n f := rfl
@[simp] theorem State.setPhys_cores (s : State) (n : Nat) (f : Phys → Phys) : (s.setPhys n f).cores = s.cores := rfl
@[simp] theorem State.setPhys_clusters (s : State) (n : Nat) (f : Phys → Phys) : (s.setPhys n f).clusters = s.clusters := rfl
@[simp] theorem State.setPhys_suites (s : State) (n : Nat) (f : Phys → Phys) : (s.setPhys n f).suites = s.suites := rfl
@[simp] theorem State.setPhys_flight (s : State) (n : Nat) (f : Phys → Phys) : (s.setPhys n f).flight = s.flight := rfl
@[simp] theorem State.setPhys_rings (s : State) (n : Nat) (f : Phys → Phys) : (s.setPhys n f).rings = s.rings := rfl
@[simp] theorem State.setPhys_ringProbe (s : State) (n : Nat) (f : Phys → Phys) : (s.setPhys n f).ringProbe = s.ringProbe := rfl
@[simp] theorem State.setPhys_ringRejects (s : State) (n : Nat) (f : Phys → Phys) : (s.setPhys n f).ringRejects = s.ringRejects := rfl
@[simp] theorem State.setPhys_comps (s : State) (n : Nat) (f : Phys → Phys) : (s.setPhys n f).comps = s.comps := rfl
@[simp] theorem State.setPhys_funcs (s : State) (n : Nat) (f : Phys → Phys) : (s.setPhys n f).funcs = s.funcs := rfl
@[simp] theorem State.setPhys_pairs (s : State) (n : Nat) (f : Phys → Phys) : (s.setPhys n f).pairs = s.pairs := rfl
@[simp] theorem State.setPhys_xlt (s : State) (n : Nat) (f : Phys → Phys) : (s.setPhys n f).xlt = s.xlt := rfl
@[simp] theorem State.setPhys_chans (s : State) (n : Nat) (f : Phys → Phys) : (s.setPhys n f).chans = s.chans := rfl
@[simp] theorem State.setPhys_hbm (s : State) (n : Nat) (f : Phys → Phys) : (s.setPhys n f).hbm = s.hbm := rfl
@[simp] theorem State.setPhys_shelf (s : State) (n : Nat) (f : Phys → Phys) : (s.setPhys n f).shelf = s.shelf := rfl
@[simp] theorem State.setPhys_hostMem (s : State) (n : Nat) (f : Phys → Phys) : (s.setPhys n f).hostMem = s.hostMem := rfl
@[simp] theorem State.setPhys_flash (s : State) (n : Nat) (f : Phys → Phys) : (s.setPhys n f).flash = s.flash := rfl
@[simp] theorem State.setPhys_media (s : State) (n : Nat) (f : Phys → Phys) : (s.setPhys n f).media = s.media := rfl
@[simp] theorem State.setPhys_fab (s : State) (n : Nat) (f : Phys → Phys) : (s.setPhys n f).fab = s.fab := rfl
@[simp] theorem State.setPhys_log (s : State) (n : Nat) (f : Phys → Phys) : (s.setPhys n f).log = s.log := rfl
@[simp] theorem State.setPhys_latch (s : State) (n : Nat) (f : Phys → Phys) : (s.setPhys n f).latch = s.latch := rfl
@[simp] theorem State.setPhys_record (s : State) (n : Nat) (f : Phys → Phys) : (s.setPhys n f).record = s.record := rfl
@[simp] theorem State.setPhys_out (s : State) (n : Nat) (f : Phys → Phys) : (s.setPhys n f).out = s.out := rfl
@[simp] theorem State.setPhys_free (s : State) (n : Nat) (f : Phys → Phys) : (s.setPhys n f).free = s.free := rfl
@[simp] theorem State.setPhys_pending (s : State) (n : Nat) (f : Phys → Phys) : (s.setPhys n f).pending = s.pending := rfl

/-! ## After `setRing` -/

@[simp] theorem State.setRing_fuses (s : State) (n : Nat) (f : Ring → Ring) : (s.setRing n f).fuses = s.fuses := rfl
@[simp] theorem State.setRing_ts (s : State) (n : Nat) (f : Ring → Ring) : (s.setRing n f).ts = s.ts := rfl
@[simp] theorem State.setRing_health (s : State) (n : Nat) (f : Ring → Ring) : (s.setRing n f).health = s.health := rfl
@[simp] theorem State.setRing_power (s : State) (n : Nat) (f : Ring → Ring) : (s.setRing n f).power = s.power := rfl
@[simp] theorem State.setRing_fw (s : State) (n : Nat) (f : Ring → Ring) : (s.setRing n f).fw = s.fw := rfl
@[simp] theorem State.setRing_phys (s : State) (n : Nat) (f : Ring → Ring) : (s.setRing n f).phys = s.phys := rfl
@[simp] theorem State.setRing_cores (s : State) (n : Nat) (f : Ring → Ring) : (s.setRing n f).cores = s.cores := rfl
@[simp] theorem State.setRing_clusters (s : State) (n : Nat) (f : Ring → Ring) : (s.setRing n f).clusters = s.clusters := rfl
@[simp] theorem State.setRing_suites (s : State) (n : Nat) (f : Ring → Ring) : (s.setRing n f).suites = s.suites := rfl
@[simp] theorem State.setRing_flight (s : State) (n : Nat) (f : Ring → Ring) : (s.setRing n f).flight = s.flight := rfl
@[simp] theorem State.setRing_rings (s : State) (n : Nat) (f : Ring → Ring) : (s.setRing n f).rings = aMod s.rings n f := rfl
@[simp] theorem State.setRing_ringProbe (s : State) (n : Nat) (f : Ring → Ring) : (s.setRing n f).ringProbe = s.ringProbe := rfl
@[simp] theorem State.setRing_ringRejects (s : State) (n : Nat) (f : Ring → Ring) : (s.setRing n f).ringRejects = s.ringRejects := rfl
@[simp] theorem State.setRing_comps (s : State) (n : Nat) (f : Ring → Ring) : (s.setRing n f).comps = s.comps := rfl
@[simp] theorem State.setRing_funcs (s : State) (n : Nat) (f : Ring → Ring) : (s.setRing n f).funcs = s.funcs := rfl
@[simp] theorem State.setRing_pairs (s : State) (n : Nat) (f : Ring → Ring) : (s.setRing n f).pairs = s.pairs := rfl
@[simp] theorem State.setRing_xlt (s : State) (n : Nat) (f : Ring → Ring) : (s.setRing n f).xlt = s.xlt := rfl
@[simp] theorem State.setRing_chans (s : State) (n : Nat) (f : Ring → Ring) : (s.setRing n f).chans = s.chans := rfl
@[simp] theorem State.setRing_hbm (s : State) (n : Nat) (f : Ring → Ring) : (s.setRing n f).hbm = s.hbm := rfl
@[simp] theorem State.setRing_shelf (s : State) (n : Nat) (f : Ring → Ring) : (s.setRing n f).shelf = s.shelf := rfl
@[simp] theorem State.setRing_hostMem (s : State) (n : Nat) (f : Ring → Ring) : (s.setRing n f).hostMem = s.hostMem := rfl
@[simp] theorem State.setRing_flash (s : State) (n : Nat) (f : Ring → Ring) : (s.setRing n f).flash = s.flash := rfl
@[simp] theorem State.setRing_media (s : State) (n : Nat) (f : Ring → Ring) : (s.setRing n f).media = s.media := rfl
@[simp] theorem State.setRing_fab (s : State) (n : Nat) (f : Ring → Ring) : (s.setRing n f).fab = s.fab := rfl
@[simp] theorem State.setRing_log (s : State) (n : Nat) (f : Ring → Ring) : (s.setRing n f).log = s.log := rfl
@[simp] theorem State.setRing_latch (s : State) (n : Nat) (f : Ring → Ring) : (s.setRing n f).latch = s.latch := rfl
@[simp] theorem State.setRing_record (s : State) (n : Nat) (f : Ring → Ring) : (s.setRing n f).record = s.record := rfl
@[simp] theorem State.setRing_out (s : State) (n : Nat) (f : Ring → Ring) : (s.setRing n f).out = s.out := rfl
@[simp] theorem State.setRing_free (s : State) (n : Nat) (f : Ring → Ring) : (s.setRing n f).free = s.free := rfl
@[simp] theorem State.setRing_pending (s : State) (n : Nat) (f : Ring → Ring) : (s.setRing n f).pending = s.pending := rfl

/-! ## After `setXlt` -/

@[simp] theorem State.setXlt_fuses (s : State) (f : Xlt → Xlt) : (s.setXlt f).fuses = s.fuses := rfl
@[simp] theorem State.setXlt_ts (s : State) (f : Xlt → Xlt) : (s.setXlt f).ts = s.ts := rfl
@[simp] theorem State.setXlt_health (s : State) (f : Xlt → Xlt) : (s.setXlt f).health = s.health := rfl
@[simp] theorem State.setXlt_power (s : State) (f : Xlt → Xlt) : (s.setXlt f).power = s.power := rfl
@[simp] theorem State.setXlt_fw (s : State) (f : Xlt → Xlt) : (s.setXlt f).fw = s.fw := rfl
@[simp] theorem State.setXlt_phys (s : State) (f : Xlt → Xlt) : (s.setXlt f).phys = s.phys := rfl
@[simp] theorem State.setXlt_cores (s : State) (f : Xlt → Xlt) : (s.setXlt f).cores = s.cores := rfl
@[simp] theorem State.setXlt_clusters (s : State) (f : Xlt → Xlt) : (s.setXlt f).clusters = s.clusters := rfl
@[simp] theorem State.setXlt_suites (s : State) (f : Xlt → Xlt) : (s.setXlt f).suites = s.suites := rfl
@[simp] theorem State.setXlt_flight (s : State) (f : Xlt → Xlt) : (s.setXlt f).flight = s.flight := rfl
@[simp] theorem State.setXlt_rings (s : State) (f : Xlt → Xlt) : (s.setXlt f).rings = s.rings := rfl
@[simp] theorem State.setXlt_ringProbe (s : State) (f : Xlt → Xlt) : (s.setXlt f).ringProbe = s.ringProbe := rfl
@[simp] theorem State.setXlt_ringRejects (s : State) (f : Xlt → Xlt) : (s.setXlt f).ringRejects = s.ringRejects := rfl
@[simp] theorem State.setXlt_comps (s : State) (f : Xlt → Xlt) : (s.setXlt f).comps = s.comps := rfl
@[simp] theorem State.setXlt_funcs (s : State) (f : Xlt → Xlt) : (s.setXlt f).funcs = s.funcs := rfl
@[simp] theorem State.setXlt_pairs (s : State) (f : Xlt → Xlt) : (s.setXlt f).pairs = s.pairs := rfl
@[simp] theorem State.setXlt_xlt (s : State) (f : Xlt → Xlt) : (s.setXlt f).xlt = f s.xlt := rfl
@[simp] theorem State.setXlt_chans (s : State) (f : Xlt → Xlt) : (s.setXlt f).chans = s.chans := rfl
@[simp] theorem State.setXlt_hbm (s : State) (f : Xlt → Xlt) : (s.setXlt f).hbm = s.hbm := rfl
@[simp] theorem State.setXlt_shelf (s : State) (f : Xlt → Xlt) : (s.setXlt f).shelf = s.shelf := rfl
@[simp] theorem State.setXlt_hostMem (s : State) (f : Xlt → Xlt) : (s.setXlt f).hostMem = s.hostMem := rfl
@[simp] theorem State.setXlt_flash (s : State) (f : Xlt → Xlt) : (s.setXlt f).flash = s.flash := rfl
@[simp] theorem State.setXlt_media (s : State) (f : Xlt → Xlt) : (s.setXlt f).media = s.media := rfl
@[simp] theorem State.setXlt_fab (s : State) (f : Xlt → Xlt) : (s.setXlt f).fab = s.fab := rfl
@[simp] theorem State.setXlt_log (s : State) (f : Xlt → Xlt) : (s.setXlt f).log = s.log := rfl
@[simp] theorem State.setXlt_latch (s : State) (f : Xlt → Xlt) : (s.setXlt f).latch = s.latch := rfl
@[simp] theorem State.setXlt_record (s : State) (f : Xlt → Xlt) : (s.setXlt f).record = s.record := rfl
@[simp] theorem State.setXlt_out (s : State) (f : Xlt → Xlt) : (s.setXlt f).out = s.out := rfl
@[simp] theorem State.setXlt_free (s : State) (f : Xlt → Xlt) : (s.setXlt f).free = s.free := rfl
@[simp] theorem State.setXlt_pending (s : State) (f : Xlt → Xlt) : (s.setXlt f).pending = s.pending := rfl

/-! ## After `setFw` -/

@[simp] theorem State.setFw_fuses (s : State) (f : Fw → Fw) : (s.setFw f).fuses = s.fuses := rfl
@[simp] theorem State.setFw_ts (s : State) (f : Fw → Fw) : (s.setFw f).ts = s.ts := rfl
@[simp] theorem State.setFw_health (s : State) (f : Fw → Fw) : (s.setFw f).health = s.health := rfl
@[simp] theorem State.setFw_power (s : State) (f : Fw → Fw) : (s.setFw f).power = s.power := rfl
@[simp] theorem State.setFw_fw (s : State) (f : Fw → Fw) : (s.setFw f).fw = f s.fw := rfl
@[simp] theorem State.setFw_phys (s : State) (f : Fw → Fw) : (s.setFw f).phys = s.phys := rfl
@[simp] theorem State.setFw_cores (s : State) (f : Fw → Fw) : (s.setFw f).cores = s.cores := rfl
@[simp] theorem State.setFw_clusters (s : State) (f : Fw → Fw) : (s.setFw f).clusters = s.clusters := rfl
@[simp] theorem State.setFw_suites (s : State) (f : Fw → Fw) : (s.setFw f).suites = s.suites := rfl
@[simp] theorem State.setFw_flight (s : State) (f : Fw → Fw) : (s.setFw f).flight = s.flight := rfl
@[simp] theorem State.setFw_rings (s : State) (f : Fw → Fw) : (s.setFw f).rings = s.rings := rfl
@[simp] theorem State.setFw_ringProbe (s : State) (f : Fw → Fw) : (s.setFw f).ringProbe = s.ringProbe := rfl
@[simp] theorem State.setFw_ringRejects (s : State) (f : Fw → Fw) : (s.setFw f).ringRejects = s.ringRejects := rfl
@[simp] theorem State.setFw_comps (s : State) (f : Fw → Fw) : (s.setFw f).comps = s.comps := rfl
@[simp] theorem State.setFw_funcs (s : State) (f : Fw → Fw) : (s.setFw f).funcs = s.funcs := rfl
@[simp] theorem State.setFw_pairs (s : State) (f : Fw → Fw) : (s.setFw f).pairs = s.pairs := rfl
@[simp] theorem State.setFw_xlt (s : State) (f : Fw → Fw) : (s.setFw f).xlt = s.xlt := rfl
@[simp] theorem State.setFw_chans (s : State) (f : Fw → Fw) : (s.setFw f).chans = s.chans := rfl
@[simp] theorem State.setFw_hbm (s : State) (f : Fw → Fw) : (s.setFw f).hbm = s.hbm := rfl
@[simp] theorem State.setFw_shelf (s : State) (f : Fw → Fw) : (s.setFw f).shelf = s.shelf := rfl
@[simp] theorem State.setFw_hostMem (s : State) (f : Fw → Fw) : (s.setFw f).hostMem = s.hostMem := rfl
@[simp] theorem State.setFw_flash (s : State) (f : Fw → Fw) : (s.setFw f).flash = s.flash := rfl
@[simp] theorem State.setFw_media (s : State) (f : Fw → Fw) : (s.setFw f).media = s.media := rfl
@[simp] theorem State.setFw_fab (s : State) (f : Fw → Fw) : (s.setFw f).fab = s.fab := rfl
@[simp] theorem State.setFw_log (s : State) (f : Fw → Fw) : (s.setFw f).log = s.log := rfl
@[simp] theorem State.setFw_latch (s : State) (f : Fw → Fw) : (s.setFw f).latch = s.latch := rfl
@[simp] theorem State.setFw_record (s : State) (f : Fw → Fw) : (s.setFw f).record = s.record := rfl
@[simp] theorem State.setFw_out (s : State) (f : Fw → Fw) : (s.setFw f).out = s.out := rfl
@[simp] theorem State.setFw_free (s : State) (f : Fw → Fw) : (s.setFw f).free = s.free := rfl
@[simp] theorem State.setFw_pending (s : State) (f : Fw → Fw) : (s.setFw f).pending = s.pending := rfl

/-! ## After `setFab` -/

@[simp] theorem State.setFab_fuses (s : State) (f : Fab → Fab) : (s.setFab f).fuses = s.fuses := rfl
@[simp] theorem State.setFab_ts (s : State) (f : Fab → Fab) : (s.setFab f).ts = s.ts := rfl
@[simp] theorem State.setFab_health (s : State) (f : Fab → Fab) : (s.setFab f).health = s.health := rfl
@[simp] theorem State.setFab_power (s : State) (f : Fab → Fab) : (s.setFab f).power = s.power := rfl
@[simp] theorem State.setFab_fw (s : State) (f : Fab → Fab) : (s.setFab f).fw = s.fw := rfl
@[simp] theorem State.setFab_phys (s : State) (f : Fab → Fab) : (s.setFab f).phys = s.phys := rfl
@[simp] theorem State.setFab_cores (s : State) (f : Fab → Fab) : (s.setFab f).cores = s.cores := rfl
@[simp] theorem State.setFab_clusters (s : State) (f : Fab → Fab) : (s.setFab f).clusters = s.clusters := rfl
@[simp] theorem State.setFab_suites (s : State) (f : Fab → Fab) : (s.setFab f).suites = s.suites := rfl
@[simp] theorem State.setFab_flight (s : State) (f : Fab → Fab) : (s.setFab f).flight = s.flight := rfl
@[simp] theorem State.setFab_rings (s : State) (f : Fab → Fab) : (s.setFab f).rings = s.rings := rfl
@[simp] theorem State.setFab_ringProbe (s : State) (f : Fab → Fab) : (s.setFab f).ringProbe = s.ringProbe := rfl
@[simp] theorem State.setFab_ringRejects (s : State) (f : Fab → Fab) : (s.setFab f).ringRejects = s.ringRejects := rfl
@[simp] theorem State.setFab_comps (s : State) (f : Fab → Fab) : (s.setFab f).comps = s.comps := rfl
@[simp] theorem State.setFab_funcs (s : State) (f : Fab → Fab) : (s.setFab f).funcs = s.funcs := rfl
@[simp] theorem State.setFab_pairs (s : State) (f : Fab → Fab) : (s.setFab f).pairs = s.pairs := rfl
@[simp] theorem State.setFab_xlt (s : State) (f : Fab → Fab) : (s.setFab f).xlt = s.xlt := rfl
@[simp] theorem State.setFab_chans (s : State) (f : Fab → Fab) : (s.setFab f).chans = s.chans := rfl
@[simp] theorem State.setFab_hbm (s : State) (f : Fab → Fab) : (s.setFab f).hbm = s.hbm := rfl
@[simp] theorem State.setFab_shelf (s : State) (f : Fab → Fab) : (s.setFab f).shelf = s.shelf := rfl
@[simp] theorem State.setFab_hostMem (s : State) (f : Fab → Fab) : (s.setFab f).hostMem = s.hostMem := rfl
@[simp] theorem State.setFab_flash (s : State) (f : Fab → Fab) : (s.setFab f).flash = s.flash := rfl
@[simp] theorem State.setFab_media (s : State) (f : Fab → Fab) : (s.setFab f).media = s.media := rfl
@[simp] theorem State.setFab_fab (s : State) (f : Fab → Fab) : (s.setFab f).fab = f s.fab := rfl
@[simp] theorem State.setFab_log (s : State) (f : Fab → Fab) : (s.setFab f).log = s.log := rfl
@[simp] theorem State.setFab_latch (s : State) (f : Fab → Fab) : (s.setFab f).latch = s.latch := rfl
@[simp] theorem State.setFab_record (s : State) (f : Fab → Fab) : (s.setFab f).record = s.record := rfl
@[simp] theorem State.setFab_out (s : State) (f : Fab → Fab) : (s.setFab f).out = s.out := rfl
@[simp] theorem State.setFab_free (s : State) (f : Fab → Fab) : (s.setFab f).free = s.free := rfl
@[simp] theorem State.setFab_pending (s : State) (f : Fab → Fab) : (s.setFab f).pending = s.pending := rfl

/-! ## After `setMedia` -/

@[simp] theorem State.setMedia_fuses (s : State) (f : Media → Media) : (s.setMedia f).fuses = s.fuses := rfl
@[simp] theorem State.setMedia_ts (s : State) (f : Media → Media) : (s.setMedia f).ts = s.ts := rfl
@[simp] theorem State.setMedia_health (s : State) (f : Media → Media) : (s.setMedia f).health = s.health := rfl
@[simp] theorem State.setMedia_power (s : State) (f : Media → Media) : (s.setMedia f).power = s.power := rfl
@[simp] theorem State.setMedia_fw (s : State) (f : Media → Media) : (s.setMedia f).fw = s.fw := rfl
@[simp] theorem State.setMedia_phys (s : State) (f : Media → Media) : (s.setMedia f).phys = s.phys := rfl
@[simp] theorem State.setMedia_cores (s : State) (f : Media → Media) : (s.setMedia f).cores = s.cores := rfl
@[simp] theorem State.setMedia_clusters (s : State) (f : Media → Media) : (s.setMedia f).clusters = s.clusters := rfl
@[simp] theorem State.setMedia_suites (s : State) (f : Media → Media) : (s.setMedia f).suites = s.suites := rfl
@[simp] theorem State.setMedia_flight (s : State) (f : Media → Media) : (s.setMedia f).flight = s.flight := rfl
@[simp] theorem State.setMedia_rings (s : State) (f : Media → Media) : (s.setMedia f).rings = s.rings := rfl
@[simp] theorem State.setMedia_ringProbe (s : State) (f : Media → Media) : (s.setMedia f).ringProbe = s.ringProbe := rfl
@[simp] theorem State.setMedia_ringRejects (s : State) (f : Media → Media) : (s.setMedia f).ringRejects = s.ringRejects := rfl
@[simp] theorem State.setMedia_comps (s : State) (f : Media → Media) : (s.setMedia f).comps = s.comps := rfl
@[simp] theorem State.setMedia_funcs (s : State) (f : Media → Media) : (s.setMedia f).funcs = s.funcs := rfl
@[simp] theorem State.setMedia_pairs (s : State) (f : Media → Media) : (s.setMedia f).pairs = s.pairs := rfl
@[simp] theorem State.setMedia_xlt (s : State) (f : Media → Media) : (s.setMedia f).xlt = s.xlt := rfl
@[simp] theorem State.setMedia_chans (s : State) (f : Media → Media) : (s.setMedia f).chans = s.chans := rfl
@[simp] theorem State.setMedia_hbm (s : State) (f : Media → Media) : (s.setMedia f).hbm = s.hbm := rfl
@[simp] theorem State.setMedia_shelf (s : State) (f : Media → Media) : (s.setMedia f).shelf = s.shelf := rfl
@[simp] theorem State.setMedia_hostMem (s : State) (f : Media → Media) : (s.setMedia f).hostMem = s.hostMem := rfl
@[simp] theorem State.setMedia_flash (s : State) (f : Media → Media) : (s.setMedia f).flash = s.flash := rfl
@[simp] theorem State.setMedia_media (s : State) (f : Media → Media) : (s.setMedia f).media = f s.media := rfl
@[simp] theorem State.setMedia_fab (s : State) (f : Media → Media) : (s.setMedia f).fab = s.fab := rfl
@[simp] theorem State.setMedia_log (s : State) (f : Media → Media) : (s.setMedia f).log = s.log := rfl
@[simp] theorem State.setMedia_latch (s : State) (f : Media → Media) : (s.setMedia f).latch = s.latch := rfl
@[simp] theorem State.setMedia_record (s : State) (f : Media → Media) : (s.setMedia f).record = s.record := rfl
@[simp] theorem State.setMedia_out (s : State) (f : Media → Media) : (s.setMedia f).out = s.out := rfl
@[simp] theorem State.setMedia_free (s : State) (f : Media → Media) : (s.setMedia f).free = s.free := rfl
@[simp] theorem State.setMedia_pending (s : State) (f : Media → Media) : (s.setMedia f).pending = s.pending := rfl

/-! ## After `setHealth` -/

@[simp] theorem State.setHealth_fuses (s : State) (f : Health → Health) : (s.setHealth f).fuses = s.fuses := rfl
@[simp] theorem State.setHealth_ts (s : State) (f : Health → Health) : (s.setHealth f).ts = s.ts := rfl
@[simp] theorem State.setHealth_health (s : State) (f : Health → Health) : (s.setHealth f).health = f s.health := rfl
@[simp] theorem State.setHealth_power (s : State) (f : Health → Health) : (s.setHealth f).power = s.power := rfl
@[simp] theorem State.setHealth_fw (s : State) (f : Health → Health) : (s.setHealth f).fw = s.fw := rfl
@[simp] theorem State.setHealth_phys (s : State) (f : Health → Health) : (s.setHealth f).phys = s.phys := rfl
@[simp] theorem State.setHealth_cores (s : State) (f : Health → Health) : (s.setHealth f).cores = s.cores := rfl
@[simp] theorem State.setHealth_clusters (s : State) (f : Health → Health) : (s.setHealth f).clusters = s.clusters := rfl
@[simp] theorem State.setHealth_suites (s : State) (f : Health → Health) : (s.setHealth f).suites = s.suites := rfl
@[simp] theorem State.setHealth_flight (s : State) (f : Health → Health) : (s.setHealth f).flight = s.flight := rfl
@[simp] theorem State.setHealth_rings (s : State) (f : Health → Health) : (s.setHealth f).rings = s.rings := rfl
@[simp] theorem State.setHealth_ringProbe (s : State) (f : Health → Health) : (s.setHealth f).ringProbe = s.ringProbe := rfl
@[simp] theorem State.setHealth_ringRejects (s : State) (f : Health → Health) : (s.setHealth f).ringRejects = s.ringRejects := rfl
@[simp] theorem State.setHealth_comps (s : State) (f : Health → Health) : (s.setHealth f).comps = s.comps := rfl
@[simp] theorem State.setHealth_funcs (s : State) (f : Health → Health) : (s.setHealth f).funcs = s.funcs := rfl
@[simp] theorem State.setHealth_pairs (s : State) (f : Health → Health) : (s.setHealth f).pairs = s.pairs := rfl
@[simp] theorem State.setHealth_xlt (s : State) (f : Health → Health) : (s.setHealth f).xlt = s.xlt := rfl
@[simp] theorem State.setHealth_chans (s : State) (f : Health → Health) : (s.setHealth f).chans = s.chans := rfl
@[simp] theorem State.setHealth_hbm (s : State) (f : Health → Health) : (s.setHealth f).hbm = s.hbm := rfl
@[simp] theorem State.setHealth_shelf (s : State) (f : Health → Health) : (s.setHealth f).shelf = s.shelf := rfl
@[simp] theorem State.setHealth_hostMem (s : State) (f : Health → Health) : (s.setHealth f).hostMem = s.hostMem := rfl
@[simp] theorem State.setHealth_flash (s : State) (f : Health → Health) : (s.setHealth f).flash = s.flash := rfl
@[simp] theorem State.setHealth_media (s : State) (f : Health → Health) : (s.setHealth f).media = s.media := rfl
@[simp] theorem State.setHealth_fab (s : State) (f : Health → Health) : (s.setHealth f).fab = s.fab := rfl
@[simp] theorem State.setHealth_log (s : State) (f : Health → Health) : (s.setHealth f).log = s.log := rfl
@[simp] theorem State.setHealth_latch (s : State) (f : Health → Health) : (s.setHealth f).latch = s.latch := rfl
@[simp] theorem State.setHealth_record (s : State) (f : Health → Health) : (s.setHealth f).record = s.record := rfl
@[simp] theorem State.setHealth_out (s : State) (f : Health → Health) : (s.setHealth f).out = s.out := rfl
@[simp] theorem State.setHealth_free (s : State) (f : Health → Health) : (s.setHealth f).free = s.free := rfl
@[simp] theorem State.setHealth_pending (s : State) (f : Health → Health) : (s.setHealth f).pending = s.pending := rfl

/-! ## After `setPower` -/

@[simp] theorem State.setPower_fuses (s : State) (f : Power → Power) : (s.setPower f).fuses = s.fuses := rfl
@[simp] theorem State.setPower_ts (s : State) (f : Power → Power) : (s.setPower f).ts = s.ts := rfl
@[simp] theorem State.setPower_health (s : State) (f : Power → Power) : (s.setPower f).health = s.health := rfl
@[simp] theorem State.setPower_power (s : State) (f : Power → Power) : (s.setPower f).power = f s.power := rfl
@[simp] theorem State.setPower_fw (s : State) (f : Power → Power) : (s.setPower f).fw = s.fw := rfl
@[simp] theorem State.setPower_phys (s : State) (f : Power → Power) : (s.setPower f).phys = s.phys := rfl
@[simp] theorem State.setPower_cores (s : State) (f : Power → Power) : (s.setPower f).cores = s.cores := rfl
@[simp] theorem State.setPower_clusters (s : State) (f : Power → Power) : (s.setPower f).clusters = s.clusters := rfl
@[simp] theorem State.setPower_suites (s : State) (f : Power → Power) : (s.setPower f).suites = s.suites := rfl
@[simp] theorem State.setPower_flight (s : State) (f : Power → Power) : (s.setPower f).flight = s.flight := rfl
@[simp] theorem State.setPower_rings (s : State) (f : Power → Power) : (s.setPower f).rings = s.rings := rfl
@[simp] theorem State.setPower_ringProbe (s : State) (f : Power → Power) : (s.setPower f).ringProbe = s.ringProbe := rfl
@[simp] theorem State.setPower_ringRejects (s : State) (f : Power → Power) : (s.setPower f).ringRejects = s.ringRejects := rfl
@[simp] theorem State.setPower_comps (s : State) (f : Power → Power) : (s.setPower f).comps = s.comps := rfl
@[simp] theorem State.setPower_funcs (s : State) (f : Power → Power) : (s.setPower f).funcs = s.funcs := rfl
@[simp] theorem State.setPower_pairs (s : State) (f : Power → Power) : (s.setPower f).pairs = s.pairs := rfl
@[simp] theorem State.setPower_xlt (s : State) (f : Power → Power) : (s.setPower f).xlt = s.xlt := rfl
@[simp] theorem State.setPower_chans (s : State) (f : Power → Power) : (s.setPower f).chans = s.chans := rfl
@[simp] theorem State.setPower_hbm (s : State) (f : Power → Power) : (s.setPower f).hbm = s.hbm := rfl
@[simp] theorem State.setPower_shelf (s : State) (f : Power → Power) : (s.setPower f).shelf = s.shelf := rfl
@[simp] theorem State.setPower_hostMem (s : State) (f : Power → Power) : (s.setPower f).hostMem = s.hostMem := rfl
@[simp] theorem State.setPower_flash (s : State) (f : Power → Power) : (s.setPower f).flash = s.flash := rfl
@[simp] theorem State.setPower_media (s : State) (f : Power → Power) : (s.setPower f).media = s.media := rfl
@[simp] theorem State.setPower_fab (s : State) (f : Power → Power) : (s.setPower f).fab = s.fab := rfl
@[simp] theorem State.setPower_log (s : State) (f : Power → Power) : (s.setPower f).log = s.log := rfl
@[simp] theorem State.setPower_latch (s : State) (f : Power → Power) : (s.setPower f).latch = s.latch := rfl
@[simp] theorem State.setPower_record (s : State) (f : Power → Power) : (s.setPower f).record = s.record := rfl
@[simp] theorem State.setPower_out (s : State) (f : Power → Power) : (s.setPower f).out = s.out := rfl
@[simp] theorem State.setPower_free (s : State) (f : Power → Power) : (s.setPower f).free = s.free := rfl
@[simp] theorem State.setPower_pending (s : State) (f : Power → Power) : (s.setPower f).pending = s.pending := rfl

/-! ## After `setTs` -/

@[simp] theorem State.setTs_fuses (s : State) (f : TimeBase → TimeBase) : (s.setTs f).fuses = s.fuses := rfl
@[simp] theorem State.setTs_ts (s : State) (f : TimeBase → TimeBase) : (s.setTs f).ts = f s.ts := rfl
@[simp] theorem State.setTs_health (s : State) (f : TimeBase → TimeBase) : (s.setTs f).health = s.health := rfl
@[simp] theorem State.setTs_power (s : State) (f : TimeBase → TimeBase) : (s.setTs f).power = s.power := rfl
@[simp] theorem State.setTs_fw (s : State) (f : TimeBase → TimeBase) : (s.setTs f).fw = s.fw := rfl
@[simp] theorem State.setTs_phys (s : State) (f : TimeBase → TimeBase) : (s.setTs f).phys = s.phys := rfl
@[simp] theorem State.setTs_cores (s : State) (f : TimeBase → TimeBase) : (s.setTs f).cores = s.cores := rfl
@[simp] theorem State.setTs_clusters (s : State) (f : TimeBase → TimeBase) : (s.setTs f).clusters = s.clusters := rfl
@[simp] theorem State.setTs_suites (s : State) (f : TimeBase → TimeBase) : (s.setTs f).suites = s.suites := rfl
@[simp] theorem State.setTs_flight (s : State) (f : TimeBase → TimeBase) : (s.setTs f).flight = s.flight := rfl
@[simp] theorem State.setTs_rings (s : State) (f : TimeBase → TimeBase) : (s.setTs f).rings = s.rings := rfl
@[simp] theorem State.setTs_ringProbe (s : State) (f : TimeBase → TimeBase) : (s.setTs f).ringProbe = s.ringProbe := rfl
@[simp] theorem State.setTs_ringRejects (s : State) (f : TimeBase → TimeBase) : (s.setTs f).ringRejects = s.ringRejects := rfl
@[simp] theorem State.setTs_comps (s : State) (f : TimeBase → TimeBase) : (s.setTs f).comps = s.comps := rfl
@[simp] theorem State.setTs_funcs (s : State) (f : TimeBase → TimeBase) : (s.setTs f).funcs = s.funcs := rfl
@[simp] theorem State.setTs_pairs (s : State) (f : TimeBase → TimeBase) : (s.setTs f).pairs = s.pairs := rfl
@[simp] theorem State.setTs_xlt (s : State) (f : TimeBase → TimeBase) : (s.setTs f).xlt = s.xlt := rfl
@[simp] theorem State.setTs_chans (s : State) (f : TimeBase → TimeBase) : (s.setTs f).chans = s.chans := rfl
@[simp] theorem State.setTs_hbm (s : State) (f : TimeBase → TimeBase) : (s.setTs f).hbm = s.hbm := rfl
@[simp] theorem State.setTs_shelf (s : State) (f : TimeBase → TimeBase) : (s.setTs f).shelf = s.shelf := rfl
@[simp] theorem State.setTs_hostMem (s : State) (f : TimeBase → TimeBase) : (s.setTs f).hostMem = s.hostMem := rfl
@[simp] theorem State.setTs_flash (s : State) (f : TimeBase → TimeBase) : (s.setTs f).flash = s.flash := rfl
@[simp] theorem State.setTs_media (s : State) (f : TimeBase → TimeBase) : (s.setTs f).media = s.media := rfl
@[simp] theorem State.setTs_fab (s : State) (f : TimeBase → TimeBase) : (s.setTs f).fab = s.fab := rfl
@[simp] theorem State.setTs_log (s : State) (f : TimeBase → TimeBase) : (s.setTs f).log = s.log := rfl
@[simp] theorem State.setTs_latch (s : State) (f : TimeBase → TimeBase) : (s.setTs f).latch = s.latch := rfl
@[simp] theorem State.setTs_record (s : State) (f : TimeBase → TimeBase) : (s.setTs f).record = s.record := rfl
@[simp] theorem State.setTs_out (s : State) (f : TimeBase → TimeBase) : (s.setTs f).out = s.out := rfl
@[simp] theorem State.setTs_free (s : State) (f : TimeBase → TimeBase) : (s.setTs f).free = s.free := rfl
@[simp] theorem State.setTs_pending (s : State) (f : TimeBase → TimeBase) : (s.setTs f).pending = s.pending := rfl

/-! ## After `setOut` -/

@[simp] theorem State.setOut_fuses (s : State) (f : Out → Out) : (s.setOut f).fuses = s.fuses := rfl
@[simp] theorem State.setOut_ts (s : State) (f : Out → Out) : (s.setOut f).ts = s.ts := rfl
@[simp] theorem State.setOut_health (s : State) (f : Out → Out) : (s.setOut f).health = s.health := rfl
@[simp] theorem State.setOut_power (s : State) (f : Out → Out) : (s.setOut f).power = s.power := rfl
@[simp] theorem State.setOut_fw (s : State) (f : Out → Out) : (s.setOut f).fw = s.fw := rfl
@[simp] theorem State.setOut_phys (s : State) (f : Out → Out) : (s.setOut f).phys = s.phys := rfl
@[simp] theorem State.setOut_cores (s : State) (f : Out → Out) : (s.setOut f).cores = s.cores := rfl
@[simp] theorem State.setOut_clusters (s : State) (f : Out → Out) : (s.setOut f).clusters = s.clusters := rfl
@[simp] theorem State.setOut_suites (s : State) (f : Out → Out) : (s.setOut f).suites = s.suites := rfl
@[simp] theorem State.setOut_flight (s : State) (f : Out → Out) : (s.setOut f).flight = s.flight := rfl
@[simp] theorem State.setOut_rings (s : State) (f : Out → Out) : (s.setOut f).rings = s.rings := rfl
@[simp] theorem State.setOut_ringProbe (s : State) (f : Out → Out) : (s.setOut f).ringProbe = s.ringProbe := rfl
@[simp] theorem State.setOut_ringRejects (s : State) (f : Out → Out) : (s.setOut f).ringRejects = s.ringRejects := rfl
@[simp] theorem State.setOut_comps (s : State) (f : Out → Out) : (s.setOut f).comps = s.comps := rfl
@[simp] theorem State.setOut_funcs (s : State) (f : Out → Out) : (s.setOut f).funcs = s.funcs := rfl
@[simp] theorem State.setOut_pairs (s : State) (f : Out → Out) : (s.setOut f).pairs = s.pairs := rfl
@[simp] theorem State.setOut_xlt (s : State) (f : Out → Out) : (s.setOut f).xlt = s.xlt := rfl
@[simp] theorem State.setOut_chans (s : State) (f : Out → Out) : (s.setOut f).chans = s.chans := rfl
@[simp] theorem State.setOut_hbm (s : State) (f : Out → Out) : (s.setOut f).hbm = s.hbm := rfl
@[simp] theorem State.setOut_shelf (s : State) (f : Out → Out) : (s.setOut f).shelf = s.shelf := rfl
@[simp] theorem State.setOut_hostMem (s : State) (f : Out → Out) : (s.setOut f).hostMem = s.hostMem := rfl
@[simp] theorem State.setOut_flash (s : State) (f : Out → Out) : (s.setOut f).flash = s.flash := rfl
@[simp] theorem State.setOut_media (s : State) (f : Out → Out) : (s.setOut f).media = s.media := rfl
@[simp] theorem State.setOut_fab (s : State) (f : Out → Out) : (s.setOut f).fab = s.fab := rfl
@[simp] theorem State.setOut_log (s : State) (f : Out → Out) : (s.setOut f).log = s.log := rfl
@[simp] theorem State.setOut_latch (s : State) (f : Out → Out) : (s.setOut f).latch = s.latch := rfl
@[simp] theorem State.setOut_record (s : State) (f : Out → Out) : (s.setOut f).record = s.record := rfl
@[simp] theorem State.setOut_out (s : State) (f : Out → Out) : (s.setOut f).out = f s.out := rfl
@[simp] theorem State.setOut_free (s : State) (f : Out → Out) : (s.setOut f).free = s.free := rfl
@[simp] theorem State.setOut_pending (s : State) (f : Out → Out) : (s.setOut f).pending = s.pending := rfl

/-! ## After `withPending` -/

@[simp] theorem State.withPending_fuses (s : State) (q : List Instr) : (s.withPending q).fuses = s.fuses := rfl
@[simp] theorem State.withPending_ts (s : State) (q : List Instr) : (s.withPending q).ts = s.ts := rfl
@[simp] theorem State.withPending_health (s : State) (q : List Instr) : (s.withPending q).health = s.health := rfl
@[simp] theorem State.withPending_power (s : State) (q : List Instr) : (s.withPending q).power = s.power := rfl
@[simp] theorem State.withPending_fw (s : State) (q : List Instr) : (s.withPending q).fw = s.fw := rfl
@[simp] theorem State.withPending_phys (s : State) (q : List Instr) : (s.withPending q).phys = s.phys := rfl
@[simp] theorem State.withPending_cores (s : State) (q : List Instr) : (s.withPending q).cores = s.cores := rfl
@[simp] theorem State.withPending_clusters (s : State) (q : List Instr) : (s.withPending q).clusters = s.clusters := rfl
@[simp] theorem State.withPending_suites (s : State) (q : List Instr) : (s.withPending q).suites = s.suites := rfl
@[simp] theorem State.withPending_flight (s : State) (q : List Instr) : (s.withPending q).flight = s.flight := rfl
@[simp] theorem State.withPending_rings (s : State) (q : List Instr) : (s.withPending q).rings = s.rings := rfl
@[simp] theorem State.withPending_ringProbe (s : State) (q : List Instr) : (s.withPending q).ringProbe = s.ringProbe := rfl
@[simp] theorem State.withPending_ringRejects (s : State) (q : List Instr) : (s.withPending q).ringRejects = s.ringRejects := rfl
@[simp] theorem State.withPending_comps (s : State) (q : List Instr) : (s.withPending q).comps = s.comps := rfl
@[simp] theorem State.withPending_funcs (s : State) (q : List Instr) : (s.withPending q).funcs = s.funcs := rfl
@[simp] theorem State.withPending_pairs (s : State) (q : List Instr) : (s.withPending q).pairs = s.pairs := rfl
@[simp] theorem State.withPending_xlt (s : State) (q : List Instr) : (s.withPending q).xlt = s.xlt := rfl
@[simp] theorem State.withPending_chans (s : State) (q : List Instr) : (s.withPending q).chans = s.chans := rfl
@[simp] theorem State.withPending_hbm (s : State) (q : List Instr) : (s.withPending q).hbm = s.hbm := rfl
@[simp] theorem State.withPending_shelf (s : State) (q : List Instr) : (s.withPending q).shelf = s.shelf := rfl
@[simp] theorem State.withPending_hostMem (s : State) (q : List Instr) : (s.withPending q).hostMem = s.hostMem := rfl
@[simp] theorem State.withPending_flash (s : State) (q : List Instr) : (s.withPending q).flash = s.flash := rfl
@[simp] theorem State.withPending_media (s : State) (q : List Instr) : (s.withPending q).media = s.media := rfl
@[simp] theorem State.withPending_fab (s : State) (q : List Instr) : (s.withPending q).fab = s.fab := rfl
@[simp] theorem State.withPending_log (s : State) (q : List Instr) : (s.withPending q).log = s.log := rfl
@[simp] theorem State.withPending_latch (s : State) (q : List Instr) : (s.withPending q).latch = s.latch := rfl
@[simp] theorem State.withPending_record (s : State) (q : List Instr) : (s.withPending q).record = s.record := rfl
@[simp] theorem State.withPending_out (s : State) (q : List Instr) : (s.withPending q).out = s.out := rfl
@[simp] theorem State.withPending_free (s : State) (q : List Instr) : (s.withPending q).free = s.free := rfl
@[simp] theorem State.withPending_pending (s : State) (q : List Instr) : (s.withPending q).pending = q := rfl

/-! ## After a draw -/

@[simp] theorem State.draw_fuses (s : State) : s.draw.2.fuses = s.fuses := rfl
@[simp] theorem State.draw_ts (s : State) : s.draw.2.ts = s.ts := rfl
@[simp] theorem State.draw_health (s : State) : s.draw.2.health = s.health := rfl
@[simp] theorem State.draw_power (s : State) : s.draw.2.power = s.power := rfl
@[simp] theorem State.draw_fw (s : State) : s.draw.2.fw = s.fw := rfl
@[simp] theorem State.draw_phys (s : State) : s.draw.2.phys = s.phys := rfl
@[simp] theorem State.draw_cores (s : State) : s.draw.2.cores = s.cores := rfl
@[simp] theorem State.draw_clusters (s : State) : s.draw.2.clusters = s.clusters := rfl
@[simp] theorem State.draw_suites (s : State) : s.draw.2.suites = s.suites := rfl
@[simp] theorem State.draw_flight (s : State) : s.draw.2.flight = s.flight := rfl
@[simp] theorem State.draw_rings (s : State) : s.draw.2.rings = s.rings := rfl
@[simp] theorem State.draw_ringProbe (s : State) : s.draw.2.ringProbe = s.ringProbe := rfl
@[simp] theorem State.draw_ringRejects (s : State) : s.draw.2.ringRejects = s.ringRejects := rfl
@[simp] theorem State.draw_comps (s : State) : s.draw.2.comps = s.comps := rfl
@[simp] theorem State.draw_funcs (s : State) : s.draw.2.funcs = s.funcs := rfl
@[simp] theorem State.draw_pairs (s : State) : s.draw.2.pairs = s.pairs := rfl
@[simp] theorem State.draw_xlt (s : State) : s.draw.2.xlt = s.xlt := rfl
@[simp] theorem State.draw_chans (s : State) : s.draw.2.chans = s.chans := rfl
@[simp] theorem State.draw_hbm (s : State) : s.draw.2.hbm = s.hbm := rfl
@[simp] theorem State.draw_shelf (s : State) : s.draw.2.shelf = s.shelf := rfl
@[simp] theorem State.draw_hostMem (s : State) : s.draw.2.hostMem = s.hostMem := rfl
@[simp] theorem State.draw_flash (s : State) : s.draw.2.flash = s.flash := rfl
@[simp] theorem State.draw_media (s : State) : s.draw.2.media = s.media := rfl
@[simp] theorem State.draw_fab (s : State) : s.draw.2.fab = s.fab := rfl
@[simp] theorem State.draw_log (s : State) : s.draw.2.log = s.log := rfl
@[simp] theorem State.draw_latch (s : State) : s.draw.2.latch = s.latch := rfl
@[simp] theorem State.draw_record (s : State) : s.draw.2.record = s.record := rfl
@[simp] theorem State.draw_out (s : State) : s.draw.2.out = s.out := rfl
@[simp] theorem State.draw_free (s : State) : s.draw.2.free = s.free + 1 := rfl
@[simp] theorem State.draw_pending (s : State) : s.draw.2.pending = s.pending := rfl

/-! ## After an interrupt -/

@[simp] theorem State.irq_fuses (s : State) (f v : Nat) : (s.irq f v).fuses = s.fuses := by unfold State.irq; split <;> rfl
@[simp] theorem State.ringIrq_fuses (s : State) (f v : Nat) : (s.ringIrq f v).fuses = s.fuses := by
  unfold State.ringIrq; split <;> simp
@[simp] theorem State.irq_ts (s : State) (f v : Nat) : (s.irq f v).ts = s.ts := by unfold State.irq; split <;> rfl
@[simp] theorem State.ringIrq_ts (s : State) (f v : Nat) : (s.ringIrq f v).ts = s.ts := by
  unfold State.ringIrq; split <;> simp
@[simp] theorem State.irq_health (s : State) (f v : Nat) : (s.irq f v).health = s.health := by unfold State.irq; split <;> rfl
@[simp] theorem State.ringIrq_health (s : State) (f v : Nat) : (s.ringIrq f v).health = s.health := by
  unfold State.ringIrq; split <;> simp
@[simp] theorem State.irq_power (s : State) (f v : Nat) : (s.irq f v).power = s.power := by unfold State.irq; split <;> rfl
@[simp] theorem State.ringIrq_power (s : State) (f v : Nat) : (s.ringIrq f v).power = s.power := by
  unfold State.ringIrq; split <;> simp
@[simp] theorem State.irq_fw (s : State) (f v : Nat) : (s.irq f v).fw = s.fw := by unfold State.irq; split <;> rfl
@[simp] theorem State.ringIrq_fw (s : State) (f v : Nat) : (s.ringIrq f v).fw = s.fw := by
  unfold State.ringIrq; split <;> simp
@[simp] theorem State.irq_phys (s : State) (f v : Nat) : (s.irq f v).phys = s.phys := by unfold State.irq; split <;> rfl
@[simp] theorem State.ringIrq_phys (s : State) (f v : Nat) : (s.ringIrq f v).phys = s.phys := by
  unfold State.ringIrq; split <;> simp
@[simp] theorem State.irq_cores (s : State) (f v : Nat) : (s.irq f v).cores = s.cores := by unfold State.irq; split <;> rfl
@[simp] theorem State.ringIrq_cores (s : State) (f v : Nat) : (s.ringIrq f v).cores = s.cores := by
  unfold State.ringIrq; split <;> simp
@[simp] theorem State.irq_clusters (s : State) (f v : Nat) : (s.irq f v).clusters = s.clusters := by unfold State.irq; split <;> rfl
@[simp] theorem State.ringIrq_clusters (s : State) (f v : Nat) : (s.ringIrq f v).clusters = s.clusters := by
  unfold State.ringIrq; split <;> simp
@[simp] theorem State.irq_suites (s : State) (f v : Nat) : (s.irq f v).suites = s.suites := by unfold State.irq; split <;> rfl
@[simp] theorem State.ringIrq_suites (s : State) (f v : Nat) : (s.ringIrq f v).suites = s.suites := by
  unfold State.ringIrq; split <;> simp
@[simp] theorem State.irq_flight (s : State) (f v : Nat) : (s.irq f v).flight = s.flight := by unfold State.irq; split <;> rfl
@[simp] theorem State.ringIrq_flight (s : State) (f v : Nat) : (s.ringIrq f v).flight = s.flight := by
  unfold State.ringIrq; split <;> simp
@[simp] theorem State.irq_rings (s : State) (f v : Nat) : (s.irq f v).rings = s.rings := by unfold State.irq; split <;> rfl
@[simp] theorem State.ringIrq_rings (s : State) (f v : Nat) : (s.ringIrq f v).rings = s.rings := by
  unfold State.ringIrq; split <;> simp
@[simp] theorem State.irq_ringProbe (s : State) (f v : Nat) : (s.irq f v).ringProbe = s.ringProbe := by unfold State.irq; split <;> rfl
@[simp] theorem State.ringIrq_ringProbe (s : State) (f v : Nat) : (s.ringIrq f v).ringProbe = s.ringProbe := by
  unfold State.ringIrq; split <;> simp
@[simp] theorem State.irq_ringRejects (s : State) (f v : Nat) : (s.irq f v).ringRejects = s.ringRejects := by unfold State.irq; split <;> rfl
@[simp] theorem State.ringIrq_ringRejects (s : State) (f v : Nat) : (s.ringIrq f v).ringRejects = s.ringRejects := by
  unfold State.ringIrq; split <;> simp
@[simp] theorem State.irq_comps (s : State) (f v : Nat) : (s.irq f v).comps = s.comps := by unfold State.irq; split <;> rfl
@[simp] theorem State.ringIrq_comps (s : State) (f v : Nat) : (s.ringIrq f v).comps = s.comps := by
  unfold State.ringIrq; split <;> simp
@[simp] theorem State.irq_pairs (s : State) (f v : Nat) : (s.irq f v).pairs = s.pairs := by unfold State.irq; split <;> rfl
@[simp] theorem State.ringIrq_pairs (s : State) (f v : Nat) : (s.ringIrq f v).pairs = s.pairs := by
  unfold State.ringIrq; split <;> simp
@[simp] theorem State.irq_xlt (s : State) (f v : Nat) : (s.irq f v).xlt = s.xlt := by unfold State.irq; split <;> rfl
@[simp] theorem State.ringIrq_xlt (s : State) (f v : Nat) : (s.ringIrq f v).xlt = s.xlt := by
  unfold State.ringIrq; split <;> simp
@[simp] theorem State.irq_chans (s : State) (f v : Nat) : (s.irq f v).chans = s.chans := by unfold State.irq; split <;> rfl
@[simp] theorem State.ringIrq_chans (s : State) (f v : Nat) : (s.ringIrq f v).chans = s.chans := by
  unfold State.ringIrq; split <;> simp
@[simp] theorem State.irq_hbm (s : State) (f v : Nat) : (s.irq f v).hbm = s.hbm := by unfold State.irq; split <;> rfl
@[simp] theorem State.ringIrq_hbm (s : State) (f v : Nat) : (s.ringIrq f v).hbm = s.hbm := by
  unfold State.ringIrq; split <;> simp
@[simp] theorem State.irq_shelf (s : State) (f v : Nat) : (s.irq f v).shelf = s.shelf := by unfold State.irq; split <;> rfl
@[simp] theorem State.ringIrq_shelf (s : State) (f v : Nat) : (s.ringIrq f v).shelf = s.shelf := by
  unfold State.ringIrq; split <;> simp
@[simp] theorem State.irq_hostMem (s : State) (f v : Nat) : (s.irq f v).hostMem = s.hostMem := by unfold State.irq; split <;> rfl
@[simp] theorem State.ringIrq_hostMem (s : State) (f v : Nat) : (s.ringIrq f v).hostMem = s.hostMem := by
  unfold State.ringIrq; split <;> simp
@[simp] theorem State.irq_flash (s : State) (f v : Nat) : (s.irq f v).flash = s.flash := by unfold State.irq; split <;> rfl
@[simp] theorem State.ringIrq_flash (s : State) (f v : Nat) : (s.ringIrq f v).flash = s.flash := by
  unfold State.ringIrq; split <;> simp
@[simp] theorem State.irq_media (s : State) (f v : Nat) : (s.irq f v).media = s.media := by unfold State.irq; split <;> rfl
@[simp] theorem State.ringIrq_media (s : State) (f v : Nat) : (s.ringIrq f v).media = s.media := by
  unfold State.ringIrq; split <;> simp
@[simp] theorem State.irq_fab (s : State) (f v : Nat) : (s.irq f v).fab = s.fab := by unfold State.irq; split <;> rfl
@[simp] theorem State.ringIrq_fab (s : State) (f v : Nat) : (s.ringIrq f v).fab = s.fab := by
  unfold State.ringIrq; split <;> simp
@[simp] theorem State.irq_log (s : State) (f v : Nat) : (s.irq f v).log = s.log := by unfold State.irq; split <;> rfl
@[simp] theorem State.ringIrq_log (s : State) (f v : Nat) : (s.ringIrq f v).log = s.log := by
  unfold State.ringIrq; split <;> simp
@[simp] theorem State.irq_latch (s : State) (f v : Nat) : (s.irq f v).latch = s.latch := by unfold State.irq; split <;> rfl
@[simp] theorem State.ringIrq_latch (s : State) (f v : Nat) : (s.ringIrq f v).latch = s.latch := by
  unfold State.ringIrq; split <;> simp
@[simp] theorem State.irq_record (s : State) (f v : Nat) : (s.irq f v).record = s.record := by unfold State.irq; split <;> rfl
@[simp] theorem State.ringIrq_record (s : State) (f v : Nat) : (s.ringIrq f v).record = s.record := by
  unfold State.ringIrq; split <;> simp
@[simp] theorem State.irq_free (s : State) (f v : Nat) : (s.irq f v).free = s.free := by unfold State.irq; split <;> rfl
@[simp] theorem State.ringIrq_free (s : State) (f v : Nat) : (s.ringIrq f v).free = s.free := by
  unfold State.ringIrq; split <;> simp
@[simp] theorem State.irq_pending (s : State) (f v : Nat) : (s.irq f v).pending = s.pending := by unfold State.irq; split <;> rfl
@[simp] theorem State.ringIrq_pending (s : State) (f v : Nat) : (s.ringIrq f v).pending = s.pending := by
  unfold State.ringIrq; split <;> simp

/-! ## After an event-log entry and after a notice -/

@[simp] theorem State.logE_fuses (s : State) (code cls fn suite kind unit a b c : Nat) :
    (s.logE code cls fn suite kind unit a b c).fuses = s.fuses := by unfold State.logE; dsimp only; split <;> simp
@[simp] theorem State.notice_fuses (s : State) (f type suite : Nat) (body : List Byte) :
    (s.notice f type suite body).fuses = s.fuses := by unfold State.notice; simp
@[simp] theorem State.logE_ts (s : State) (code cls fn suite kind unit a b c : Nat) :
    (s.logE code cls fn suite kind unit a b c).ts = s.ts := by unfold State.logE; dsimp only; split <;> simp
@[simp] theorem State.notice_ts (s : State) (f type suite : Nat) (body : List Byte) :
    (s.notice f type suite body).ts = s.ts := by unfold State.notice; simp
@[simp] theorem State.logE_health (s : State) (code cls fn suite kind unit a b c : Nat) :
    (s.logE code cls fn suite kind unit a b c).health = s.health := by unfold State.logE; dsimp only; split <;> simp
@[simp] theorem State.notice_health (s : State) (f type suite : Nat) (body : List Byte) :
    (s.notice f type suite body).health = s.health := by unfold State.notice; simp
@[simp] theorem State.logE_power (s : State) (code cls fn suite kind unit a b c : Nat) :
    (s.logE code cls fn suite kind unit a b c).power = s.power := by unfold State.logE; dsimp only; split <;> simp
@[simp] theorem State.notice_power (s : State) (f type suite : Nat) (body : List Byte) :
    (s.notice f type suite body).power = s.power := by unfold State.notice; simp
@[simp] theorem State.logE_fw (s : State) (code cls fn suite kind unit a b c : Nat) :
    (s.logE code cls fn suite kind unit a b c).fw = s.fw := by unfold State.logE; dsimp only; split <;> simp
@[simp] theorem State.notice_fw (s : State) (f type suite : Nat) (body : List Byte) :
    (s.notice f type suite body).fw = s.fw := by unfold State.notice; simp
@[simp] theorem State.logE_phys (s : State) (code cls fn suite kind unit a b c : Nat) :
    (s.logE code cls fn suite kind unit a b c).phys = s.phys := by unfold State.logE; dsimp only; split <;> simp
@[simp] theorem State.notice_phys (s : State) (f type suite : Nat) (body : List Byte) :
    (s.notice f type suite body).phys = s.phys := by unfold State.notice; simp
@[simp] theorem State.logE_cores (s : State) (code cls fn suite kind unit a b c : Nat) :
    (s.logE code cls fn suite kind unit a b c).cores = s.cores := by unfold State.logE; dsimp only; split <;> simp
@[simp] theorem State.notice_cores (s : State) (f type suite : Nat) (body : List Byte) :
    (s.notice f type suite body).cores = s.cores := by unfold State.notice; simp
@[simp] theorem State.logE_clusters (s : State) (code cls fn suite kind unit a b c : Nat) :
    (s.logE code cls fn suite kind unit a b c).clusters = s.clusters := by unfold State.logE; dsimp only; split <;> simp
@[simp] theorem State.notice_clusters (s : State) (f type suite : Nat) (body : List Byte) :
    (s.notice f type suite body).clusters = s.clusters := by unfold State.notice; simp
@[simp] theorem State.logE_suites (s : State) (code cls fn suite kind unit a b c : Nat) :
    (s.logE code cls fn suite kind unit a b c).suites = s.suites := by unfold State.logE; dsimp only; split <;> simp
@[simp] theorem State.notice_suites (s : State) (f type suite : Nat) (body : List Byte) :
    (s.notice f type suite body).suites = s.suites := by unfold State.notice; simp
@[simp] theorem State.logE_flight (s : State) (code cls fn suite kind unit a b c : Nat) :
    (s.logE code cls fn suite kind unit a b c).flight = s.flight := by unfold State.logE; dsimp only; split <;> simp
@[simp] theorem State.notice_flight (s : State) (f type suite : Nat) (body : List Byte) :
    (s.notice f type suite body).flight = s.flight := by unfold State.notice; simp
@[simp] theorem State.logE_rings (s : State) (code cls fn suite kind unit a b c : Nat) :
    (s.logE code cls fn suite kind unit a b c).rings = s.rings := by unfold State.logE; dsimp only; split <;> simp
@[simp] theorem State.notice_rings (s : State) (f type suite : Nat) (body : List Byte) :
    (s.notice f type suite body).rings = s.rings := by unfold State.notice; simp
@[simp] theorem State.logE_ringProbe (s : State) (code cls fn suite kind unit a b c : Nat) :
    (s.logE code cls fn suite kind unit a b c).ringProbe = s.ringProbe := by unfold State.logE; dsimp only; split <;> simp
@[simp] theorem State.notice_ringProbe (s : State) (f type suite : Nat) (body : List Byte) :
    (s.notice f type suite body).ringProbe = s.ringProbe := by unfold State.notice; simp
@[simp] theorem State.logE_ringRejects (s : State) (code cls fn suite kind unit a b c : Nat) :
    (s.logE code cls fn suite kind unit a b c).ringRejects = s.ringRejects := by unfold State.logE; dsimp only; split <;> simp
@[simp] theorem State.notice_ringRejects (s : State) (f type suite : Nat) (body : List Byte) :
    (s.notice f type suite body).ringRejects = s.ringRejects := by unfold State.notice; simp
@[simp] theorem State.logE_comps (s : State) (code cls fn suite kind unit a b c : Nat) :
    (s.logE code cls fn suite kind unit a b c).comps = s.comps := by unfold State.logE; dsimp only; split <;> simp
@[simp] theorem State.notice_comps (s : State) (f type suite : Nat) (body : List Byte) :
    (s.notice f type suite body).comps = s.comps := by unfold State.notice; simp
@[simp] theorem State.logE_pairs (s : State) (code cls fn suite kind unit a b c : Nat) :
    (s.logE code cls fn suite kind unit a b c).pairs = s.pairs := by unfold State.logE; dsimp only; split <;> simp
@[simp] theorem State.notice_pairs (s : State) (f type suite : Nat) (body : List Byte) :
    (s.notice f type suite body).pairs = s.pairs := by unfold State.notice; simp
@[simp] theorem State.logE_xlt (s : State) (code cls fn suite kind unit a b c : Nat) :
    (s.logE code cls fn suite kind unit a b c).xlt = s.xlt := by unfold State.logE; dsimp only; split <;> simp
@[simp] theorem State.notice_xlt (s : State) (f type suite : Nat) (body : List Byte) :
    (s.notice f type suite body).xlt = s.xlt := by unfold State.notice; simp
@[simp] theorem State.logE_chans (s : State) (code cls fn suite kind unit a b c : Nat) :
    (s.logE code cls fn suite kind unit a b c).chans = s.chans := by unfold State.logE; dsimp only; split <;> simp
@[simp] theorem State.notice_chans (s : State) (f type suite : Nat) (body : List Byte) :
    (s.notice f type suite body).chans = s.chans := by unfold State.notice; simp
@[simp] theorem State.logE_hbm (s : State) (code cls fn suite kind unit a b c : Nat) :
    (s.logE code cls fn suite kind unit a b c).hbm = s.hbm := by unfold State.logE; dsimp only; split <;> simp
@[simp] theorem State.notice_hbm (s : State) (f type suite : Nat) (body : List Byte) :
    (s.notice f type suite body).hbm = s.hbm := by unfold State.notice; simp
@[simp] theorem State.logE_shelf (s : State) (code cls fn suite kind unit a b c : Nat) :
    (s.logE code cls fn suite kind unit a b c).shelf = s.shelf := by unfold State.logE; dsimp only; split <;> simp
@[simp] theorem State.notice_shelf (s : State) (f type suite : Nat) (body : List Byte) :
    (s.notice f type suite body).shelf = s.shelf := by unfold State.notice; simp
@[simp] theorem State.logE_hostMem (s : State) (code cls fn suite kind unit a b c : Nat) :
    (s.logE code cls fn suite kind unit a b c).hostMem = s.hostMem := by unfold State.logE; dsimp only; split <;> simp
@[simp] theorem State.notice_hostMem (s : State) (f type suite : Nat) (body : List Byte) :
    (s.notice f type suite body).hostMem = s.hostMem := by unfold State.notice; simp
@[simp] theorem State.logE_flash (s : State) (code cls fn suite kind unit a b c : Nat) :
    (s.logE code cls fn suite kind unit a b c).flash = s.flash := by unfold State.logE; dsimp only; split <;> simp
@[simp] theorem State.notice_flash (s : State) (f type suite : Nat) (body : List Byte) :
    (s.notice f type suite body).flash = s.flash := by unfold State.notice; simp
@[simp] theorem State.logE_media (s : State) (code cls fn suite kind unit a b c : Nat) :
    (s.logE code cls fn suite kind unit a b c).media = s.media := by unfold State.logE; dsimp only; split <;> simp
@[simp] theorem State.notice_media (s : State) (f type suite : Nat) (body : List Byte) :
    (s.notice f type suite body).media = s.media := by unfold State.notice; simp
@[simp] theorem State.logE_fab (s : State) (code cls fn suite kind unit a b c : Nat) :
    (s.logE code cls fn suite kind unit a b c).fab = s.fab := by unfold State.logE; dsimp only; split <;> simp
@[simp] theorem State.notice_fab (s : State) (f type suite : Nat) (body : List Byte) :
    (s.notice f type suite body).fab = s.fab := by unfold State.notice; simp
@[simp] theorem State.logE_latch (s : State) (code cls fn suite kind unit a b c : Nat) :
    (s.logE code cls fn suite kind unit a b c).latch = s.latch := by unfold State.logE; dsimp only; split <;> simp
@[simp] theorem State.notice_latch (s : State) (f type suite : Nat) (body : List Byte) :
    (s.notice f type suite body).latch = s.latch := by unfold State.notice; simp
@[simp] theorem State.logE_record (s : State) (code cls fn suite kind unit a b c : Nat) :
    (s.logE code cls fn suite kind unit a b c).record = s.record := by unfold State.logE; dsimp only; split <;> simp
@[simp] theorem State.notice_record (s : State) (f type suite : Nat) (body : List Byte) :
    (s.notice f type suite body).record = s.record := by unfold State.notice; simp
@[simp] theorem State.logE_free (s : State) (code cls fn suite kind unit a b c : Nat) :
    (s.logE code cls fn suite kind unit a b c).free = s.free := by unfold State.logE; dsimp only; split <;> simp
@[simp] theorem State.notice_free (s : State) (f type suite : Nat) (body : List Byte) :
    (s.notice f type suite body).free = s.free := by unfold State.notice; simp
@[simp] theorem State.logE_pending (s : State) (code cls fn suite kind unit a b c : Nat) :
    (s.logE code cls fn suite kind unit a b c).pending = s.pending := by unfold State.logE; dsimp only; split <;> simp
@[simp] theorem State.notice_pending (s : State) (f type suite : Nat) (body : List Byte) :
    (s.notice f type suite body).pending = s.pending := by unfold State.notice; simp

end Sys2Proof.Machine
end

