-- ==== Sys2Proof/Laws/Access.lean ====
section
/-! SUPPORT. The numbered units of the state: what an accessor gives after an update of the same unit and of another one. -/

namespace Sys2Proof.Machine

@[simp] theorem State.sameInputs_self (s : State) : s.sameInputs s = s := rfl

theorem State.core_setCore (s : State) (n : Nat) (f : Core → Core) (h : n < s.cores.length) :
    (s.setCore n f).core n = f (s.core n) := getD_lMod_same _ _ _ _ h

theorem State.core_setCore_other (s : State) (n m : Nat) (f : Core → Core) (h : m ≠ n) :
    (s.setCore n f).core m = s.core m := getD_lMod_other _ _ _ _ _ h

theorem State.suite_setSuite (s : State) (n : Nat) (f : Suite → Suite) (h : n < s.suites.length) :
    (s.setSuite n f).suite n = f (s.suite n) := getD_lMod_same _ _ _ _ h

theorem State.suite_setSuite_other (s : State) (n m : Nat) (f : Suite → Suite) (h : m ≠ n) :
    (s.setSuite n f).suite m = s.suite m := getD_lMod_other _ _ _ _ _ h

theorem State.func_setFunc (s : State) (n : Nat) (f : Func → Func) (h : n < s.funcs.length) :
    (s.setFunc n f).func n = f (s.func n) := getD_lMod_same _ _ _ _ h

theorem State.func_setFunc_other (s : State) (n m : Nat) (f : Func → Func) (h : m ≠ n) :
    (s.setFunc n f).func m = s.func m := getD_lMod_other _ _ _ _ _ h

theorem State.pair_setPair (s : State) (n : Nat) (f : Pair → Pair) (h : n < s.pairs.length) :
    (s.setPair n f).pair n = f (s.pair n) := getD_lMod_same _ _ _ _ h

theorem State.pair_setPair_other (s : State) (n m : Nat) (f : Pair → Pair) (h : m ≠ n) :
    (s.setPair n f).pair m = s.pair m := getD_lMod_other _ _ _ _ _ h

theorem State.chan_setChan (s : State) (n : Nat) (f : Chan → Chan) (h : n < s.chans.length) :
    (s.setChan n f).chan n = f (s.chan n) := getD_lMod_same _ _ _ _ h

theorem State.chan_setChan_other (s : State) (n m : Nat) (f : Chan → Chan) (h : m ≠ n) :
    (s.setChan n f).chan m = s.chan m := getD_lMod_other _ _ _ _ _ h

theorem State.cluster_setCluster (s : State) (n : Nat) (f : Cluster → Cluster) (h : n < s.clusters.length) :
    (s.setCluster n f).cluster n = f (s.cluster n) := getD_lMod_same _ _ _ _ h

theorem State.cluster_setCluster_other (s : State) (n m : Nat) (f : Cluster → Cluster) (h : m ≠ n) :
    (s.setCluster n f).cluster m = s.cluster m := getD_lMod_other _ _ _ _ _ h

theorem State.ring_setRing (s : State) (n m : Nat) (f : Ring → Ring) :
    (s.setRing n f).ring? m = if m = n then (s.ring? m).map f else s.ring? m := aGet_aMod _ _ _ _

end Sys2Proof.Machine
end

