-- ==== Sys2Proof/Laws/Memory.lean ====
section
/-! SUPPORT. The byte maps: a read after a write, and the canonical form that every write keeps. -/

namespace Sys2Proof.Machine

theorem memGet_memPut_other (d : Byte) (m : Mem) (a x : Nat) (b : Byte) (h : x ≠ a) :
    memGet d (memPut d m a b) x = memGet d m x := by
  have hd : ∀ m : Mem, memGet d (memDel m a) x = memGet d m x := by
    intro m
    induction m with
    | nil => rfl
    | cons e t ih =>
      obtain ⟨k, v⟩ := e
      unfold memDel
      split
      · rfl
      · split
        · subst_vars; simp [memGet, Ne.symm h]
        · simp [memGet, ih]
  have hi : ∀ m : Mem, memGet d (memIns m a b) x = memGet d m x := by
    intro m
    induction m with
    | nil => simp [memIns, memGet, Ne.symm h]
    | cons e t ih =>
      obtain ⟨k, v⟩ := e
      unfold memIns
      split
      · simp [memGet, Ne.symm h]
      · split
        · subst_vars; simp [memGet, Ne.symm h]
        · simp [memGet, ih]
  unfold memPut
  split
  · exact hd m
  · exact hi m

/-- An address below every listed one reads as the default. -/
theorem memGet_below (d : Byte) (m : Mem) (a : Nat) (h : ∀ e ∈ m, a < e.1) : memGet d m a = d := by
  induction m with
  | nil => rfl
  | cons e t ih =>
    obtain ⟨k, v⟩ := e
    have hk : a < k := h (k, v) (by simp)
    have : k ≠ a := by omega
    simp only [memGet, this, if_false]
    exact ih (fun e he => h e (by simp [he]))

/-- The canonical form in other words. -/
theorem Mem.wf_iff (d : Byte) (m : Mem) :
    Mem.wf d m = true ↔ m.Pairwise (fun a b => a.1 < b.1) ∧ ∀ e ∈ m, e.2 ≠ d := by
  induction m with
  | nil => simp [Mem.wf]
  | cons e t ih =>
    obtain ⟨k, v⟩ := e
    cases t with
    | nil => simp [Mem.wf]
    | cons e2 t2 =>
      obtain ⟨l, w⟩ := e2
      simp only [Mem.wf, Bool.and_eq_true, ih, bne_iff_ne, decide_eq_true_eq, List.pairwise_cons, List.mem_cons,
        forall_eq_or_imp]
      constructor
      · rintro ⟨⟨h1, h2⟩, ⟨h3, h4⟩, h5⟩
        exact ⟨⟨⟨h2, fun e he => lt_trans h2 (h3 e he)⟩, h3, h4⟩, h1, h5⟩
      · rintro ⟨⟨⟨h2, _⟩, h3, h4⟩, h1, h5⟩
        exact ⟨⟨h1, h2⟩, ⟨h3, h4⟩, h5⟩

theorem mem_memDel (m : Mem) (a : Nat) (e : Nat × Byte) (h : e ∈ memDel m a) : e ∈ m := by
  induction m with
  | nil => simp [memDel] at h
  | cons x t ih =>
    obtain ⟨k, v⟩ := x
    unfold memDel at h
    split at h
    · exact h
    · split at h
      · exact List.mem_cons_of_mem _ h
      · rcases List.mem_cons.mp h with h | h
        · simp [h]
        · exact List.mem_cons_of_mem _ (ih h)

theorem mem_memIns (m : Mem) (a : Nat) (b : Byte) (e : Nat × Byte) (h : e ∈ memIns m a b) : e = (a, b) ∨ e ∈ m := by
  induction m with
  | nil => simpa [memIns] using h
  | cons x t ih =>
    obtain ⟨k, v⟩ := x
    unfold memIns at h
    split at h
    · simpa using h
    · split at h
      · rcases List.mem_cons.mp h with h | h
        · exact Or.inl h
        · exact Or.inr (List.mem_cons_of_mem _ h)
      · rcases List.mem_cons.mp h with h | h
        · exact Or.inr (by simp [h])
        · rcases ih h with h | h
          · exact Or.inl h
          · exact Or.inr (List.mem_cons_of_mem _ h)

theorem Mem.wf_memDel (d : Byte) (m : Mem) (a : Nat) (h : Mem.wf d m = true) : Mem.wf d (memDel m a) = true := by
  rw [Mem.wf_iff] at h ⊢
  induction m with
  | nil => simp [memDel]
  | cons x t ih =>
    obtain ⟨k, v⟩ := x
    obtain ⟨hp, hv⟩ := h
    rw [List.pairwise_cons] at hp
    have it := ih ⟨hp.2, fun e he => hv e (List.mem_cons_of_mem _ he)⟩
    unfold memDel
    split
    · exact ⟨List.pairwise_cons.mpr hp, hv⟩
    · split
      · exact ⟨hp.2, fun e he => hv e (List.mem_cons_of_mem _ he)⟩
      · refine ⟨List.pairwise_cons.mpr ⟨fun e he => hp.1 e (mem_memDel t a e he), it.1⟩, ?_⟩
        intro e he
        rcases List.mem_cons.mp he with he | he
        · exact hv e (by simp [he])
        · exact it.2 e he

theorem Mem.wf_memIns (d : Byte) (m : Mem) (a : Nat) (b : Byte) (hb : b ≠ d) (h : Mem.wf d m = true) :
    Mem.wf d (memIns m a b) = true := by
  rw [Mem.wf_iff] at h ⊢
  induction m with
  | nil => simp [memIns, hb]
  | cons x t ih =>
    obtain ⟨k, v⟩ := x
    obtain ⟨hp, hv⟩ := h
    rw [List.pairwise_cons] at hp
    have it := ih ⟨hp.2, fun e he => hv e (List.mem_cons_of_mem _ he)⟩
    unfold memIns
    split
    · rename_i hlt
      refine ⟨List.pairwise_cons.mpr ⟨?_, List.pairwise_cons.mpr hp⟩, ?_⟩
      · intro e he
        rcases List.mem_cons.mp he with he | he
        · simpa [he] using hlt
        · exact lt_trans hlt (hp.1 e he)
      · intro e he
        rcases List.mem_cons.mp he with he | he
        · simpa [he] using hb
        · exact hv e he
    · split
      · subst_vars
        refine ⟨List.pairwise_cons.mpr ⟨hp.1, hp.2⟩, ?_⟩
        intro e he
        rcases List.mem_cons.mp he with he | he
        · simpa [he] using hb
        · exact hv e (List.mem_cons_of_mem _ he)
      · rename_i h1 h2
        refine ⟨List.pairwise_cons.mpr ⟨?_, it.1⟩, ?_⟩
        · intro e he
          rcases mem_memIns t a b e he with he | he
          · subst he; simp only; omega
          · exact hp.1 e he
        · intro e he
          rcases List.mem_cons.mp he with he | he
          · exact hv e (by simp [he])
          · exact it.2 e he

theorem Mem.wf_memPut (d : Byte) (m : Mem) (a : Nat) (b : Byte) (h : Mem.wf d m = true) : Mem.wf d (memPut d m a b) = true := by
  unfold memPut
  split
  · exact Mem.wf_memDel d m a h
  · rename_i hb; exact Mem.wf_memIns d m a b hb h

theorem Mem.wf_memWrite (d : Byte) (m : Mem) (a : Nat) (l : List Byte) (h : Mem.wf d m = true) :
    Mem.wf d (memWrite d m a l) = true := by
  induction l generalizing m a with
  | nil => simpa [memWrite] using h
  | cons b t ih => exact ih _ _ (Mem.wf_memPut d m a b h)

theorem memGet_memIns_same (d : Byte) (m : Mem) (a : Nat) (b : Byte) : memGet d (memIns m a b) a = b := by
  induction m with
  | nil => simp [memIns, memGet]
  | cons x t ih =>
    obtain ⟨k, v⟩ := x
    unfold memIns
    split
    · simp [memGet]
    · split
      · simp [memGet]
      · rename_i h1 h2
        simp [memGet, h2, ih]

theorem memGet_memDel_same (d : Byte) (m : Mem) (a : Nat) (h : m.Pairwise (fun x y => x.1 < y.1)) :
    memGet d (memDel m a) a = d := by
  induction m with
  | nil => rfl
  | cons x t ih =>
    obtain ⟨k, v⟩ := x
    rw [List.pairwise_cons] at h
    unfold memDel
    split
    · rename_i hlt
      apply memGet_below
      intro e he
      rcases List.mem_cons.mp he with he | he
      · simpa [he] using hlt
      · exact lt_trans hlt (h.1 e he)
    · split
      · subst_vars
        exact memGet_below d t _ (fun e he => h.1 e he)
      · rename_i h1 h2
        simp [memGet, h2, ih h.2]

theorem memGet_memPut_same (d : Byte) (m : Mem) (a : Nat) (b : Byte) (h : Mem.wf d m = true) :
    memGet d (memPut d m a b) a = b := by
  unfold memPut
  split
  · rename_i hb; rw [hb]; exact memGet_memDel_same d m a ((Mem.wf_iff d m).mp h).1
  · exact memGet_memIns_same d m a b

/-- Every memory operation of the block keeps the canonical form of every memory. -/
theorem Mem.wf_shelfWrite (s : State) (x off : Nat) (b : List Byte) (h : Mem.wf shelfDefault s.shelf = true) :
    Mem.wf shelfDefault (s.shelfWrite x off b).shelf = true := Mem.wf_memWrite _ _ _ _ h

theorem Mem.wf_flashWrite (s : State) (a : Nat) (b : List Byte) (h : Mem.wf flashDefault s.flash = true) :
    Mem.wf flashDefault (s.flashWrite a b).flash = true := Mem.wf_memWrite _ _ _ _ h

theorem Mem.wf_hbmPut (s : State) (k : Nat) (b : Byte) (h : Mem.wf hbmDefault s.hbm = true) :
    Mem.wf hbmDefault (s.hbmPut k b).hbm = true := by
  unfold State.hbmPut
  dsimp only
  split
  · exact h
  · exact Mem.wf_memPut _ _ _ _ h

theorem Mem.wf_devPut (s : State) (a : Nat) (b : Byte) (h : Mem.wf hbmDefault s.hbm = true)
    (g : Mem.wf hostDefault s.hostMem = true) :
    Mem.wf hbmDefault (s.devPut a b).hbm = true ∧ Mem.wf hostDefault (s.devPut a b).hostMem = true := by
  unfold State.devPut
  split
  · refine ⟨Mem.wf_hbmPut _ _ _ h, ?_⟩
    unfold State.hbmPut
    dsimp only
    split <;> exact g
  · split
    · exact ⟨h, Mem.wf_memPut _ _ _ _ g⟩
    · exact ⟨h, g⟩
  · exact ⟨h, g⟩

theorem Mem.wf_devWrite (s : State) (a : Nat) (l : List Byte) (h : Mem.wf hbmDefault s.hbm = true)
    (g : Mem.wf hostDefault s.hostMem = true) :
    Mem.wf hbmDefault (s.devWrite a l).hbm = true ∧ Mem.wf hostDefault (s.devWrite a l).hostMem = true := by
  induction l generalizing s a with
  | nil => exact ⟨h, g⟩
  | cons b t ih =>
    obtain ⟨h1, h2⟩ := Mem.wf_devPut s a b h g
    exact ih _ _ h1 h2

end Sys2Proof.Machine
end

