-- ==== Sys2Proof/Laws/Message.lean ====
section
/-! SUPPORT. Mailbox messages: what a command does with the request that stands in its pair. -/

namespace Sys2Proof.Machine

/-- A request that the firmware would take stands in an existing pair, and its function owns the pair. -/
theorem request_eq (s : State) (p : Nat) (r : Req) (h : s.request p = some r) : p < 64 ∧ r.pair = p ∧ r.fn = pairOwner p := by
  unfold State.request at h
  dsimp only at h
  split at h
  · injection h with h; subst h
    rename_i h; simp at h; exact ⟨h.1.1.1.1, rfl, rfl⟩
  · cases h

/-- A command of a powered block on a unit that exists answers its effect. -/
theorem on_next (s t : State) (h : s.on = true) (c : Bool) (hc : c = true) : onUnit c s t = .next (s.sameInputs t) := by
  simp [onUnit, whenOn, h, hc]

/-- A command without effect answers the state as it is. -/
theorem self_next (s : State) (c : Bool) (hc : c = true) : onUnit c s s = .next s := by
  simp only [onUnit, whenOn, hc, if_true]; split <;> rfl

/-- Delivering a reply changes pairs, pending vectors and what is sent out, and nothing else. -/
theorem deliver_frame (s : State) (p : Nat) (m : List Byte) : s.deliver p m = { s with pairs := (s.deliver p m).pairs, funcs := (s.deliver p m).funcs, out := (s.deliver p m).out } := by
  unfold State.deliver; split
  · rfl
  · unfold State.irq; split <;> rfl

theorem deliver_pair_other (s : State) (p q : Nat) (m : List Byte) (h : q ≠ p) : (s.deliver p m).pair q = s.pair q := by
  unfold State.deliver; split
  · exact State.pair_setPair_other _ _ _ _ h
  · unfold State.pair; rw [State.irq_pairs]; exact State.pair_setPair_other _ _ _ _ h

/-- The parts of acceptance. -/
theorem accepts_elim (s : State) (p ty : Nat) (r : Req) (h : s.accepts p ty r = true) : s.on = true ∧ s.request p = some r ∧ r.type = ty ∧ s.verdict r = .ok := by
  simpa [State.accepts, and_assoc] using h

/-- Everything that a message command does with an accepted request. -/
theorem accepted_message (s : State) (p ty : Nat) (act : Act) (r : Req) (h : s.accepts p ty r = true) :
    message p ty act s = .next (s.sameInputs (match (act (s.accepted r) r).2 with | some a => (act (s.accepted r) r).1.answer r a.1 a.2 | none => (act (s.accepted r) r).1)) := by
  obtain ⟨h1, h2, h3, h4⟩ := accepts_elim s p ty r h
  obtain ⟨h5, h6, h7⟩ := request_eq s p r h2
  subst h3
  unfold message
  rw [on_next _ _ h1 _ (by simpa using h5)]
  unfold State.serve
  rw [h2]; simp only [if_true, State.serveReq, h4]; rfl

end Sys2Proof.Machine
end

