-- ==== Sys2Proof/Laws/Step.lean ====
section
/-! SUPPORT. What every step does: the gate of every command, and what no command changes. -/

namespace Sys2Proof.Machine

theorem scrub_ok (t : ScrubTarget) : scrubOk t = t.ok := by cases t <;> rfl

/-- A command but those of PWRGOOD acts on a powered device only, and where the unit that it names exists. -/
theorem exec_gated (i : Instr) (s : State) (h : ofPower i = false) : ∃ t, exec i s = onUnit i.wf s t := by
  cases i <;> first
    | (simp [ofPower] at h; done)
    | (simp only [exec, Instr.wf, message, Bool.decide_and,
    execChip, execPeerSetup, execDataFrame, execCreditFrame, execCreditFrameSend, execAcknowledge, execNegativeAcknowledge,
    execHello, execAckTimer, execReplayTimeout, execPeerLossLimit, execHelloTimer, execReady, execContextSetup,
    execContextParameter, execStopContext, execStopLockGroup, execFrameStart, execLineArrival, execFrameEnd,
    execLineTimeout, execPortLockLoss, execLockGroupSetup, execTrigger, execTriggerWindowExpiry, execContextSlotError,
    execPacketQueueSetup, execPacketQueueDelete, execSteeringRule, execPqDoorbell, execFrameReceive, execFrameTransmit,
    execGuardCommit, execGuardSquash, execStallWatchdogExpiry, execWaitSatisfied, execFlagSignalEffect, execEntryArrival,
    execCreditReturn, execWalkGuardSatisfied, execMcastLagExpiry, execFallbackFetch, execCushionBeat, execRampDown,
    execRampUp, execCheckTileCompare, execKernelComplete, execIdentity, execAttestation, execFirmwareStatus, execStage,
    execActivate, execRevokeKeySlot, execAdvanceSecurityVersion, execRecoveryWrite, execHostImageWrite,
    execActivationRecheck, execActivationTakeover, execActivationRollback, execRescue, execReseatReady, execHubFault,
    execD2dReplayLimit, execRegulatorFault, execScrub, execFlrVf, execVfEnableClear, execHotReset, execCompletionTimeout,
    execPcieLinkTrained, execPowerStateChange, execHostStart, execLaneModeWrite, execLaneFarEndCheck, execFecLockLoss,
    execLoad, execLoadDigestDone, execSegmentFrame, execMissingSegmentReport, execBitmapReportTimeout,
    execVersionNegotiation, execHeartbeat, execUndefinedTypeRequest, execNoticeDelivery, execMbxReplyAck,
    execRegulatorWindow, execPowerSense, execThermalSense, execTripCooldown, execThermtrip, execClBoundsWrite,
    execLatchingRead, execReadClear, execRegisterWrite, execAgeLimitWrite, execUsbRegisterRead, execUsbRegisterWrite,
    execUsbDeviceRead, execUsbDeviceWrite, execUsbMailboxMessage, execMxSeat, execMxTile, execMxBench, execDrChain,
    execVxMap, execVxDw, execVxPool, execVxReduce, execVxBoxdec, execVxNms, execVxSort, execStWalk, execStStore, execQWait,
    execQSignal, execQBarrier, execCtlLoop, execCtlGuard, execCtlCommit, execCtlShape, execCtlHalt, execAllocation,
    execRingSetup, execSuiteCreate, execSuiteRelease, execAdopt, execHeartbeatTimeout, execRingDoorbell, execDispatchEntry,
    execCompletionEntryWrite, execStepAssembly, execRefclkEdge, execTsIncrWrite, execTsStep, execTsStepAbsorbed,
    execPpsInEdge, execPpsHoldover, execPpsOut, execStopStream, execStopSession, execDecodeSetup, execBitstreamEntry,
    execBitstreamEntryConsumed, execEncodeSetup, execEncodeJob, execEncodeJobComplete, execMap,
    execTranslationDrainComplete, execWindowCreate, execWindowDelete, execWindowSetSuiteMask, execBar2Read, execBar2Write,
    execMemRequest, execMemSchedule, execAgePromotion, execRefresh, execStackTempRead];
       exact ⟨_, rfl⟩)

end Sys2Proof.Machine
end

