-- ==== Sys2Proof/Tests/Slice0.lean ====
section
/-! SUPPORT. Tests: witnesses that the hypotheses of the obligations can be met, ill-formed commands, which are no event, and
worked examples of the spec. The theorems are elaborated one after another, since each evaluates a whole state. -/

open Sys2Proof Sys2Proof.Machine

namespace Sys2Proof.Tests

set_option Elab.async false

/-! ## Small states -/

/-- A firmware image that runs. -/
def image : Image := { key := 0, secVer := 1, version := 0x0100, kind := 0, hoW := 0x0100, hoR := 0x0100, meas := [] }

/-- A ready device: every core present, two windows of 16 mapped pages, every pair negotiated at 1.0. -/
def up : State :=
  { State.reset with
    health := { Health.reset with powered := true, phase := 4, present := 0xffffffff, cores := (List.range 32).map some },
    fw := { Fw.reset with run := some image, linkUp := true },
    chans := List.replicate 64 { Chan.reset with fitted := true, trained := true },
    clusters := List.replicate 8 { Cluster.reset with powered := true, point := 600 },
    pairs := List.replicate 64 { Pair.reset with major := 1 },
    xlt := { Xlt.reset with
      table := (List.range 32).map (fun v => (v, .hbm v 0 true)),
      windows := [(0, { first := 0, count := 16, owner := 0, mask := 0xffffffff }), (1, { first := 16, count := 16, owner := 1, mask := 1 })] } }

/-- A state whose time is n ns. -/
def at_ (s : State) (n : Nat) : State := { s with ts := { s.ts with count := n } }

/-- A request of a type stands in pair p, with the next number. -/
def mailed (s : State) (p type suite : Nat) (body : List Byte) : State :=
  s.setPair p (fun x => { x with req := padTo 256 (mkMessage 1 0 type 1 suite body), reqV := true })

/-- The request of pair p. -/
def asked (s : State) (p : Nat) : Req := parseReq p (s.pair p).req

/-- Does the firmware take the request of pair p as one of this type? -/
def takes (s : State) (p type : Nat) : Bool := s.accepts p type (asked s p)

/-- A message that names no suite. -/
def plain (s : State) (p type : Nat) (body : List Byte) : State := mailed s p type 0xffffffff body

/-- No clauses. -/
def bare : Clauses := { wait := none, signal := none }

/-- Suite 0 with core 0, in a state of R244. -/
def suite0 (st : Nat) : Suite := { Suite.free with st := st, mask := 1, owner := 1, stall := 2000, lag := 64, compRing := 1 }

/-- A program without kernels' streams: one planned maximum for each register. -/
def prog0 : Program :=
  { place := [0], skipPolicy := 0, maxima := [List.replicate 16 1000], walks := [], chains := [], bindings := [], groups := [], flagInit := [], slots := [] }

/-- Kernel 0 of an entry without words. -/
def disp0 : Disp :=
  { isStep := false, index := 0, first := 0, last := 0, kernel := 0, words := List.replicate 16 0, notify := false, resv := [],
    pins := [], done := 0 }

/-- Suite 0 runs a kernel on core 0, which awaits its first instruction. -/
def running : State :=
  let x : Suite := { suite0 4 with prog := some prog0, disp := some disp0 }
  { up with
    suites := lMod up.suites 0 (fun _ => x),
    cores := lMod up.cores 0 (fun c => { c with seq := { c.seq with running := true } }) }

/-- A queue end of core 0 that core 0 fills. -/
def end0 (entries : List Entry) : QueueEnd :=
  { base := 0, depth := 64, merge := false, producers := [{ chip := none, core := 0, share := 0 }], entries := entries,
    used := entries.length, credits := [], back := [] }

/-- A queue end of core 0. -/
def q0 (i : Nat) : QName := { chip := none, core := 0, idx := i }

/-- `running` with these queue ends on core 0. -/
def fed (l : List (Nat × List Entry)) : State :=
  running.setCore 0 (fun c => { c with queues := l.map (fun e => (e.1, end0 e.2)) })

/-! ## Witnesses: the queue, power, mailboxes -/

theorem witness_QueueSteps_idle : State.reset.pending = [] ∧ State.reset.on = false ∧ up.pending = [] ∧ up.on = true := by decide +kernel

theorem witness_QueueSteps_front : ∃ t, step (up.withPending [.helloTimer, .ppsOut]) = .next t := ⟨_, rfl⟩

theorem witness_EveryCommandAnswers : (Instr.flrVf 0).wf = false ∧ (Instr.flrVf 16).wf = true := by decide

theorem witness_PowerCycles_low : State.reset.on = false ∧ ofPower .helloTimer = false ∧ ∃ t, exec .helloTimer State.reset = .next t :=
  ⟨by decide +kernel, rfl, _, rfl⟩

theorem witness_OffCleanKept : OffClean State.reset ∧ ∃ t, step (State.reset.withPending [.helloTimer]) = .next t :=
  ⟨fun _ => by decide +kernel, _, rfl⟩

/-- Without a usable key slot no image is acceptable (R368). -/
theorem no_image (f : Fuses) (kind : Nat) (b : List Byte) (h : ∀ k, usableKey f k = false) : acceptImage f kind b = none := by
  unfold acceptImage; simp [h]

theorem no_key (k : Nat) : usableKey Fuses.typical k = false := by
  have h : ∀ k < 4, usableKey Fuses.typical k = false := by decide
  by_cases h4 : k < 4
  · exact h k h4
  · simp [usableKey, Fuses.typical, h4]

theorem no_boot (s : State) (h : s.fuses = Fuses.typical) : s.bootChoice.1 = none := by
  have h2 : ∀ a k, s.flashImage a k = none := fun a k => no_image _ _ _ (by rw [h]; exact no_key)
  unfold State.bootChoice
  simp only [h2]

theorem witness_PowerCycles_rise : State.reset.on = false ∧ up.on = true ∧ Mem.wf flashDefault State.reset.flash = true ∧ (State.reset.cold.markUnits).bootChoice.1 = none :=
  ⟨by decide +kernel, by decide +kernel, by decide +kernel, no_boot _ (by decide +kernel)⟩

theorem witness_RequestsAndAnswers_requests :
    let s := plain up 1 0x0002 []
    let q := { s with pairs := lMod s.pairs 1 (fun x => { x with lastSeq := 1, stored := [1] }) }
    messagePair (.heartbeat 1) = some 1 ∧ s.on = true ∧
    s.request 1 = some (asked s 1) ∧ messageRow (.heartbeat 1) (asked s 1) = true ∧ s.verdict (asked s 1) = .ok ∧
    (plain up 1 0x0002 [1]).verdict (asked (plain up 1 0x0002 [1]) 1) = .refuse 0xf3 [] ∧
    q.request 1 = some (asked q 1) ∧ q.verdict (asked q 1) = .again ∧ up.request 1 = none := by decide +kernel

theorem witness_RequestsAndAnswers_answers :
    let s := up.setPair 1 (fun x => { x with replyV := true })
    (asked up 1).pair < up.pairs.length ∧ (up.pair 1).replyV = false ∧ up.irqOpen 0 = true ∧ (s.pair 1).replyV = true ∧
    ({ up with fw := { up.fw with linkUp := false } } : State).irqOpen 0 = false := by decide +kernel

theorem witness_MailboxServices_hello :
    takes (plain up 1 0x0001 ([1, 0] ++ zeros 18)) 1 0x0001 = true ∧
    listedMinor (asked (plain up 1 0x0001 ([1, 0] ++ zeros 18)) 1).body = some 0 ∧
    takes (plain up 1 0x0001 ([2, 0] ++ zeros 18)) 1 0x0001 = true ∧
    listedMinor (asked (plain up 1 0x0001 ([2, 0] ++ zeros 18)) 1).body = none ∧ takes (plain up 16 0x0002 []) 16 0x0002 = true := by
  decide +kernel

theorem witness_MailboxServices_notices :
    let s := plain up 1 0x7777 []
    let r := up.setPair 17 (fun x => { x with replyV := true, due := some [1] })
    let n := (up.notice 1 0x4001 0 []).func 1
    s.request 1 = some (asked s 1) ∧ s.verdict (asked s 1) = .refuse 0xf2 [] ∧
    pairOwner 17 = 1 ∧ (r.pair 17).replyV = true ∧ (r.pair 17).due = some [1] ∧ pairOwner 63 = 16 ∧
    n.notices.length = 1 ∧ up.fwOn = true ∧ (up.pair (noticePair 1)).replyV = false ∧ (up.pair (noticePair 1)).due = none := by
  decide +kernel

theorem witness_SequenceNumbers :
    let s := plain up 1 0x0002 []
    let t := s.setPair 1 (fun x => { x with lastSeq := 1, stored := [1] })
    let u := s.setPair 1 (fun x => { x with lastSeq := 65535 })
    let r := asked s 1
    r.crcOk = true ∧ r.type ≠ 1 ∧ r.seq = ((s.pair 1).lastSeq + 1) % 65536 ∧ s.verdict r = .ok ∧
    r.seq = (t.pair 1).lastSeq ∧ t.verdict r = .again ∧ r.seq ≠ ((u.pair 1).lastSeq + 1) % 65536 ∧ u.verdict r = .refuse 0xf4 [0, 0] := by
  decide +kernel

/-! ## Witnesses: functions, rings, suites, loads -/

/-- An allocation of one suite and two rings to function f. -/
def allocBody (f n : Nat) : List Byte := toLE 1 f ++ toLE 1 n ++ zeros 2 ++ toLE 4 0xf ++ toLE 4 0 ++ toLE 4 16 ++ zeros 184

theorem witness_AllocationAndRings :
    let ok := plain up 1 0x0010 (allocBody 1 1)
    let bad := plain up 1 0x0010 (allocBody 17 1)
    let hit := plain (up.setFunc 2 (fun f => { f with alloc := { Alloc.none with mask := 1 } })) 1 0x0010 (allocBody 1 1)
    let use := plain { up with suites := lMod up.suites 0 (fun _ => { suite0 3 with owner := 1 }) } 1 0x0010 (allocBody 1 0)
    takes ok 1 0x0010 = true ∧ allocRange (asked ok 1).body = true ∧ ok.allocOverlaps 1 (allocOf (asked ok 1).body) = false ∧
      ok.allocWithdraws 1 (allocOf (asked ok 1).body) = false ∧
    takes bad 1 0x0010 = true ∧ allocRange (asked bad 1).body = false ∧
    takes hit 1 0x0010 = true ∧ hit.allocOverlaps 1 (allocOf (asked hit 1).body) = true ∧
    takes use 1 0x0010 = true ∧ use.allocOverlaps 1 (allocOf (asked use 1).body) = false ∧
      use.allocWithdraws 1 (allocOf (asked use 1).body) = true := by decide +kernel

/-- A ring of 16 slots of 256 bytes with its base at page 1. -/
def ringBody (n base cnt : Nat) : List Byte := toLE 2 n ++ [0, 8, BitVec.ofNat 8 cnt, 0] ++ toLE 2 0 ++ toLE 8 base ++ zeros 4

/-- A submission ring of function 0 with 16 slots at page 1. -/
def ring0 : Ring := ringOf 0 (ringBody 0 4096 4)

theorem witness_AllocationAndRings_rings :
    let ok := plain up 1 0x0014 (ringBody 5 4096 4)
    let far := plain up 1 0x0014 (ringBody 5 0x100000 4)
    let odd := plain up 1 0x0014 (ringBody 5 4096 0)
    let bound := plain { up with rings := [(5, { ring0 with suite := some 0 })] } 1 0x0014 (ringBody 5 4096 4)
    let theirs := plain { up with rings := [(5, { ring0 with owner := 1 })] } 1 0x0014 (ringBody 5 4096 4)
    takes ok 1 0x0014 = true ∧ ok.ownsRing 0 5 = true ∧ ok.ring? 5 = none ∧ ringRange (asked ok 1).body = true ∧
      ok.inFn 0 (4096 - 16) (16 + 2 ^ 12) = true ∧
    takes far 1 0x0014 = true ∧ ringRange (asked far 1).body = true ∧ far.inFn 0 (0x100000 - 16) (16 + 2 ^ 12) = false ∧
    takes odd 1 0x0014 = true ∧ ringRange (asked odd 1).body = false ∧
    takes bound 1 0x0014 = true ∧ (bound.ring? 5).map Ring.suite = some (some 0) ∧
    takes theirs 1 0x0014 = true ∧ (theirs.ring? 5).map Ring.owner = some 1 := by decide +kernel

/-- Suite create for suite k with a core mask. -/
def createBody (k mask : Nat) : List Byte :=
  toLE 1 k ++ [0, 0, 0] ++ toLE 4 mask ++ zeros 8 ++ toLE 2 0 ++ toLE 2 1 ++ toLE 2 0xffff ++ zeros 2 ++
    (List.range 16).map (fun _ => (0xff : Byte)) ++ zeros 112

/-- A device with a submission and a completion ring of function 0. -/
def ringed : State := { up with rings := [(0, ring0), (1, { ring0 with kind := 1, slotLog := 5 })] }

theorem witness_SuiteLifetime :
    let ok := mailed ringed 1 0x0011 0 (createBody 0 1)
    let none_ := mailed up 1 0x0011 0 (createBody 0 1)
    let used := mailed { ringed with suites := lMod ringed.suites 0 (fun _ => suite0 3) } 1 0x0012 0 []
    let free := mailed ringed 1 0x0012 0 []
    let theirs := mailed { ringed with suites := lMod ringed.suites 0 (fun _ => suite0 3) } 20 0x0012 0 []
    takes ok 1 0x0011 = true ∧ (ok.suite 0).st = 0 ∧ ok.createCores 0 1 = true ∧
      ok.createGrants 0 (createSuite 0 (asked ok 1).body).grants = true ∧ ok.createRings 0 (asked ok 1).body = true ∧
      createRange 0 (asked ok 1).body = true ∧ ok.reseating = false ∧
    takes none_ 1 0x0011 = true ∧ none_.createRings 0 (asked none_ 1).body = false ∧
    takes used 1 0x0012 = true ∧ (used.suite 0).st ≠ 0 ∧ takes free 1 0x0012 = true ∧ (free.suite 0).st = 0 ∧
    takes theirs 20 0x0012 = true ∧ (theirs.suite 0).owner ≠ (asked theirs 20).fn := by decide +kernel

/-- Function 1 had its last heartbeat at 0 ns, and is in orphan mode or not. -/
def beaten (o : Bool) : State := up.setFunc 1 (fun f => { f with beat := some 0, orphan := o })

/-- An adopt request for a buffer of function 1. -/
def adoptBody (a n : Nat) : List Byte := toLE 8 a ++ toLE 4 n ++ zeros 4

theorem witness_OrphanMode :
    let late := at_ (beaten false) 300000000
    let ok := plain (beaten true) 17 0x0003 (adoptBody 65536 65536)
    let bad := plain (beaten true) 17 0x0003 (adoptBody 65536 65535)
    let sealed_ := plain { up with rings := [(0, { ring0 with owner := 1 })], xlt := { up.xlt with table := [] } } 17 0x0003 (adoptBody 65536 65536)
    late.firmwareActs = true ∧ (late.func 1).beat = some 0 ∧ 0 + 300000000 ≤ late.now ∧ (beaten false).now < 0 + 300000000 ∧
    takes ok 17 0x0003 = true ∧ ok.inFn 1 65536 65536 = true ∧ ok.writable 65536 0 = true ∧ sealed_.writable 65536 16 = false ∧
    takes sealed_ 17 0x0003 = true ∧ sealed_.inFn 1 65536 65536 = true ∧ (sealed_.ringsOf 1).length = 1 ∧ (ok.func 1).orphan = true ∧ (ok.ringsOf 1).length = 0 ∧
    takes bad 17 0x0003 = true := by decide +kernel

theorem witness_DoorbellOutcomes :
    ringed.ring? 9 = none ∧ ringed.ring? 0 = some ring0 ∧ (ringed.func 0).orphan = false ∧ ring0.owner = 0 ∧ ring0.kind = 0 ∧ (16 + M32 - ring0.c) % M32 ≤ ring0.slots ∧
    ring0.slots < (17 + M32 - ring0.c) % M32 ∧ ({ ring0 with kind := 1 } : Ring).kind ≠ 0 ∧ (ring0.p + M32 - 0) % M32 ≤ ring0.slots := by
  decide +kernel

/-- Suite 0 is idle with a program and one submission entry, whose first bytes are given. -/
def waiting (entry : List Byte) : State :=
  let x : Suite := { suite0 3 with owner := 0, prog := some prog0, results := [some 2] }
  { ringed with
    suites := lMod ringed.suites 0 (fun _ => x),
    rings := [(0, { ring0 with p := 1, suite := some 0 }), (1, { ring0 with kind := 1, slotLog := 5 }), (2, { ring0 with kind := 2 })],
    hbm := memWrite hbmDefault [] 4096 entry }

theorem witness_DispatchAndCompletion_dispatch :
    let entry := fun (s : State) => parseEntry (s.devRead 4096 256)
    let seen := fun (s : State) => s.touchPins (entry s).recs (s.touchAll 4096 256)
    let ok := waiting []
    let bad := waiting [1]
    let pin := waiting [0, 0, 0, 1]
    let big := waiting [0, 0, 0, 0, 16, 0]
    let full : State := { big with rings := lMod big.rings 2 (fun e => (e.1, { e.2 with resv := 1 })) }
    let gone : State := { ok with xlt := { ok.xlt with table := [] } }
    ok.suiteIdle 0 = true ∧ (ok.suite 0).started = false ∧ (ok.suite 0).assembled = false ∧
      (ok.ring? (ok.suite 0).subRing).map (fun r => (r.held, r.stopped)) = some (1, false) ∧
      (ok.ring? 0).map (fun r => ok.ringReads r (r.slotAddr r.c) 256) = some true ∧ (ok.ring? 0).map (fun r => r.slotAddr r.c) = some 4096 ∧
      gone.suiteIdle 0 = true ∧ (gone.ring? 0).map (fun r => gone.ringReads r (r.slotAddr r.c) 256) = some false ∧
    (seen ok).badEntry 0 (entry ok) = false ∧ (entry ok).recs.all (seen ok).pinHolds = true ∧ (seen ok).resvFits 0 (entry ok).resv = true ∧
    (seen bad).badEntry 0 (entry bad) = true ∧ (seen pin).badEntry 0 (entry pin) = false ∧ (entry pin).recs.all (seen pin).pinHolds = false ∧
    (seen full).badEntry 0 (entry full) = false ∧ (entry full).recs.all (seen full).pinHolds = true ∧
    (seen full).resvFits 0 (entry full).resv = false := by
  decide +kernel

/-- Core 0 has ended its kernel. -/
def halted (last : Nat) : State :=
  let d : Disp := { disp0 with last := last }
  (running.setSuite 0 (fun x => { x with disp := some d })).setCore 0 (fun c => { c with seq := { c.seq with ended := true } })

theorem witness_KernelStartAndEnd :
    0 < running.suites.length ∧ bit (running.suite 0).mask 0 = true ∧ bit (running.suite 0).mask 1 = false ∧
    (halted 1).firmwareActs = true ∧ ((halted 1).suite 0).st = 4 ∧ coresOf ((halted 1).suite 0).mask = [0] ∧
    ((halted 1).suite 0).disp.map (fun d => d.last) = some 1 ∧ ((halted 0).suite 0).disp.map (fun d => d.last) = some 0 ∧
    (halted 1).coreDone 0 = true ∧ (halted 0).coreDone 0 = true ∧ running.coreDone 0 = false := by decide +kernel

theorem witness_DispatchAndCompletion_completion :
    let s := ringed.due 1 0 0 0 0 0 0 (.consume 0)
    let full : State := { s with rings := lMod s.rings 1 (fun e => (e.1, { e.2 with p := 16 })) }
    let gone : State := { s with xlt := { s.xlt with table := [] } }
    s.comps.length = 1 ∧ s.comps.find? (fun c => c.ring = 1) ≠ none ∧ (s.ring? 1).map (fun r => (r.free, r.stopped)) = some (16, false) ∧
    s.firmwareActs = true ∧ (s.comps.map Comp.after) = [.consume 0] ∧ ((ringed.due 1 0 0 0 0 0 0 .none).comps.map Comp.after) = [.none] ∧
    (s.ring? 1).map (fun r => s.ringWrites r (r.slotAddr r.p) 32) = some true ∧
    (gone.ring? 1).map (fun r => gone.ringWrites r (r.slotAddr r.p) 32) = some false ∧ gone.firmwareActs = true ∧
    (full.ring? 1).map Ring.free = some 0 := by decide +kernel

/-- Suite 0 is idle, assembles steps and has an admission ring 2. -/
def batching (orphan : Bool) (held : Nat) : State :=
  let x : Suite := { suite0 3 with owner := 0, prog := some prog0, batching := true, admRing := some 2, rows := [none], chunk := 1, budget := 1 }
  { (up.setFunc 0 (fun f => { f with orphan := orphan })) with
    suites := lMod up.suites 0 (fun _ => x),
    rings := [(0, { ring0 with p := held }), (1, { ring0 with kind := 1, slotLog := 5 }), (2, { ring0 with kind := 3 })] }

theorem witness_StepAssemblyOutcomes :
    (batching false 0).suiteIdle 0 = true ∧ ((batching false 0).suite 0).lastStep < ((batching false 0).suite 0).kernels ∧
    ((batching false 0).suite 0).started = false ∧ (batching false 0).compWaits 0 = false ∧
    ((batching false 0).ring? 0).map Ring.held = some 0 ∧ ((batching false 1).ring? 0).map Ring.held = some 1 ∧
    ((batching true 0).func 0).orphan = true ∧ ((batching false 0).ring? 2).isSome = true ∧
    ((batching false 0).suite 0).batching = true ∧ ((batching false 0).suite 0).assembled = false ∧
    ((batching false 0).setSuite 0 (fun x => { x with assembled := true })).resvFits 0 [] = true ∧
    ((batching false 0).setSuite 0 (fun x => { x with assembled := true })).suiteIdle 0 = true ∧
    ((batching false 0).suite 0).stepResv = [] ∧ (waiting []).resvFits 0 [17] = false ∧
    occupied (allot 1 1 [none]) = 0 ∧ occupied (allot 1 1 [some { (default : BatchRow) with left := 1 }]) ≠ 0 := by decide +kernel

/-- A load request for an image of 176 bytes at page 2, or of 100. -/
def loadBody (n : Nat) : List Byte := toLE 8 8192 ++ toLE 4 n ++ zeros 4

theorem witness_LoadBegins :
    let s1 : State := { up with suites := lMod up.suites 0 (fun _ => { suite0 1 with owner := 0 }) }
    let ok := mailed s1 1 0x0013 0 (loadBody 176)
    let short := mailed s1 1 0x0013 0 (loadBody 100)
    let busy := mailed { up with suites := lMod up.suites 0 (fun _ => { suite0 3 with owner := 0 }) } 1 0x0013 0 (loadBody 176)
    let theirs := mailed { s1 with suites := lMod up.suites 0 (fun _ => { suite0 1 with owner := 1 }) } 1 0x0013 0 (loadBody 176)
    takes ok 1 0x0013 = true ∧ (ok.suite 0).st = 1 ∧ (ok.suite 0).owner = 0 ∧ ok.loadRange (asked ok 1) = true ∧
    takes short 1 0x0013 = true ∧ short.loadRange (asked short 1) = false ∧ takes busy 1 0x0013 = true ∧ (busy.suite 0).st ≠ 1 ∧
    (busy.suite 0).owner = (asked busy 1).fn ∧ takes theirs 1 0x0013 = true ∧ (theirs.suite 0).st = 1 ∧
    (theirs.suite 0).owner ≠ (asked theirs 1).fn := by
  decide +kernel

/-- Suite 0 loads 176 bytes at page 2: 128 zeros and a trailer. -/
def loading (phase round : Nat) (trailer : List Byte) (seen : List Nat) (missing : AMap (List Byte)) : State :=
  let l : Load := { pair := 1, addr := 8192, len := 176, prog := prog0, image := if phase = 0 then [] else zeros 176, phase := phase,
                    round := round, sent := [(0, toLE 1 1)], seen := seen, missing := missing }
  { (up.setPair 1 (fun x => { x with busy := true })) with
    suites := lMod up.suites 0 (fun _ => { suite0 2 with load := some l }), hbm := memWrite hbmDefault [] (8192 + 128) trailer }

theorem witness_DigestMismatch :
    let s := loading 0 0 [] [] []
    s.fwOn = true ∧ (s.suite 0).st = 2 ∧ (s.suite 0).load.map (fun l => (l.phase, l.pair)) = some (0, 1) ∧ (s.pair 1).busy = true ∧
    sha384 ((s.devRead 8192 176).take 128) ≠ (s.devRead 8192 176).drop 128 ∧
    (let t := loading 0 0 (sha384 (zeros 128)) [] []
     sha384 ((t.devRead 8192 176).take 128) = (t.devRead 8192 176).drop 128) ∧ (running.suite 0).prog.isSome = true := by decide +kernel

theorem witness_LoadRounds :
    let s := loading 1 8 [] [] []
    let f : SegFrame := { segment := 0, length := 176, check := crc32c (zeros 176), payload := zeros 176 }
    (s.broadcast 0 0).isSome = true ∧
    (s.broadcast 0 0).map (fun l => (mapBit (l.sends 0) f.segment, decide (f.payload = segBytes l.image f.segment))) = some (true, true) ∧
    f.payload.length = f.length ∧ crc32c f.payload = f.check ∧ ¬ crc32c (zeros 175) = f.check ∧
    (s.suite 0).load.map Load.seen = some [] ∧ ((loading 1 8 [] [0] []).suite 0).load.map Load.seen = some [0] ∧
    coresOf (s.suite 0).mask = [0] ∧
    ((loading 1 8 [] [0] [(0, [1])]).suite 0).load.map (fun l => (decide (l.missing ≠ []), l.round)) = some (true, 8) ∧
    ((loading 1 0 [] [0] [(0, [1])]).suite 0).load.map Load.round = some 0 := by
  decide +kernel

/-! ## Witnesses: tile-interface instructions -/

/-- Does a vector instruction that comes to a core find all that the statement `VectorInstructionCompletes` asks for? -/
def vectorReady (s : State) (k n idx : Nat) (ti : TInstr) : Bool :=
  let r := (s.entered n idx ti).readied k n (s.issuedAs n idx ti)
  s.awaits k n idx [] && match (s.entered n idx ti).vplan k ti with
  | none => false
  | some v =>
    decide (r.1.vectorCode k n v = none) && decide (r.1.clauseWait r.2.1 v.cl = some []) &&
      decide (r.1.missing n [] (v.pops.map QName.idx) = []) &&
      match extVals r.2.1.sh v.exts, r.1.popAll n (v.pops.map QName.idx) with
      | some x, .inl (es, _) =>
        v.lim x && decide (r.1.spaceWaits k n [] (v.outs.zip (v.size x) ++ statsDemand v.stats) = []) && match v.run x es with
        | some m => decide (r.1.spaceWaits k n [] (demandOf (r.1.withRecord k n idx 3 false (v.outs.zip m.outs) v.stats m.counts)) = [])
        | none => false
      | _, _ => false

/-- What `vectorReady` says. -/
theorem vectorReady_spec (s : State) (k n idx : Nat) (ti : TInstr) (h : vectorReady s k n idx ti = true) :
    s.awaits k n idx [] = true ∧ ∃ v x es m t, (s.entered n idx ti).vplan k ti = some v ∧
      let r := (s.entered n idx ti).readied k n (s.issuedAs n idx ti)
      r.1.vectorCode k n v = none ∧ extVals r.2.1.sh v.exts = some x ∧ v.lim x = true ∧ r.1.clauseWait r.2.1 v.cl = some [] ∧
      r.1.missing n [] (v.pops.map QName.idx) = [] ∧ r.1.spaceWaits k n [] (v.outs.zip (v.size x) ++ statsDemand v.stats) = [] ∧
      r.1.popAll n (v.pops.map QName.idx) = .inl (es, t) ∧ v.run x es = some m ∧
      r.1.spaceWaits k n [] (demandOf (r.1.withRecord k n idx 3 false (v.outs.zip m.outs) v.stats m.counts)) = [] := by
  unfold vectorReady at h
  simp only [Bool.and_eq_true] at h
  refine ⟨h.1, ?_⟩
  replace h := h.2
  split at h
  · cases h
  · rename_i v hv
    simp only [Bool.and_eq_true, decide_eq_true_eq] at h
    obtain ⟨⟨⟨hc, hw⟩, hm⟩, h⟩ := h
    split at h
    · rename_i x es t hx hp
      simp only [Bool.and_eq_true, decide_eq_true_eq] at h
      obtain ⟨⟨hl, hs⟩, h⟩ := h
      split at h
      · rename_i m hr
        exact ⟨v, x, es, m, t, hv, hc, hx, hl, hw, hm, hs, hp, hr, of_decide_eq_true h⟩
      · cases h
    · cases h

/-- An FP24 tensor of one row. -/
def row24 (l : List Nat) : Entry :=
  { kind := .tensor, fmt := 0xa, rows := 1, cols := l.length, data := l, scales := [], chip := none, core := 0 }

/-- FP24 codes of 1 and 2. -/
def one24 : Nat := 0x3f8000

def two24 : Nat := 0x400000

/-- `vx.map` addition. -/
def opMap : VxMapOp :=
  { unit := 0, code := 1, m := .imm 1, n := .imm 2, a := q0 0, b := some (.full (q0 1)), c := none, fmt := 0xa, scales := none, out := q0 2,
    stats := none, cl := bare }

/-- `vx.dw` with a 1 × 1 kernel. -/
def opDw : VxDwOp :=
  { unit := 0, oh := .imm 1, ow := .imm 1, c := .imm 1, kh := 1, kw := 1, sh := 1, sw := 1, dh := 1, dw := 1, g := 1, inp := q0 0, w := q0 1,
    bias := none, fmt := 0xa, scales := none, out := q0 2, stats := none, cl := bare }

/-- `vx.pool` over one element. -/
def opPool : VxPoolOp :=
  { unit := 1, oh := .imm 1, ow := .imm 1, c := .imm 1, ph := 1, pw := 1, sh := 1, sw := 1, avg := true, inp := q0 0, fmt := 0xa,
    scales := none, out := q0 2, stats := some (q0 3), cl := bare }

/-- `vx.reduce`: the sum of a row. -/
def opReduce : VxReduceOp :=
  { unit := 0, code := 0, axis := 0, e := 0, m := .imm 1, n := .imm 2, inp := q0 0, fmt := 0xa, scales := none, out := q0 2, stats := none,
    cl := bare }

/-- `vx.sort`: the larger of two. -/
def opSort : VxSortOp :=
  { unit := 0, m := .imm 1, n := .imm 2, k := .imm 1, asc := false, inp := q0 0, values := q0 2, index := q0 3, stats := none, cl := bare }

/-- `vx.boxdec` over one position of a 1 × 1 grid without classes. -/
def opBoxdec : VxBoxdecOp :=
  { unit := 0, formula := 2, thr := 0, a := .imm 1, c := .imm 1, inp := q0 0, params := q0 1, out := q0 2, stats := none, cl := bare }

/-- `vx.nms` of one entry. -/
def opNms : VxNmsOp := { unit := 0, e := 1, k := .imm 4, iou := one24, aware := true, inp := q0 0, out := q0 2, stats := none, cl := bare }

/-- A parameter entry for a 1 × 1 grid of stride 1 on an image of 8 × 8. -/
def boxPar : Entry :=
  { kind := .index, fmt := 0, rows := 1, cols := 18, data := [1, 1, 1, one24, 8, 8, 2, 1000, 0, 0, 0, 0, 0, 0, 0, 0, one24, one24], scales := [],
    chip := none, core := 0 }

/-- One record of zeros. -/
def record1 : Entry :=
  { kind := .record, fmt := 0, rows := 1, cols := 1, data := List.replicate 32 0, scales := [], chip := none, core := 0 }

/-- Entries for queue ends 0 and 1, with 2 and 3 empty. -/
def with01 (a b : Entry) : State := fed [(0, [a]), (1, [b]), (2, []), (3, [])]

theorem witness_VectorInstructionCompletes :
    vectorReady (with01 (row24 [one24, two24]) (row24 [one24, one24])) 0 0 7 (.vxMap opMap) = true ∧
    vectorReady (with01 (row24 [one24]) (row24 [two24])) 0 0 7 (.vxDw opDw) = true ∧
    vectorReady (with01 (row24 [two24]) (row24 [])) 0 0 7 (.vxPool opPool) = true ∧
    vectorReady (with01 (row24 [one24, two24]) (row24 [])) 0 0 7 (.vxReduce opReduce) = true ∧
    vectorReady (with01 (row24 [one24, two24]) (row24 [])) 0 0 7 (.vxSort opSort) = true ∧
    vectorReady (with01 (row24 [one24, one24, one24, one24, one24, one24]) boxPar) 0 0 7 (.vxBoxdec opBoxdec) = true ∧
    vectorReady (with01 record1 (row24 [])) 0 0 7 (.vxNms opNms) = true := by decide +kernel

theorem witness_InstructionOnIdleCore :
    let s := with01 (row24 [one24, two24]) (row24 [one24, one24])
    let dry := with01 (row24 [one24, two24]) (row24 [])
    let tries := fun (s : State) (ti : TInstr) =>
      let r := (s.entered 0 7 ti).readied 0 0 (s.issuedAs 0 7 ti)
      r.1.attempt 0 0 false r.2.1
    let kind := fun (a : Attempt) => match a with
      | .go true _ => 1
      | .go false _ => 2
      | .skip _ _ => 3
      | .overrun _ => 4
      | .wait _ => 5
      | .later => 6
    streamInstr (.vxMap 0 7 opMap) = some (0, 7, .vxMap opMap) ∧ pushesOrStores (.vxMap opMap) = true ∧ s.awaits 0 0 7 [] = true ∧
    kind (tries s (.vxMap opMap)) = 1 ∧ kind (tries s (.vxMap { opMap with code := 0x13 })) = 3 ∧
    kind (tries dry (.vxMap opMap)) = 4 ∧ kind (tries (fed [(0, []), (1, []), (2, [])]) (.vxMap opMap)) = 5 := by decide +kernel

/-- An MX8 row of one block. -/
def mxRow : Entry :=
  { kind := .tensor, fmt := 4, rows := 1, cols := 32, data := List.replicate 32 0x38, scales := [127], chip := none, core := 0 }

/-- `mx.seat` of one channel of one block into bank A. -/
def opSeat : MxSeatOp := { bankB := false, wfmt := 4, n := .imm 1, nb := .imm 1, w := q0 0, stats := none, cl := bare }

theorem witness_SeatAndChain_seat :
    let s := with01 mxRow mxRow
    let r := (s.entered 0 7 (.mxSeat opSeat)).readied 0 0 (s.issuedAs 0 7 (.mxSeat opSeat))
    s.awaits 0 0 7 [] = true ∧ r.1.seatCode 0 0 opSeat = none ∧ extVal r.2.1.sh opSeat.n = some 1 ∧ extVal r.2.1.sh opSeat.nb = some 1 ∧
    r.1.clauseWait r.2.1 opSeat.cl = some [] ∧ r.1.missing 0 [] [0] = [] ∧ r.1.spaceWaits 0 0 [] (statsDemand opSeat.stats) = [] ∧
    (r.1.pop 0 0).map Prod.fst = some mxRow ∧ mxRow.isBlocks 4 1 1 = true := by decide +kernel

/-- A chain that only quantises to FP24. -/
def chain0 : List Stage := [.quant { fmt := 0xa, mode := 0, reemit := false, slot := 0, advance := 0 }]

def opChain : DrChainOp :=
  { chain := 0, result := q0 2, ops := [], scales := none, maxima := none, reset := none, merged := none, stats := none, cl := bare }

def opTile : MxTileOp :=
  { bankB := false, afmt := 4, m := .imm 1, n := .imm 1, nb := .imm 1, fused := false, act := q0 0, stats := none, cl := bare }

def opBench : MxBenchOp :=
  { afmt := 4, wfmt := 4, m := .imm 1, n := .imm 1, nb := .imm 1, fused := false, base := 0, act := q0 0, w := q0 1, stats := none, cl := bare }

/-- The issued chain. -/
def issuedChain : Issued := { no := 0, idx := 6, instr := .drChain opChain, sh := List.replicate 16 (.known 0), lp := [], met := true }

/-- Core 0 with one chain in its program. -/
def chainable : State :=
  (with01 mxRow mxRow).setSuite 0 (fun x => { x with prog := some { prog0 with chains := [chain0] } })

/-- Core 0 with the chain in flow, a seated bank and a full array. -/
def chained : State :=
  chainable.setCore 0 (fun c => { c with
    seq := { c.seq with flow := [.work issuedChain], nextNo := 1, code := [(6, .drChain opChain)], pc := 1 },
    arr := { c.arr with rows := 32, mode := 3, bankA := some (seatBank mxRow 4 1 1) } })

theorem witness_SeatAndChain_chain :
    let s := chainable
    let r := (s.entered 0 7 (.drChain opChain)).readied 0 0 (s.issuedAs 0 7 (.drChain opChain))
    let t := chained.setSeq 0 (fun q => { q with flow := [.work issuedChain, .work { issuedChain with no := 1, idx := 8 }] })
    s.awaits 0 0 7 [] = true ∧ r.1.chainCode 0 0 opChain = none ∧ t.chainCode 0 0 opChain = none ∧
    (t.core 0).seq.flow.length = 2 := by decide +kernel

theorem witness_TileCompletes :
    let s := chained
    let s1 := s.entered 0 7 (.mxTile opTile)
    let r := s1.readied 0 0 (s.issuedAs 0 7 (.mxTile opTile))
    s.awaits 0 0 7 [.work issuedChain] = true ∧ issuedChain.no < (s.core 0).seq.nextNo ∧ s1.clauseReady issuedChain = false ∧
    s1.chainCode 0 0 opChain = none ∧ r.1.chainCode 0 0 opChain = none ∧ r.1.tileCode 0 0 r.2.1 opTile = none ∧
    extVals r.2.1.sh [opTile.m, opTile.n, opTile.nb] = some [1, 1, 1] ∧ r.1.clauseWait r.2.1 opTile.cl = some [] ∧
    r.1.clauseWait issuedChain opChain.cl = some [] ∧ (r.1.core 0).arr.bankA = some (seatBank mxRow 4 1 1) ∧ 32 ≤ (r.1.core 0).arr.rows ∧
    r.1.missing 0 [] [opTile.act.idx] = [] ∧ r.1.spaceWaits 0 0 [] (statsDemand opTile.stats) = [] ∧
    r.1.chainWaits 0 0 issuedChain opChain 1 1 = [] ∧ mxRow.isBlocks 4 1 1 = true ∧
    (match r.1.pop 0 0 with
     | some (e, t) =>
       let out := tileOut (r.1.suite 0).flush false 4 e (seatBank mxRow 4 1 1) 1 1 1
       match t.finishMatrix 0 0 r.2.1 none false issuedChain opChain 1 1 out (lastPass false 1 1 out.data) with
       | .go true _ => true
       | _ => false
     | none => false) = true := by decide +kernel

theorem witness_BenchCompletes :
    let s := chained
    let r := (s.entered 0 7 (.mxBench opBench)).readied 0 0 (s.issuedAs 0 7 (.mxBench opBench))
    let s1 := s.entered 0 7 (.mxBench opBench)
    s1.clauseReady issuedChain = false ∧ s1.chainCode 0 0 opChain = none ∧ r.1.chainCode 0 0 opChain = none ∧
    r.1.benchCode 0 0 r.2.1 opBench = none ∧ extVals r.2.1.sh [opBench.m, opBench.n, opBench.nb] = some [1, 1, 1] ∧
    r.1.clauseWait r.2.1 opBench.cl = some [] ∧ r.1.clauseWait issuedChain opChain.cl = some [] ∧ (r.1.core 0).arr.bench = none ∧
    r.1.missing 0 [] [0] = [] ∧ r.1.spaceWaits 0 0 [] (statsDemand opBench.stats) = [] ∧
    r.1.chainWaits 0 0 issuedChain opChain 1 1 = [] ∧
    (match r.1.pop 0 0 with
     | some (e, t) =>
       let b0 : BenchRun := { i := r.2.1, act := e, step := 0, bank0 := none, bank1 := none, acc := [] }
       let s2 := (t.setCore 0 (fun y => { y with arr := { y.arr with bench := some b0 } })).handshake 0
       let z := s2.popSteps 0 opBench (s2.suite 0).flush 1 1 1 b0 (benchSteps 4 1 false)
       !s2.clauseReady issuedChain && !s2.clauseReady r.2.1 && decide (s2.chainCode 0 0 opChain = none) &&
       decide (s2.benchCode 0 0 r.2.1 opBench = none) && decide (s2.clauseWait r.2.1 opBench.cl = some []) &&
       decide (s2.clauseWait issuedChain opChain.cl = some []) && decide (32 ≤ (s2.core 0).arr.rows) &&
       z.2.2 && decide (benchSteps 4 1 false ≤ z.2.1.step) && e.isBlocks 4 1 1 &&
       (match z.1.finishMatrix 0 0 r.2.1 none false issuedChain opChain 1 1 (lanesOf z.2.1.acc) [] with
       | .go true _ => true
       | _ => false)
     | none => false) = true := by decide +kernel

theorem witness_FinishMatrix :
    let s := chained
    (s.suite 0).chain 0 = some chain0 ∧ (quantOf chain0).isSome = true ∧
    (match s.popAll 0 ((drPops opChain).map QName.idx) with | .inl (es, _) => decide (es = []) | .inr _ => false) = true ∧
    (quantOf chain0).map (fun q => drainFits chain0 q 1 1 (drainIn opChain [])) = some true := by decide +kernel

/-- An FP24 walk of one row of four elements at device address 0. -/
def walk0 (store : Bool) : WalkDesc :=
  { store := store, shelf := false, fmt := 0xa, run := 4, cls := 1, loops := [{ sh := none, imm := 1 }],
    dims := [{ extent := { sh := none, imm := 4 }, stride := 4, offset := 0, offSh := none, lp := none, coef := [0] }], baseSelect := false,
    entryLoops := 1, rowMask := 0, pad := 0, padScale := 0, fold := none, guards := [], signals := [], bases := [.imm 0] }

def opWalk : StWalkOp := { unit := 0, walk := 0, dest := .queue (q0 2), bases := [.imm 0], cl := bare }

def opStore : StStoreOp := { unit := 0, walk := 0, inp := q0 0, ring := none, bases := [.imm 0], cl := bare }

/-- Core 0 with a walk and an FP24 row of four elements. -/
def walking (store : Bool) : State :=
  let g : Program := { prog0 with walks := [walk0 store] }
  let f : State := fed [(0, [row24 [one24, one24, one24, two24]]), (2, [])]
  { f.setSuite 0 (fun x => { x with prog := some g, owner := 1, mode := 0 }) with
    xlt := { f.xlt with windows := [(0, { first := 0, count := 32, owner := 1, mask := 1 })] } }

theorem witness_WalkCompletes :
    let s := walking false
    let r := (s.entered 0 7 (.stWalk opWalk)).readied 0 0 (s.issuedAs 0 7 (.stWalk opWalk))
    s.awaits 0 0 7 [] = true ∧ (r.1.core 0).walks.getD 0 none = none ∧ (r.1.core 0).walks.length = 4 ∧ 0 < r.1.cores.length ∧
    r.1.walkCode 0 0 opWalk = none ∧ r.1.clauseWait r.2.1 opWalk.cl = some [] ∧
    (match r.1.walkPlanOf 0 r.2.1 0 opWalk.bases with
     | some p =>
       let r1 := startRun r.2.1 0 p
       let z := (r.1.setWalk 0 0 (some r1)).fetchVisits 0 0 p r1 p.pass
       let t3 := z.1.setWalk 0 0 (some z.2.1)
       decide (p.total = 1) && decide (p.pass = p.total) && decide (r.1.planCode 0 p [] = none) && decide (z.2.2 = .none) &&
         decide (z.2.1.visit = p.total) &&
         (match z.2.1.ready with
          | [e] => t3.free_ 0 0 (t3.localName (q0 2)) e
          | _ => false)
     | none => false) = true := by decide +kernel

theorem witness_StoreWrites :
    let s := walking true
    let r := (s.entered 0 7 (.stStore opStore)).readied 0 0 (s.issuedAs 0 7 (.stStore opStore))
    s.awaits 0 0 7 [] = true ∧ (r.1.core 0).walks.getD 0 none = none ∧ r.1.storeCode 0 0 opStore = none ∧
    r.1.clauseWait r.2.1 opStore.cl = some [] ∧
    (match r.1.walkPlanOf 0 r.2.1 0 opStore.bases with
     | some p =>
       let r1 := startRun r.2.1 0 p
       let z := (r.1.setWalk 0 0 (some r1)).storeVisits 0 0 opStore p r1 p.pass
       decide (p.total ≠ 0) && decide (p.pass = p.total) && decide (r.1.planCode 0 p [] = none) && decide (z.2.2 = .none) &&
         decide (z.2.1.visit = p.total) &&
         p.takes (row24 [one24, one24, one24, two24]) && r.1.spansOk p.d.shelf true (p.spans 0) && decide ((0 + 1) % p.pass = 0)
     | none => false) = true := by decide +kernel

theorem witness_WaitAndBarrierHold :
    let s := fed []
    let w : QWaitOp := { flag := .core 0 5, target := { sh := none, imm := 1 } }
    let g := s.setSuite 0 (fun x => { x with grants := [{ unit0 := 0, units := 0, flag0 := 0, flags := 256, hub0 := 0, hubs := 0 }] })
    s.awaits 0 0 7 [] = true ∧ s.waitCode 0 0 w.flag = none ∧ targetVal (s.core 0).seq.sh w.target = some 1 ∧
    flagMet (s.flagValue w.flag) 1 = false ∧ flagMet (s.flagValue w.flag) 0 = true ∧
    g.waitCode 0 0 (.shelf 0 255) = none ∧ flagMet (g.flagValue (.shelf 0 255)) 2 = false ∧ (g.core 0).seq.opens = [] := by decide +kernel

theorem witness_SignalRule :
    let s := fed []
    s.signalCode 0 (.core 0 1023) = none ∧ s.signalCode 0 (.core 0 1024) = some 0x05 ∧ s.signalCode 0 (.shelf 0 0) = some 0x05 ∧
    minCode [s.signalCode 0 (.core 0 0), codeUnless (65536 ≤ 65535) 0x01] = some 0x01 ∧
    (let t := s.pendFlag 0 0 (.core 0 3) 2
     (t.core 0).seq.flags[0]? = some { no := 0, flag := .core 0 3, inc := 2 } ∧ t.ordered 0 0 = true) ∧
    ((s.entered 0 7 (.vxMap opMap)).pendFlag 0 1 (.core 0 3) 2).ordered 0 1 = false := by decide +kernel

theorem witness_ControlIssued :
    let s := fed []
    let g : GuardMark :=
      { no := 0, idx := 3, reg := .known 0, cmp := .eq, imm := 0, pc := 0, frames := [], sh := List.replicate 16 (.known 0), opens := [] }
    let t := s.setCore 0 (fun c => { c with seq := { c.seq with flow := [.guard g], opens := [0], nextNo := 1024, pc := 1, code := [(3, .ctlGuard { sh := 0, cmp := .eq, imm := 0 })] } })
    s.awaits 0 0 7 [] = true ∧ (s.core 0).seq.frames.length < 8 ∧ extVal (s.core 0).seq.sh (.imm 3) = some 3 ∧ extOk (.sh 15) = true ∧
    (s.core 0).seq.opens.length < 4 ∧ t.awaits 0 0 7 [.guard g] = true ∧ (t.core 0).seq.nextNo ≤ g.no + 1024 := by decide +kernel

theorem witness_ShapeCompletes :
    let s := fed [(0, [row24 [one24]]), (1, [boxPar])]
    let o : CtlShapeOp := { sh := 2, src := .word 0, a := 1, d := 1, c := 5 }
    let s1 := fun (o : CtlShapeOp) => s.setSeq 0 (fun q => (q.append 7 (.ctlShape o)).enterShape 7 o)
    s.awaits 0 0 7 [] = true ∧ shapeOk o = true ∧ shapeResult o 0 = 5 ∧ (s.suite 0).shMax 2 = 1000 ∧
    shapeResult { o with c := -1 } 0 = -1 ∧ shapeOk { o with c := -1 } = true ∧ shVal (s.core 0).seq.sh 3 = some 0 ∧
    s.popCode 0 (q0 0) = none ∧ shapeOk { o with src := .extent (q0 0) 1 } = true ∧ shapeOk { o with src := .popped (q0 1) 2 } = true ∧
    ((s1 { o with src := .popped (q0 1) 2 }).pop 0 1).bind (fun e => shapeWord e.1 2) = some 1 := by decide +kernel

/-! ## Witnesses: events of running cores -/

/-- An unresolved guard whose register is 0. -/
def guard0 (cmp : Cmp) : GuardMark :=
  { no := 0, idx := 3, reg := .known 0, cmp := cmp, imm := 0, pc := 0, frames := [], sh := List.replicate 16 (.known 0), opens := [] }

/-- Core 0 stands behind an unresolved guard. -/
def guarded (cmp : Cmp) : State :=
  running.setCore 0 (fun c => { c with seq := { c.seq with flow := [.guard (guard0 cmp)], opens := [0], nextNo := 1, pc := 1 } })

theorem witness_GuardOutcomes :
    (guarded .eq).runningSuite 0 = some 0 ∧ splitGuard ((guarded .eq).core 0).seq.flow 0 [] = some ([], guard0 .eq, []) ∧
    (guarded .eq).on = true ∧ guardHolds .eq 0 0 = true ∧ enclosed [] = false ∧ guardHolds .ne 0 0 = false ∧ guardsIn [] = [] := by decide +kernel

theorem witness_WaitsAndStalls_stall :
    (at_ running 2000000).on = true ∧ ((at_ running 2000000).suite 0).st = 4 ∧ (at_ running 2000000).kernelOver 0 = false ∧
    (running.suite 0).stallFrom + (running.suite 0).stall * 1000 ≤ (at_ running 2000000).now ∧ 0 < running.suites.length ∧
    running.now < (running.suite 0).stallFrom + (running.suite 0).stall * 1000 ∧ (State.reset.suite 0).st ≠ 4 ∧
    (running.setCore 0 (fun c => { c with seq := { c.seq with ended := true } })).kernelOver 0 = true := by decide +kernel

theorem witness_WaitsAndStalls_wait :
    let held := running.setCore 0 (fun c => { c with seq := { c.seq with hold := some (0, 3, .core 0 5, 0) } })
    held.on = true ∧ (held.suite 0).st = 4 ∧ flagMet (held.flagValue (.core 0 5)) 1 = false ∧
    held.runningSuite 0 = some 0 ∧ (held.core 0).seq.hold = some (0, 3, .core 0 5, 0) ∧ flagMet (held.flagValue (.core 0 5)) 0 = true ∧
    (held.core 0).seq.flow = [] := by decide +kernel

/-- A push of core 0 on its way to its own queue end 1. -/
def pushed (merge : Bool) : State :=
  let f : State := fed [(1, [])]
  let p : Push := { src := 0, no := 0, core := 0, qi := 1, gr := 1, entry := row24 [one24] }
  let q : Push := { p with src := 1 }
  { f.setQueue 0 1 (fun x => { x with merge := merge, back := [{ core := 1, n := 2 }] }) with flight := [p, q] }

theorem witness_EntriesArrive_arrival :
    let s := pushed true
    let halted := s.setSuite 0 (fun x => { x with st := 5 })
    s.on = true ∧ s.suiteOf 0 = some 0 ∧ (s.suite 0).st ≠ 5 ∧ halted.suiteOf 0 = some 0 ∧ (halted.suite 0).st = 5 ∧ (s.flight.find? (fun p => p.core = 0 && p.qi = 1 && p.src = 0)).isSome = true ∧
    (aGet (s.core 0).queues 1).map QueueEnd.merge = some true ∧ s.rivalAt 0 1 0 = true ∧
    (aGet ((pushed false).core 0).queues 1).map QueueEnd.merge = some false ∧
    (aGet (s.core 0).queues 1).map (fun x => x.back.find? (fun c => c.core = 1)) = some (some { core := 1, n := 2 }) := by decide +kernel

/-- A group of core 0 engine 0 with receiver core 1, which has not accepted the entry offered since 0 ns. -/
def grouped (depth : Nat) : State :=
  let r : RecvRun := { core := 1, qi := 4, fallback := 1, attached := true, accepted := false, lag := some 0, owes := false }
  let x : GroupRun := { core := 0, engine := 0, recvs := [r], offered := some (row24 [one24]), taken := false, number := 0 }
  let s := walking false
  let iss := s.issuedAs 0 7 (.stWalk opWalk)
  let w : WalkRun := { i := iss, walk := 0, bases := [0], visit := 1, guardAt := 0, items := [], ready := [row24 [one24]], sent := 0,
                       src := none, spec := false, taken := [] }
  let f : Fallback := { group := 5, engine := 1, run := w, next := 0, total := 2, src := 0, qi := 4 }
  at_ (((s.setSuite 0 (fun y => { y with groups := [(5, x)], mask := 3 })).setWalk 0 0 (some w)).setCore 1 (fun c =>
    { c with queues := [(4, { end0 [] with credits := [{ core := 0, n := depth }] })], fallbacks := [f] })) 64000

theorem witness_EntriesArrive_multicast :
    let s := grouped 0
    let w := (s.core 0).walks.getD 0 none
    ((s.suite 0).st = 4 ∧ (s.group? 0 5).isSome = true ∧ ((s.group? 0 5).bind (fun x => x.recvOf 1)).isSome = true ∧ w.isSome = true) ∧
    0 + (s.suite 0).lag * 1000 ≤ s.now ∧ s.room 0 { chip := none, core := 1, idx := 4 } (row24 [one24]) = false ∧
    (grouped 1).room 0 { chip := none, core := 1, idx := 4 } (row24 [one24]) = true ∧
    ((s.core 1).fallbacks.find? (fun f => f.group = 5)).isSome = true ∧
    ((s.group? 0 5).bind (fun x => (x.recvOf 1).map (fun y => (y.2.lag, y.2.attached, y.2.accepted)))) = some (some 0, true, false) ∧
    ((s.group? 0 5).map GroupRun.offered) = some (some (row24 [one24])) ∧ s.on = true ∧
    (match (s.core 1).fallbacks with
     | f :: _ => (match s.runPlan 0 f.run with
       | some p => decide (p.total ≠ 0) && (p.visitsOf f.next).all (fun v => s.spansOk p.d.shelf false (p.spans v)) && decide (f.next + 1 < f.total)
       | none => false)
     | [] => false) = true := by decide +kernel

/-- Core 0's array in a mode with some rows powered. -/
def arrayed (mode rows beat : Nat) : State :=
  running.setArr 0 (fun a => { a with mode := mode, rows := rows, tileBeat := beat, gapStart := if mode = 3 then some 0 else none })

theorem witness_ArrayBeats :
    (arrayed 3 32 31).on = true ∧ running.runningSuite 0 = some 0 ∧ ((arrayed 3 32 31).core 0).arr.gapStart = some 0 ∧ (arrayed 3 32 31).now < 0 + 2000 ∧
    ((arrayed 4 2 0).core 0).arr.mode = 4 ∧ ((arrayed 4 2 0).core 0).arr.rows ≠ 0 ∧ running.matrixReady 0 0 = false ∧
    ((arrayed 3 32 31).core 0).arr.tileBeat < 32 ∧ ((arrayed 4 0 0).core 0).arr.rows = 0 ∧ 0 + 2000 ≤ (at_ (arrayed 3 32 5) 2000).now ∧
    ((chained.setArr 0 (fun a => { a with rows := 30 })).core 0).arr.rows = 30 ∧
    ((arrayed 3 32 32).core 0).arr.tileBeat = 32 ∧ ((arrayed 3 32 31).core 0).arr.tileBeat ≠ 32 ∧
    (let t := chained.setArr 0 (fun a => { a with rows := 28 })
     (t.entered 0 7 (.mxTile opTile)).runningSuite 0 = some 0 ∧ (t.entered 0 7 (.mxTile opTile)).matrixReady 0 0 = true) := by decide +kernel

/-! ## Witnesses: registers, time, lanes -/

theorem witness_RegisterAccess :
    up.on = true ∧ (0x10000 : Nat) % 4 = 0 ∧ 0 < up.media.ports.length ∧ (up.pair 1).reqV = false ∧ ((plain up 1 2 []).pair 1).reqV = true ∧
    pairOwner 17 = 1 ∧ 0 < up.fab.lanes.length := by decide +kernel

theorem witness_AgeLimitRegister :
    up.on = true ∧ (0 : Nat) % 128 = 0 ∧ 64 < 65 % 128 ∧ 1 ≤ 64 % 128 ∧ 64 % 128 ≤ 64 ∧ State.reset.xlt.ageLimit ≤ 64 := by decide +kernel

theorem witness_TimeBaseRules :
    let absorbing := up.setTs (fun t => { t with stepping := true, absorb := M32 * 1000000000 })
    let synced := up.setTs (fun t => { t with source := 1, ppsLast := some 0 })
    let g : LockGroup := { (default : LockGroup) with period := 65536000000, pulse := 10, next := 1 }
    let grp := fun (n : Nat) => ((at_ up n).setTs (fun t => { t with stepAdd := 5000000 })).setMedia (fun m =>
      { m with groups := [(0, g)], ctxs := [(0, { (default : Ctx) with group := some 0, st := 1 })] })
    let pps := fun (n : Nat) => (at_ up n).setTs (fun t => { t with servoOn := true, ppsLast := some 0, ppsOutOn := true, ppsGood := 2 })
    up.on = true ∧ up.ts.stepping = false ∧ up.ts.frac < M32 ∧
    up.ts.count + up.ts.stepAdd + (up.ts.frac + up.ts.rate) / M32 < 2 ^ 64 ∧
    absorbing.ts.rate - absorbing.ts.rate / 2 ≤ absorbing.ts.absorb ∧ absorbing.ts.stepAdd = 0 ∧ synced.ts.source = 1 ∧ up.ts.source ≠ 1 ∧
    (1000000000 < M32 ∧ M32 - 1000000000 < M32) ∧ up.ts.absorb = 0 ∧ absorbing.ts.absorb ≠ 0 ∧ up.ts.servoOn = false ∧
    secondError (pps 999998999).ts.count = -1001 ∧ secondError (pps 1001).ts.count = 1001 ∧ secondError (pps 1000).ts.count = 1000 ∧
    secondError (pps 50).ts.count = 50 ∧ (pps 1100000000).ts.ppsLast = some 0 ∧ (pps 1000000000).ts.count % 1000000000 = 0 ∧
    up.ts.ppsOutOn = false ∧ (at_ synced 1000000000).ts.source = 1 ∧ synced.ts.stepping = false ∧ synced.ts.count < 0 + 1000000000 ∧
    1000000000 ≤ (at_ synced 1000000000).ts.count ∧
    (grp 0).ts.stepAdd ≠ 0 ∧ (((grp 0).ctx? 0).map (fun x => (x.group, x.live))) = some (some 0, true) ∧ 0 < g.period ∧
    (∀ e ∈ (grp 0).media.groups, (grp 0).ts.count + ((grp 0).ts.frac + (grp 0).ts.rate) / M32 < e.2.t e.2.next / lockUnit) ∧
    (let s := grp (g.t 1 / lockUnit)
     let before := s.ts.count + (s.ts.frac + s.ts.rate) / M32
     g.t 1 / lockUnit ≤ before ∧ before < g.t 2 / lockUnit ∧ s.media.groups = [(0, g)]) ∧
    (pps 50000).ts.count % 1000000000 < 100000 := by decide +kernel

/-- Every lane in Ethernet mode; lane 0 with these failures and losses. -/
def laned (isUp : Bool) (fails : Nat) (losses : List Nat) : State :=
  up.setFab (fun f => { f with mode := 5, lanes := lMod f.lanes 0 (fun l => { l with up := isUp, fails := fails, losses := losses }) })

/-- An empty receive queue of port 0 at page 1. -/
def queue0 : PktQ := { port := 0, rx := true, owner := 0, log := 4, base := 4096, p := 0, c := 0, stopped := false }

theorem witness_LanesAndBounds :
    let used := (laned true 0 []).setFab (fun f => { f with queues := [(0, queue0)] })
    changesPair 5 0 0 = true ∧ used.pairUsed 0 = true ∧ (∀ p < 2, changesPair (laned true 0 []).fab.mode 0 p = true → (laned true 0 []).pairUsed p = false) ∧
    pairMode (laned false 0 []).fab.mode 0 ≠ 0 ∧ ((laned false 0 []).lane 0).present = true ∧ ((laned false 0 []).lane 0).up = false ∧
    ((laned false 2 []).lane 0).fails = 2 ∧ ((laned true 0 [0, 0]).lane 0).losses = [0, 0] ∧ ((laned true 0 [0]).lane 0).losses.length < 2 ∧ ((laned true 0 []).lane 0).up = true ∧
    (laned true 0 [0, 0]).now ≤ 0 + 1000000000 ∧
    floor10 (bits (600 + 850 * 65536) 9 0) = 600 ∧ floor10 (bits (600 + 850 * 65536) 25 16) = 850 ∧
    floor10 (bits (700 + 690 * 65536) 25 16) < floor10 (bits (700 + 690 * 65536) 9 0) := by decide +kernel

/-! ## Witnesses: memory and translation -/

theorem witness_MemoryLaws :
    Mem.wf hbmDefault [] = true ∧ Mem.wf hbmDefault (memPut hbmDefault (memPut hbmDefault [] 5 1) 3 2) = true ∧
    memPut hbmDefault (memPut hbmDefault [] 5 1) 5 0 = [] := by decide

/-- A window message: operation, number, first page, count, owner, mask. -/
def windowBody (op n first count owner mask : Nat) : List Byte :=
  toLE 1 op ++ [0] ++ toLE 2 n ++ toLE 4 first ++ toLE 4 count ++ toLE 1 owner ++ zeros 3 ++ toLE 4 mask ++ zeros 4

theorem witness_TranslationMessages :
    let w := fun (p op n first count owner mask : Nat) => plain up p 0x0015 (windowBody op n first count owner mask)
    let ringed1 := plain ringed 1 0x0015 (windowBody 1 0 0 0 0 0)
    let m := fun (op v n : Nat) => plain up 1 0x0018 (toLE 4 v ++ toLE 4 n ++ toLE 8 4096 ++ toLE 1 op ++ zeros 7)
    let zero := m 0 0 1
    (∀ n ∈ [2, 1023, 1024], takes (w 1 0 n 32 16 2 0) 1 0x0015 = true) ∧ takes (w 17 0 2 32 16 2 0) 17 0x0015 = true ∧
    windowRange 0 (windowBody 0 2 32 16 2 0) = true ∧ windowRange 0 (windowBody 0 2 32 0 2 0) = false ∧
    (aGet up.xlt.windows 2 = none ∧ (aGet up.xlt.windows 0).isSome = true) ∧
    up.xlt.windows.any (fun w => overlapN w.2.first w.2.count 31 16 != 0) = true ∧
    up.xlt.windows.any (fun w => overlapN w.2.first w.2.count 32 16 != 0) = false ∧
    takes (w 1 1 0 0 0 0 0) 1 0x0015 = true ∧ windowRange 1 (windowBody 1 0 0 0 0 0) = true ∧
    takes ringed1 1 0x0015 = true ∧ (aGet ringed1.xlt.windows 0).map ringed1.windowHasRing = some true ∧
    (aGet up.xlt.windows 0).map up.windowHasRing = some false ∧
    takes (w 1 2 0 0 0 0 1) 1 0x0015 = true ∧ windowRange 2 (windowBody 2 0 0 0 0 1) = true ∧
    takes zero 1 0x0018 = true ∧ zero.fnReads 0 4096 8 = true ∧ zero.mapChecks 0 0 1 [0] = none ∧
    takes (m 2 0 1) 1 0x0018 = true ∧ zero.mapChecks 0 64 1 [0] ≠ none ∧
    (let d := up.setXlt (fun x => { x with drains := [{ pair := 1, at_ := 0, old := [(0, .hbm 0 0 true)] }] })
     let q : ReadReq := { who := .hub, sector := 0, cls := 0, at_ := 0, spec := false, aged := false, held := false }
     let e : Drain := { pair := 1, at_ := 0, old := [(0, .hbm 0 0 true)] }
     d.firmwareActs = true ∧ d.xlt.drains.any (fun d => d.pair = 1) = true ∧ d.xlt.drains.any (fun d => d.pair = 2) = false ∧
     (∀ x ∈ d.xlt.drains, d.drained x = true) ∧ (d.setChan 0 (fun c => { c with rq := [q] })).drained e = false ∧
     ((d.setChan 0 (fun c => { c with rq := [q] })).chan 0).rq = [q] ∧ q.sector / 64 = 0 ∧ q.at_ ≤ e.at_) := by decide +kernel

theorem witness_HostMemoryAccess :
    let small := up.setFunc 1 (fun f => { f with bar2 := 20 })
    up.on = true ∧ up.bar2Open 0 0 4096 = true ∧ up.bar2Page 0 0 true = true ∧ up.bar2Page 1 0 true = false ∧ Mem.wf hbmDefault up.hbm = true ∧
    up.bar2Frame 0 0 64 ≠ none ∧ outcomeData .persistent false = false ∧ small.fw.hostRun = false ∧ 2 ^ (small.func 1).bar2 < 0x100000 + 4 ∧
    small.bar2Open 1 0x100000 4 = false ∧
    ({ up with fw := { up.fw with linkUp := false } } : State).bar2Open 1 0 4 = false := by decide +kernel

/-- A request for sector 0 of page 0. -/
def req0 (write : Bool) : MemReq := { who := .hub, addr := 0, cls := 0, write := write, mask := 2 ^ 64 - 1, data := List.replicate 64 7, spec := false }

theorem witness_MemoryController :
    let q : WriteReq := { sector := 0, cls := 0, at_ := 0, mask := 2 ^ 64 - 1, data := List.replicate 64 7, aged := false }
    let r : ReadReq := { who := .hub, sector := 0, cls := 0, at_ := 0, spec := false, aged := false, held := false }
    let written := up.setChan 0 (fun c => { c with wq := [q] })
    let fullW := up.setChan 0 (fun c => { c with wq := List.replicate 64 { q with sector := 9 } })
    let fullR := up.setChan 0 (fun c => { c with rq := List.replicate 128 r })
    let one := up.setChan 0 (fun c => { c with rq := [r] })
    let draining := up.setChan 0 (fun c => { c with wq := List.replicate 64 q, draining := true })
    let part := fun (h : Bool) => up.setChan 0 (fun c => { c with wq := [{ q with mask := 1 }], rq := [{ r with held := h }] })
    let h : HeldReq := { write := false, who := .hub, sector := 9, cls := 0, mask := 0, data := [], spec := false }
    let holding := up.setChan 0 (fun c => { c with rq := [r], waiting := [h] })
    let warm := up.setXlt (fun x => { x with cache := [(0, 255)] })
    (one.chan 0).waiting = [] ∧ (holding.chan 0).waiting = [h] ∧ h.write = false ∧ queuedWrite (holding.chan 0) h.sector = none ∧
    (holding.chan 0).rq.length ≤ 128 ∧ (firstSched ((holding.promote 0).chan 0).candidates).map SchedCand.write = some false ∧
    warm.cached 0 = true ∧ up.cached 0 = false ∧ (∀ r ∈ [req0 true, req0 false], r.cls < 4 ∧ queuedWrite ((up.lookUp r).chan 0) 0 = none) ∧
    ((fullW.lookUp (req0 true)).chan 0).wq.length = 64 ∧ ((fullR.lookUp (req0 false)).chan 0).rq.length = 128 ∧
    ((up.lookUp (req0 false)).chan 0).rq.length < 128 ∧ (queuedWrite ((written.lookUp (req0 false)).chan 0) 0).map WriteReq.mask = some (2 ^ 64 - 1) ∧
    up.present (up.tableSector 0).1 = true ∧ queuedWrite (up.chan (up.tableSector 0).1) (up.tableSector 0).2 = none ∧
    (up.chan (up.tableSector 0).1).rq.length < 128 ∧
    up.xentry 0 = .hbm 0 0 true ∧ up.present 0 = true ∧ (up.chan 0).wq.length < 64 ∧ queuedWrite (up.chan 0) 0 = none ∧
    (queuedWrite (written.chan 0) 0).map WriteReq.mask = some (2 ^ 64 - 1) ∧ 64 ≤ (fullW.chan 0).wq.length ∧
    queuedWrite (fullW.chan 0) 0 = none ∧ 128 ≤ (fullR.chan 0).rq.length ∧ (up.chan 0).trained = true ∧ State.reset.present 0 = false ∧
    (firstSched ((one.promote 0).chan 0).candidates).map SchedCand.write = some false ∧
    (firstSched ((draining.promote 0).chan 0).candidates).map SchedCand.write = some true ∧
    (∀ h ∈ [true, false], (firstSched ((part h).chan 0).candidates).map SchedCand.write = some h) ∧
    (up.chan 0).nextRef ≤ 16 * up.now ∧ 16 * up.now < ((up.setChan 0 (fun c => { c with nextRef := 1 })).chan 0).nextRef ∧
    32 * 1 < up.n0 ∧ ({ up with fuses := { up.fuses with grade := 3 } } : State).n0 ≤ 32 * 1 := by decide +kernel

/-! ## Witnesses: cameras and codecs -/

/-- `up` with the 32 mapped pages in one window of function 0. -/
def wide : State := up.setXlt (fun x => { x with windows := [(0, { first := 0, count := 32, owner := 0, mask := 1 })] })

/-- A parameter block that is in range, at page 0: clip levels 0 and 1, and gains of 256. -/
def blocked : State :=
  { wide with hbm := memWrite hbmDefault [] 0 (zeros 12 ++ toLE 4 0 ++ toLE 4 1 ++ toLE 2 256 ++ toLE 2 256) }

/-- Context setup: context 0 on a port, RAW10 of 64 × 64 at 1 Hz, pipeline 0, without rings; the block is at page 0. -/
def ctxBody (port : Nat) : List Byte :=
  toLE 1 0 ++ toLE 1 port ++ [0, 0x2b] ++ toLE 2 64 ++ toLE 2 64 ++ toLE 4 1000 ++ [0, 1, 0xff, 0] ++ [0xff, 0xff, 0xff, 0xff, 0xff, 0xff, 0xff, 0xff] ++
    toLE 8 0 ++ zeros 8

/-- The context of `ctxBody`. -/
def ctx0 : Ctx := ctxOf 0 (ctxBody 0) (blocked.devRead 0 4096)

/-- Context 0 exists, changed by f, on an open port 0. -/
def filmed (f : Ctx → Ctx) : State :=
  (blocked.setMedia (fun m => { m with ctxs := [(0, f ctx0)] })).setPort 0 (fun q => { q with enabled := true, locked := true })

theorem witness_CameraSetup_contexts :
    let ok := plain blocked 1 0x0020 (ctxBody 0)
    let shut := plain (blocked.setPort 0 (fun q => { q with retired := true })) 1 0x0020 (ctxBody 0)
    let twice := plain (filmed id) 1 0x0020 (ctxBody 0)
    let par := fun (a : Nat) => plain (filmed id) 1 0x0021 (zeros 8 ++ toLE 8 a)
    let stop := plain (filmed id) 1 0x0022 (zeros 4)
    takes ok 1 0x0020 = true ∧ ok.ctxStatus 0 (asked ok 1).body = 0 ∧ ok.freeSlots 0 = List.range 32 ∧
    takes shut 1 0x0020 = true ∧ (shut.port 0).retired = true ∧ 0 < shut.ctxCount ∧ shut.ctx? 0 = none ∧
    (ok.port 0).enabled = false ∧ 0 < ok.media.ports.length ∧ ((filmed id).port 0).enabled = true ∧ ok.freeSlots 0 ≠ [] ∧
    takes twice 1 0x0020 = true ∧ (twice.ctx? 0).isSome = true ∧
    takes (par 0) 1 0x0021 = true ∧ (par 0).fnReads 0 0 4096 = true ∧ takes (par 1) 1 0x0021 = true ∧ takes stop 1 0x0022 = true ∧ takes (plain blocked 1 0x0021 (zeros 16)) 1 0x0021 = true ∧
    (stop.ctx? 0).map Ctx.owner = some 0 ∧ takes (plain blocked 1 0x0022 (zeros 4)) 1 0x0022 = true := by decide +kernel

theorem witness_CameraSetup_parameter :
    let par := plain (filmed id) 1 0x0021 (zeros 16)
    (par.ctx? 0).map (fun c => (c.owner, c.taps)) = some (0, [none, none, none]) ∧ takes par 1 0x0021 = true ∧ par.fnReads 0 0 4096 = true ∧
    (par.ctx? 0).map (fun c => paramOk c.width c.height (par.devRead 0 4096)) = some true := by decide +kernel

/-- Lock group 0: pin 0, period 1 ms, pulse 100 ns. -/
def lockBody : List Byte := [0, 1, 0, 0] ++ toLE 8 0 ++ zeros 2 ++ zeros 2 ++ toLE 4 1000000 ++ toLE 4 100 ++ toLE 4 500000 ++ zeros 4

/-- The group of `lockBody`, whose first trigger is due at 0 ns. -/
def group0 : LockGroup :=
  { owner := 0, pins := 1, polarity := 0, epoch := 0, period := 1000000 * 65536, pulse := 100, window := 500000, next := 0, high := none }

/-- Group 0 with context 0 in it, its window open since 0 ns. -/
def locked : State :=
  let s := filmed (fun c => { c with group := some 0, window := some (0, 0, false) })
  s.setMedia (fun m => { m with groups := [(0, group0)] })

theorem witness_CameraSetup_groups :
    let ok := plain up 1 0x0023 lockBody
    let stop := fun (s : State) => plain s 1 0x0022 [0, 3, 0, 0]
    let alone := up.setMedia (fun m => { m with groups := [(0, group0)] })
    takes ok 1 0x0023 = true ∧ lockRange (asked ok 1).body = true ∧ ok.groupMembers 0 = [] ∧ ok.media.groups = [] ∧
    takes (plain up 1 0x0023 (zeros 32)) 1 0x0023 = true ∧ lockRange (zeros 32) = false ∧
    takes (stop alone) 1 0x0022 = true ∧ (stop alone).groupMembers 0 = [] ∧ takes (stop locked) 1 0x0022 = true ∧
    (stop locked).groupMembers 0 ≠ [] ∧ aGet locked.media.groups 0 = some group0 ∧
    (group0.epoch + group0.next * group0.period) / 65536 ≤ locked.now ∧
    ((locked.ctx? 0).map (fun c => (c.live, c.window)) = some (true, some (0, 0, false))) ∧
    0 + group0.window < (at_ locked 500001).now ∧ locked.now ≤ 0 + group0.window := by decide +kernel

/-- Group 0 at its trigger 1 of 1 ms, and a step of 5 ms that the next tick adds. -/
def stepped : State :=
  (locked.setMedia (fun m => { m with groups := [(0, { group0 with next := 1 })] })).setTs (fun t => { t with stepAdd := 5000000 })

theorem witness_TimeBaseRules_triggers :
    stepped.on = true ∧ stepped.ts.stepAdd ≠ 0 ∧ stepped.ts.stepping = false ∧ stepped.ts.frac < M32 ∧
    stepped.ts.count + stepped.ts.stepAdd + (stepped.ts.frac + stepped.ts.rate) / M32 < 2 ^ 64 ∧ 0 < group0.period ∧
    aGet stepped.media.groups 0 = some { group0 with next := 1 } ∧ (stepped.ctx? 0).map (fun c => (c.group, c.live)) = some (some 0, true) ∧
    stepped.ts.count + (stepped.ts.frac + stepped.ts.rate) / M32 < group0.t 1 / lockUnit := by decide +kernel

/-- The step of 5 ms passes triggers 1 to 5 (R351): the context counts five, and trigger 6 is next. -/
theorem test_step_passes_triggers :
    (match exec (.refclkEdge none) stepped with
      | .next t => ((t.ctx? 0).map Ctx.missed, (aGet t.media.groups 0).map LockGroup.next)
      | _ => (none, none)) = (some 5, some 6) := by decide +kernel

/-- A frame in progress without slots. -/
def frame0 : FrameRun := { number := 0, stamp := 0, slots := [none, none, none, none], lines := [], emb := [] }

/-- A slot that a tap has taken in an ingest ring 3 of 16 slots of 4 KiB at page 1. -/
def tapped : State := { wide with rings := [(3, ringOf 0 (toLE 2 3 ++ [4, 12, 4, 0] ++ toLE 2 0 ++ toLE 8 4096 ++ zeros 4))] }

theorem witness_CameraRun_frames :
    let s := filmed id
    let busy := filmed (fun c => { c with frame := some frame0 })
    s.portOpen 0 = true ∧ s.ctxsOn 0 0 (fun c => c.vc = 0) = [0] ∧ (s.ctx? 0).map (fun c => (c.frame, c.live)) = some (none, true) ∧
    s.frameId { ctx0 with params := ctx0.pend.getD ctx0.params, pend := none } = some (0, 0) ∧ rawTypes.contains 0x2b = true ∧
    s.ctxsOn 0 0 (fun c => c.live && decide (0 < c.vc + c.exps)) = [0] ∧ ctx0.dt ≠ 0x12 ∧ (frame0.ofExp 0).length < ctx0.height ∧
    (busy.ctx? 0).bind Ctx.frame = some frame0 ∧ 0 = ctx0.vc + ctx0.exps - 1 ∧ ctx0.port = 0 ∧ up.portOpen 0 = false ∧
    ((s.takeSlots 0 ctx0.frameRings).2.fail = none) ∧ [none, none, none, none] = frame0.slots ∧ s.media.ctxs.length = 1 ∧
    (tapped.ring? 3).map (fun r => (r.p, r.stopped)) = some (0, false) ∧ tapped.badPage 0 (4096 - 16) 16 = none ∧ tapped.pinned 3 0 = false ∧ tapped.badPage 0 4096 256 = none := by decide +kernel

theorem witness_CameraRun_faults :
    let lost := fun (l : List Nat) => (filmed id).setPort 0 (fun q => { q with losses := l })
    ((lost []).port 0).enabled = true ∧ ((lost []).port 0).retired = false ∧ ((lost []).port 0).losses.length < 2 ∧
    ((lost [0, 0]).port 0).losses = [0, 0] ∧ (lost [0, 0]).now ≤ 0 + 1000000000 ∧ 0 < (lost []).media.ports.length ∧
    (up.port 0).enabled = false ∧ ((filmed id).slotHolder 0 0).map Prod.fst = some 0 ∧ up.slotHolder 0 0 = none := by decide +kernel

/-- Decode setup: stream 0, codec 0, 64 × 64 at 1 Hz, bitstream ring 0, completion ring 1, the block at page 0, the store at page 1. -/
def streamBody : List Byte :=
  [0, 0] ++ toLE 2 64 ++ toLE 2 64 ++ toLE 4 1000 ++ toLE 2 0 ++ toLE 2 1 ++ [0xff, 0xff, 0xff, 0xff, 0xff, 0xff] ++ zeros 4 ++ toLE 8 0 ++
    toLE 8 4096 ++ toLE 4 110592

/-- Encode setup: session 0, codec 0, 64 × 64, job ring 0, completion ring 1, constant QP 20. -/
def sessionBody : List Byte :=
  [0, 0] ++ toLE 2 64 ++ toLE 2 64 ++ toLE 4 1000 ++ toLE 2 0 ++ toLE 2 1 ++ [0, 20] ++ toLE 4 64 ++ toLE 2 1 ++ zeros 2

/-- `wide` with a ring 0 that holds n entries whose first bytes are given, a completion ring 1 and an ingest ring 3 at page 4. -/
def codec (n : Nat) (entry : List Byte) : State :=
  let slot := toLE 4 0 ++ toLE 4 9 ++ zeros 18 ++ [1, 0x10] ++ zeros 4 ++ toLE 2 64 ++ toLE 2 64
  { wide with
    rings := [(0, { ring0 with p := n }), (1, { ring0 with kind := 1, slotLog := 5 }),
              (3, ringOf 0 (toLE 2 3 ++ [4, 12, 4, 0] ++ toLE 2 0 ++ toLE 8 16384 ++ zeros 4))],
    hbm := memWrite hbmDefault (memWrite hbmDefault [] 4096 entry) 16384 slot }

/-- Stream 0 and session 0 of those bodies. -/
def stream0 : Stream := streamOf 0 streamBody []

def session0 : Session := sessionOf 0 sessionBody

theorem witness_CodecUnits_messages :
    let dec := plain (codec 0 []) 1 0x0024 streamBody
    let enc := plain (codec 0 []) 1 0x0025 sessionBody
    let both := (codec 0 []).setMedia (fun m => { m with streams := [(0, stream0)], sessions := [(0, session0)] })
    takes dec 1 0x0024 = true ∧ dec.streamStatus 0 (asked dec 1).body = 0 ∧ takes enc 1 0x0025 = true ∧
    enc.sessionStatus 0 (asked enc 1).body = 0 ∧ takes (plain both 1 0x0024 streamBody) 1 0x0024 = true ∧
    both.streamStatus 0 streamBody = 0x30 ∧ both.sessionStatus 0 sessionBody = 0x30 ∧
    takes (plain both 1 0x0022 [0, 1, 0, 0]) 1 0x0022 = true ∧ takes (plain both 1 0x0022 [0, 2, 0, 0]) 1 0x0022 = true ∧
    both.stream? 0 = some stream0 ∧ both.session? 0 = some session0 ∧ stream0.owner = 0 ∧ up.stream? 0 = none ∧ up.session? 0 = none := by
  decide +kernel

theorem witness_CodecUnits_work :
    let good := toLE 8 0 ++ toLE 4 16
    let job := toLE 2 3 ++ toLE 2 0 ++ toLE 4 0 ++ toLE 4 9 ++ zeros 4 ++ toLE 8 0 ++ toLE 4 8192
    let fed := fun (e : List Byte) => (codec 1 e).setMedia (fun m => { m with streams := [(0, stream0)], sessions := [(0, session0)] })
    let far := toLE 8 0x100000 ++ toLE 4 16
    (fed good).firmwareActs = true ∧ stream0.st = 1 ∧ ((fed good).ring? 0).map (fun r => (r.held, r.stopped)) = some (1, false) ∧
    (fed good).codecWaits 1 = false ∧ ((fed good).ring? 0).map (fun r => (fed good).ringReads r 4096 256) = some true ∧
    bitEntryOk ((fed good).devRead 4096 256) = true ∧ (fed good).fnReads 0 0 16 = true ∧ bitEntryOk ((fed []).devRead 4096 256) = false ∧
    bitEntryOk ((fed far).devRead 4096 256) = true ∧ (fed far).fnReads 0 0x100000 16 = false ∧
    (fed good).badPage 0 stream0.store stream0.storeLen = none ∧ session0.st = 1 ∧
    (fed job).jobStatus session0 ((fed job).devRead 4096 256) = 0 ∧ (fed []).jobStatus session0 ((fed []).devRead 4096 256) = 5 ∧
    (fed job).sourceFails session0 ((fed job).devRead 4096 256) = none ∧
    (let gone : State := { fed job with rings := lMod (fed job).rings 2 (fun e => (e.1, { e.2 with base := 0x100000 })) }
     gone.sourceFails session0 ((fed job).devRead 4096 256) = some 0x100) ∧
    (let busy := (fed job).setMedia (fun m => { m with
      streams := [(0, { stream0 with st := 2, job := some (0, 0) })], sessions := [(0, { session0 with st := 2, job := some (0, 0, { ring := 3, index := 0 }) })] })
     (busy.stream? 0).map (fun x => (x.st, x.job)) = some (2, some (0, 0)) ∧ busy.firmwareActs = true ∧
     (busy.session? 0).map (fun x => (x.st, x.job)) = some (2, some (0, 0, { ring := 3, index := 0 }))) ∧
    session0.outputOk [0, 0, 0, 1, 0x40] = true ∧ session0.outputOk [] = false ∧ (fed job).badPage 0 0 5 = none ∧
    (fed job).badPage 0 0x100000 5 = some 0x100 := by decide +kernel

/-! ## Witnesses: host interface, Ethernet, link -/

/-- Mode 1 (USB) or 2 (self-hosted). -/
def mode (n : Nat) : State := up.setFw (fun f => { f with attach := n })

theorem witness_HostResets :
    let t := up.setXlt (fun x => { x with table := [(5, .host 7 0 true)] })
    let boot := plain up 1 0x0030 (toLE 8 0 ++ toLE 8 4096)
    up.fwOn = true ∧ up.fw.attach = 0 ∧ 16 < up.funcs.length ∧ (mode 1).fw.attach ≠ 0 ∧ up.fw.linkUp = true ∧ (up.func 0).d3 = false ∧
    (∀ v < 17, (up.func v).held = []) ∧ ((up.setFunc 1 (fun x => { x with held := [2], d3 := true })).func 1).held = [2] ∧
    t.xentry 5 = .host 7 0 true ∧ (State.reset.fwOn = false) ∧ takes boot 1 0x0030 = true ∧ boot.fw.hostRun = false ∧ boot.inFn 0 0 1 = true ∧ boot.inFn 0 4096 1 = true ∧
    takes (plain up 1 0x0030 (toLE 8 0 ++ toLE 8 0x100000)) 1 0x0030 = true ∧ up.inFn 0 0x100000 1 = false := by decide +kernel

theorem witness_UsbTransactions :
    up.on = true ∧ usbLength 4 = true ∧ usbLength 1048576 = true ∧ usbLength 0 = false ∧ usbLength 6 = false ∧ usbLength 1048580 = false ∧
    up.inRescue = false ∧ (up.setFw (fun f => { f with run := none, bootPath := 3 })).inRescue = true ∧ ¬ (up.fw.attach = 1 ∨ 16 < 16) ∧
    fld (zeros 2 ++ [0x48, 0]) 2 2 = 0x0048 ∧ fld (zeros 4) 2 2 ≠ 0x0048 ∧
    up.fw.attach ≠ 1 ∧ (mode 1).fw.attach = 1 ∧ ((mode 1).pair 15).reqV = false ∧ 0 + 4 ≤ 0x1000000000 := by decide +kernel

/-- Packet-queue setup: queue 0, port 0, receiving, function 0, 16 descriptors at an address. -/
def pqBody (op port log base : Nat) : List Byte :=
  toLE 1 0 ++ toLE 1 op ++ toLE 1 port ++ [1, 0] ++ toLE 1 log ++ zeros 2 ++ toLE 8 base

/-- Every lane up in Ethernet mode, with queue 0. -/
def wired (f : PktQ → PktQ) : State :=
  (laned true 0 []).setFab (fun x => { x with lanes := x.lanes.map (fun l => { l with up := true }), queues := [(0, f queue0)] })

/-- A rule of port 0 that takes every frame to queue 0. -/
def rule0 : Steer := { flags := 128, queue := 0, mac := 0, vlan := 0, ether := 0, udp := 0 }

/-- A frame of n bytes. -/
def ether (n : Nat) : List Byte := zeros n

theorem witness_EthernetTraffic_queues :
    let m := fun (b : List Byte) => plain (laned true 0 []) 1 0x0034 b
    let busy := plain (wired (fun q => { q with p := 1 })) 1 0x0034 (pqBody 0 0 4 4096)
    let del := fun (f : PktQ → PktQ) => plain (wired f) 1 0x0034 (pqBody 1 0 4 4096)
    let bad := fun (b : List Byte) => plain (wired id) 1 0x0034 b
    let rule := fun (port flags : Nat) => plain (wired id) 1 0x0035 (toLE 1 port ++ zeros 3 ++ toLE 1 flags ++ zeros 19)
    takes (m (pqBody 0 0 4 4096)) 1 0x0034 = true ∧ (m []).pqEmpty 0 = true ∧ portLanes (m []).fab.mode 0 ≠ none ∧
    (m []).inFn 0 (4096 - 16) (16 + 32 * 2 ^ 4) = true ∧ portLanes (m []).fab.mode 4 = none ∧
    (m []).inFn 0 (0x100000 - 16) (16 + 32 * 2 ^ 4) = false ∧ takes busy 1 0x0034 = true ∧ busy.pqEmpty 0 = false ∧
    takes (del id) 1 0x0034 = true ∧ pqRange (pqBody 1 0 4 4096) = true ∧ portLanes (wired id).fab.mode 0 ≠ none ∧
    (wired id).inFn 0 (4096 - 16) (16 + 32 * 2 ^ 4) = true ∧ takes (bad (pqBody 1 4 4 4096)) 1 0x0034 = true ∧ portLanes (wired id).fab.mode 4 = none ∧
    takes (bad (pqBody 1 0 4 8)) 1 0x0034 = true ∧ takes (bad (pqBody 1 0 0 4096)) 1 0x0034 = true ∧ pqRange (pqBody 1 0 0 4096) = false ∧
    pqRange (pqBody 0 0 4 4096) = true ∧ queue0.p = queue0.c ∧ takes (del (fun q => { q with p := 1 })) 1 0x0034 = true ∧
    takes (rule 0 128) 1 0x0035 = true ∧ (wired id).pq? 0 = some queue0 ∧ takes (rule 0 16) 1 0x0035 = true ∧ takes (rule 4 0) 1 0x0035 = true ∧
    ((m []).pq? 0 = none) ∧ (queue0.p + M32 - 0) % M32 ≤ 2 ^ queue0.log := by decide +kernel

theorem witness_EthernetTraffic_frames :
    let s := (wired id).setFab (fun f => { f with rules := [(255, rule0)] })
    let desc := toLE 8 8192 ++ toLE 4 60 ++ [1]
    let full : State := { wired (fun q => { q with p := 16 }) with hbm := memWrite hbmDefault [] 4096 desc }
    let sender : State := { wired (fun q => { q with rx := false, p := 1 }) with hbm := memWrite hbmDefault [] 4096 desc }
    s.portUp 0 = true ∧ (ethHead (ether 60)).inner ≠ 0x8808 ∧ (ether 60).length = 60 ∧ s.udpPeer (ether 60) = none ∧
    s.steer 0 (ether 60) = some 0 ∧ (wired id).steer 0 (ether 60) = none ∧ rule0.hits (ether 60) = true ∧
    (queue0.p + M32 - queue0.c) % M32 < 2 ^ queue0.log ∧ s.fnReads 0 4096 32 = true ∧ s.fnWrites 0 4096 32 = true ∧
    s.fnWrites 0 0 0 = true ∧ 2 ^ queue0.log ≤ (16 + M32 - 0) % M32 ∧ (full.pq? 0).map PktQ.p = some 16 ∧
    (ethHead (zeros 12 ++ [0x88, 0x08] ++ zeros 46)).inner = 0x8808 ∧ up.portUp 0 = false ∧ (sender.pq? 0).map PktQ.rx = some false ∧
    fld (sender.devRead 4096 32) 8 4 = 60 ∧ sender.fnReads 0 8192 60 = true ∧ bit (byteAt (sender.devRead 4096 32) 12) 0 = true ∧
    bit (byteAt (sender.devRead 4096 32) 12) 1 = false ∧ up.pq? 0 = none := by decide +kernel

/-- Peer setup: peer 0, chip 9 on path 3 (UDP), its buffer of 1 MiB at an address. -/
def peerBody (path chip : Nat) : List Byte :=
  toLE 1 0 ++ toLE 1 path ++ [0, 1] ++ toLE 4 chip ++ zeros 32 ++ zeros 6 ++ zeros 2 ++ toLE 2 0 ++ [0, 0] ++ toLE 8 0 ++ toLE 4 1048576 ++
    toLE 4 10 ++ toLE 4 100

/-- Lanes of pair A in a direct group. -/
def linked : State := up.setFab (fun f => { f with mode := 15, chip := 3 })

/-- Peer 0 on path 0, changed by f. -/
def peered (f : Peer → Peer) : State := linked.setFab (fun x => { x with peers := [(0, f (peerOfBody (peerBody 0 9) 0))] })

/-- A frame of chip 9 to chip 3 with its check. -/
def linkFrame (type sn ack : Nat) (payload : List Byte) : List Byte :=
  let h := toLE 1 type ++ [0] ++ toLE 2 payload.length ++ toLE 4 9 ++ toLE 4 3 ++ toLE 4 sn ++ toLE 4 ack ++ zeros 12
  putAt (h ++ payload) 28 (toLE 4 (crc32c (h ++ payload)))

theorem witness_AbapexLink_peers :
    let m := fun (s : State) (b : List Byte) => plain s 1 0x0032 b
    takes (plain up 1 0x0031 (toLE 4 3)) 1 0x0031 = true ∧ up.fab.peers = [] ∧ (∀ k < 32, (up.suite k).st = 0) ∧
    takes (plain running 1 0x0031 (toLE 4 3)) 1 0x0031 = true ∧ (running.suite 0).st ≠ 0 ∧
    takes (m linked (peerBody 0 9)) 1 0x0032 = true ∧ linked.pathOk 0 0 = true ∧ linked.peerRange (peerBody 0 9) = true ∧
    linked.peer? 0 = none ∧ linked.peerOf 9 = none ∧ linked.peerRange (peerBody 0 3) = false ∧ linked.pathOk 1 0 = true ∧ up.pathOk 0 0 = false ∧
    takes (m (wired id) (peerBody 3 9)) 1 0x0032 = true ∧ (wired id).pathOk 3 0 = true ∧ (wired id).inFn 0 0 1048576 = false ∧
    ((peered id).peer? 0).isSome = true := by decide +kernel

theorem witness_AbapexLink_frames :
    let s := peered (fun p => { p with st := 2 })
    let p := (s.peer? 0).getD (peerOfBody [] 0)
    let good := fun (b : List Byte) => s.frameGood p b
    good (linkFrame 1 0 0 (zeros 8)) = true ∧ good (linkFrame 2 0 0 (zeros 8)) = true ∧ good (linkFrame 1 0xffffffff 0 []) = true ∧
    serialLt p.rxSeq 0xffffffff = false ∧ good (linkFrame 1 63 0 []) = true ∧ serialLt p.rxSeq 63 = true ∧ (63 + M32 - p.rxSeq) % M32 < 64 ∧
    good (linkFrame 3 0 1 []) = true ∧ good (linkFrame 4 0 1 []) = true ∧ good (zeros 32) = false ∧ p.sent = [] ∧ p.held = [] ∧ p.nakAt = none ∧
    (helloPairs ((linkFrame 5 0 0 (zeros 12 ++ [1, 0])).drop 32)).find? (fun v => v.1 = 1) = some (1, 0) ∧
    good (linkFrame 5 0 0 (zeros 12 ++ [2, 0])) = true ∧
    (helloPairs ((linkFrame 5 0 0 (zeros 12 ++ [2, 0])).drop 32)).find? (fun v => v.1 = 1) = none ∧
    (peerOfBody (peerBody 0 9) 0).st = 1 ∧ (peerOfBody (peerBody 0 9) 0).sent = [] ∧ p.path ≠ 3 ∧ (peerOfBody (peerBody 3 9) 0).path = 3 ∧
    (p.newEpoch 5).epoch = some 5 ∧ ((p.newEpoch 5).newEpoch 6).epoch = some 6 ∧ fld (linkFrame 3 0 1 []) 16 4 = 1 := by decide +kernel

theorem witness_AbapexLink_timers :
    let f : SentFrame := { sn := 0, bytes := [] }
    let s := at_ (peered (fun p => { p with st := 2, rxSince := 16, sent := [f], credOut := [(1, 2)] })) 10000
    let p := (s.peer? 0).getD (peerOfBody [] 0)
    let full : Peer := { p with sent := [{ sn := 0, bytes := zeros 40 }], path := 3, bufLen := 64 }
    p.buffered + 32 + 8 * min 64 p.credOut.length ≤ p.capacity ∧ full.capacity < full.buffered + 32 + 8 * min 64 full.credOut.length ∧
    p.st = 2 ∧ 16 ≤ p.rxSince ∧ p.sent = [f] ∧ p.sentAt + p.timeout * 1000 ≤ s.now ∧ s.now < p.ackedAt + p.loss * 1000000 ∧
    p.ackedAt + p.loss * 1000000 ≤ (at_ s 100000000).now ∧ p.credOut ≠ [] ∧ (peerOfBody (peerBody 0 9) 0).rxSince = 0 ∧
    (peerOfBody (peerBody 0 9) 0).sent = [] ∧ (peerOfBody (peerBody 0 9) 0).credOut = [] ∧ up.fab.peers = [] ∧ s.fab.peers = [(0, p)] := by
  decide +kernel

/-! ## Witnesses: firmware and trust

The images below were signed outside Lean, by a public implementation of ECDSA over brainpoolP384r1, with private key 12345. -/

/-- A main image of security version 1 with an empty body. -/
def mainImage : List Byte := toLE 272 0xd1b37d6f660b7094ee630a63bb95984670b862683226987c1de26a224233434044272c53db157f43fbb356ee6edf22a350fe7965428e695203041da83176f6aa25d07f4cdea0e0aa216415b337f0e439161780f1ffc0ec5756ea1be8e37ad0b00000000000000d87dfb11d11630b96c60d263b3893a63384caa837b4d1885d8fde83a66390dd34246be6d0f9eeef2f172e8277b6ed528bcd623fde9d01cae4c87226a39517fa127369875d8c31d8d4ad7df1c71cf7c74ad53641834e32810871f6480c8fe2787045bb99848f1d21ad5fb656fe7bfde4e27dae1f663bfc70c4c4307be1411b7fd216ae3b1b17e32d94c3896ac51a760b03800010001000000000000000402010000000100015746594d ++ zeros 240

/-- The same as a recovery image. -/
def rescueImage : List Byte := toLE 272 0xea6ba0d8d5176cd186c28abed1b1b776175586fa01080d4a6d0e10a9eaf4c45e1ecd95493aa530c777ee90ff24181043350fe7965428e695203041da83176f6aa25d07f4cdea0e0aa216415b337f0e439161780f1ffc0ec5756ea1be8e37ad0b00000000000000d87dfb11d11630b96c60d263b3893a63384caa837b4d1885d8fde83a66390dd34246be6d0f9eeef2f172e8277b6ed528bcd623fde9d01cae4c87226a39517fa127369875d8c31d8d4ad7df1c71cf7c74ad53641834e32810871f6480c8fe2787045bb99848f1d21ad5fb656fe7bfde4e27dae1f663bfc70c4c4307be1411b7fd216ae3b1b17e32d94c3896ac51a760b03800010001000000000000010402010000000100015746594d ++ zeros 240

/-- Fuses with the hash of that key in slots 0 and 1. -/
def keyed : Fuses :=
  let h : List Byte := toLE 48 0x9401937ae545869c651e72337ab7c93334814c213efe54281bff83fe90a908c6691339f561e3e1bbfb61f6bd2d37cef
  { Fuses.typical with keys := [h, h, [], []] }

/-- 64 bytes of b on their way to sector i. -/
def sector (b : List Byte) (i : Nat) : WriteReq :=
  { sector := i, cls := 0, at_ := 0, mask := 2 ^ 64 - 1, data := (b.drop (64 * i)).take 64, aged := false }

/-- Page 0 of a device with those fuses begins with up to 512 bytes. -/
def holding (b : List Byte) : State :=
  { up.setChan 0 (fun c => { c with wq := (List.range ((b.length + 63) / 64)).map (sector b) }) with fuses := keyed }

/-- A message that names n bytes at page 0. -/
def bufBody (n : Nat) : List Byte := toLE 8 0 ++ toLE 4 n ++ zeros 4

theorem main_accepted : (acceptImage keyed 0 mainImage).isSome = true := by decide +kernel

theorem rescue_accepted : (acceptImage keyed 1 rescueImage).isSome = true := by decide +kernel

theorem witness_FirmwareServices_reports :
    let id_ := fun (a : Nat) => plain up 1 0x0040 (toLE 8 a)
    let att := fun (n : Nat) => plain up 1 0x0041 (toLE 1 n ++ zeros 7 ++ toLE 8 0 ++ zeros 64)
    takes (id_ 0) 1 0x0040 = true ∧ up.inFn 0 0 (max 16384 up.certChain.length) = true ∧
    up.writable 0 up.certChain.length = true ∧ up.writable 0 8192 = true ∧ (up.attestBody 0 64 (zeros 64)).length + 96 ≤ 8192 ∧ takes (id_ 0x100000) 1 0x0040 = true ∧ up.inFn 0 0x100000 16384 = false ∧
    takes (att 1) 1 0x0041 = true ∧ takes (att 64) 1 0x0041 = true ∧ up.inFn 0 0 8192 = true ∧ takes (att 65) 1 0x0041 = true ∧
    takes (plain up 1 0x0042 []) 1 0x0042 = true := by decide +kernel

theorem witness_FirmwareServices_images :
    let m := fun (type n : Nat) (b : List Byte) => plain (holding b) 1 type (bufBody n)
    let busy := plain ((holding []).setFw (fun f => { f with update := 3 })) 1 0x0043 (bufBody 512)
    takes busy 1 0x0043 = true ∧ busy.updating = true ∧ takes (m 0x0043 511 []) 1 0x0043 = true ∧
    (m 0x0043 511 []).messageImage (asked (m 0x0043 511 []) 1) 512 0x1000000 = none ∧ takes (m 0x0043 512 mainImage) 1 0x0043 = true ∧
    (m 0x0043 512 mainImage).updating = false ∧
    (m 0x0043 512 mainImage).messageImage (asked (m 0x0043 512 mainImage) 1) 512 0x1000000 = some mainImage ∧
    (m 0x0043 512 mainImage).fw.run = some image ∧ Mem.wf flashDefault (m 0x0043 512 []).flash = true ∧
    acceptImage keyed 0 (zeros 512) = none ∧ (m 0x0043 512 []).messageImage (asked (m 0x0043 512 []) 1) 512 0x1000000 = some (zeros 512) ∧
    takes (plain ((holding []).setFw (fun f => { f with update := 3 })) 1 0x0047 (bufBody 512)) 1 0x0047 = true ∧
    takes (m 0x0047 512 rescueImage) 1 0x0047 = true ∧
    (m 0x0047 512 rescueImage).messageImage (asked (m 0x0047 512 rescueImage) 1) 512 0x800000 = some rescueImage ∧
    acceptImage keyed 1 (zeros 512) = none ∧ takes (m 0x0033 0 []) 1 0x0033 = true ∧
    (m 0x0033 0 []).messageImage (asked (m 0x0033 0 []) 1) 1 0x1000000 = none ∧ takes (m 0x0033 1 []) 1 0x0033 = true ∧
    (m 0x0033 1 []).messageImage (asked (m 0x0033 1 []) 1) 1 0x1000000 = some [0] := by decide +kernel

theorem witness_FirmwareServices_handoff :
    (acceptImage keyed 0 mainImage).map (fun i => (readsHandoff i image, readsHandoff i { image with hoW := 0x0101 })) = some (true, false) := by
  decide +kernel

theorem witness_FirmwareServices_fuses :
    let m := fun (type : Nat) (b : List Byte) => plain (holding []) 1 type b
    takes (m 0x0045 [1, 0, 0, 0]) 1 0x0045 = true ∧ (holding []).images = [(0, 1)] ∧ (List.range 4).filter (usableKey keyed) = [0, 1] ∧
    takes (m 0x0045 [4, 0, 0, 0]) 1 0x0045 = true ∧ takes (m 0x0046 [1, 0, 0, 0]) 1 0x0046 = true ∧ keyed.minSec < 1 ∧
    takes (m 0x0046 [0, 0, 0, 0]) 1 0x0046 = true ∧ takes (m 0x0046 [2, 0, 0, 0]) 1 0x0046 = true := by decide +kernel

/-- A staged image, an update state and a pause since 0 ns. -/
def staged (update : Nat) : State :=
  up.setFw (fun f => { f with staged := some image, update := update, pause := if update = 4 then some 0 else none, deferAt := 0 })

theorem witness_FirmwareUpdate_activation :
    let m := fun (s : State) => plain s 1 0x0044 []
    let hot := fun (s : State) => s.setPower (fun w => { w with thr0 := true })
    takes (m (staged 3)) 1 0x0044 = true ∧ (staged 3).updating = true ∧ takes (m up) 1 0x0044 = true ∧ up.fw.staged = none ∧
    takes (m (hot (staged 2))) 1 0x0044 = true ∧ (hot (staged 2)).emergency = true ∧ takes (m (staged 2)) 1 0x0044 = true ∧
    (staged 2).emergency = false ∧ (staged 2).updating = false ∧ (staged 3).fwOn = true ∧ (staged 3).fw.update = 3 ∧
    (hot (staged 3)).now < 0 + 10000000000 ∧ 0 + 10000000000 ≤ (at_ (hot (staged 3)) 10000000000).now ∧ up.fw.update ≠ 3 ∧
    (staged 4).fw.pause = some 0 ∧ (staged 4).health.heldFault = [] ∧ (staged 4).on = true := by decide +kernel

/-- The pause has begun, with a handoff block of a bare header in the frames of pseudo-channel 0. -/
def paused : State :=
  let s := staged 4
  let h : Handoff := { s.handoffOf 112 with copies := [0] }
  (s.hbmWrite (s.handoffAt 0) (h.header ++ sha384 h.header)).setFw (fun f => { f with handoff := some h })

theorem witness_FirmwareUpdate_handoff :
    paused.on = true ∧ paused.fw.update = 4 ∧ paused.fw.pause = some 0 ∧ paused.fw.staged = some image ∧ paused.health.heldFault = [] ∧
    paused.fw.run = some image ∧ paused.fw.handoff.isSome = true ∧ paused.handoffReads = true ∧
    (paused.setFw (fun f => { f with staged := some { image with hoR := 0x00ff } })).handoffReads = false := by decide +kernel

/-- The boot ROM waits for a rescue image in the frames of the rescue area; its message names n bytes. -/
def rescuing (n : Nat) (b : List Byte) : State :=
  let s := (holding b).setFw (fun f => { f with run := none, bootPath := 3 })
  { s.setPair 1 (fun x => { x with req := padTo 256 (mkMessage 1 0 0x0048 1 0xffffffff (toLE 4 n)), reqV := true }) with
    health := { Health.reset with powered := true } }

theorem witness_FirmwareUpdate_rescue :
    let s := rescuing 512 rescueImage
    let r := asked s 1
    let bad := s.setPair 1 (fun x => { x with req := x.req.set 12 0 })
    let long := s.setPair 1 (fun x => { x with req := padTo 256 (mkMessage 1 0 0x0048 1 0xffffffff (toLE 5 512)) })
    s.on = true ∧ s.fw.run = none ∧ s.fw.bootPath = 3 ∧ (s.pair 1).reqV = true ∧ (s.pair 1).due = none ∧ r.type = 0x0048 ∧
    r.crcOk = true ∧ r.len = 4 ∧ fld r.body 0 4 = 512 ∧
    (List.range 512).map (fun i => s.hbmGet (frameKey s.rescueChan 0 * 4096 + i)) = rescueImage ∧ (asked bad 1).crcOk = false ∧
    (asked bad 1).type = 0x0048 ∧ (asked long 1).len = 5 ∧ (asked long 1).crcOk = true ∧ fld (asked (rescuing 511 []) 1).body 0 4 = 511 ∧
    up.fw.run ≠ none := by decide +kernel

theorem witness_UsbTransactions_rescue :
    let s := rescuing 512 []
    s.on = true ∧ s.inRescue = true ∧ up.inRescue = false ∧ 0x20 + 4 ≤ 0x10000 ∧ 0x10000 < 0x20000 + 4 ∧ 0 + 4 ≤ 0x1000000 ∧
    0x1000000 < 0x1000000 + 4 ∧ fld [1, 0, 0x40, 0] 2 2 ≠ 0x0048 ∧ fld [1, 0, 0x48, 0] 2 2 = 0x0048 := by decide +kernel

/-! ## Witnesses: supply, heat, faults -/

theorem witness_SupplyAndHeat :
    let tripped := { (up.setPower (fun w => { w with trip := true, die0 := 120 })) with
      health := { up.health with reseatAt := some 0, phase := 5 } }
    let cur := up.setPower (fun w => { w with current := true, underFrom := some 0 })
    let thr := up.setPower (fun w => { w with thr0 := true })
    clusterFitted up.fuses.grade 7 = true ∧ (up.cluster 7).powered = true ∧ 7 < up.clusters.length ∧
    (up.cluster 0).target ≤ (up.cluster 0).point + 100 ∧ (up.cluster 0).point ≤ (up.cluster 0).target + 100 ∧ running.clusterUsed 0 = true ∧
    (running.cluster 0).floor ≤ (running.cluster 0).target + 20 ∧ (running.cluster 0).target + 20 ≤ (running.cluster 0).ceil ∧
    (running.cluster 0).target + 20 ≤ running.hwCeil 0 ∧ up.clusterUsed 0 = false ∧ (up.cluster 0).floor ≤ up.hwCeil 0 ∧
    (let r := running.setCluster 0 (fun c => { c with target := 610 })
     (r.cluster 0).floor ≤ (r.cluster 0).target - 10 ∧ (r.cluster 0).target - 10 ≤ r.hwCeil 0) ∧
    clusterFitted 3 7 = false ∧ up.power.current = false ∧ cur.power.current = true ∧ up.power.thr0 = false ∧ up.power.thr1 = false ∧
    thr.power.thr0 = true ∧ up.power.die0 < 115 ∧ tripped.power.trip = true ∧ tripped.reseating = true ∧ up.power.trip = false := by
  decide +kernel

theorem witness_FaultsAndReady :
    let pause := up.setFw (fun f => { f with update := 4 })
    let early : State := { up with health := { up.health with phase := 1 }, phys := List.replicate 40 Phys.reset }
    let dead := early.setHealth (fun h => h)
    let bare_ : State := { dead with chans := State.reset.chans }
    let none_ : State := { dead with phys := List.replicate 40 { Phys.reset with retired := true } }
    let rec_ := dead.setFw (fun f => { f with run := some { image with kind := 1 } })
    let seat := up.setHealth (fun h => { h with reseatAt := some 0, phase := 5 })
    up.ready = true ∧ up.health.hubFault = false ∧ up.fw.update ≠ 4 ∧ up.reseating = false ∧ up.suites.length = 32 ∧ pause.fw.update = 4 ∧
    up.usable 39 = true ∧ (up.cluster 7).absent = false ∧ State.reset.ready = false ∧
    early.fw.linkUp = true ∧ early.fw.attach = 0 ∧ ¬ ((early.setFw (fun f => { f with attach := 1 })).fw.attach = 0) ∧
    early.fwOn = true ∧ early.health.phase = 1 ∧ early.presentChans ≠ [] ∧ presentMask early.fillAll ≠ 0 ∧ early.recovery = false ∧
    bare_.presentChans = [] ∧ presentMask none_.fillAll = 0 ∧ rec_.recovery = true ∧ early.fw.attach ≠ 2 ∧
    seat.reseating = true ∧ seat.firmwareActs = true ∧ seat.power.trip = false := by decide +kernel

theorem witness_LogSignals :
    up.funcs.length = 17 ∧ up.irqOpen 0 = true ∧ ({ up with fw := { up.fw with linkUp := false } } : State).irqOpen 1 = false := by
  decide +kernel

/-! ## Witnesses: every command completes

What the five statements ask for and no witness above shows. -/

/-- Core 0's engine 0 stands at the first visit of a walk that has begun. -/
def walkBegun : State :=
  let s := walking false
  let i : Issued := { s.issuedAs 0 7 (.stWalk opWalk) with met := true }
  match s.walkPlanOf 0 i 0 opWalk.bases with
  | some p => (s.setSeq 0 (fun q => { q with flow := [.work i], nextNo := 1 })).setWalk 0 0 (some (startRun i 0 p))
  | none => s

theorem witness_SuiteCommandsComplete_walk :
    let s := walkBegun
    let g : GuardRec := .flag 0 (.core 0 5) 0 none []
    s.on = true ∧ s.runningSuite 0 = some 0 ∧ (s.suite 0).st = 4 ∧ (s.core 0).seq.hold = none ∧
    (s.core 0).seq.flow.map (fun f => match f with | .work i => (i.met, decide (i.instr = .stWalk opWalk)) | _ => (false, false)) = [(true, true)] ∧
    (match (s.core 0).walks.getD 0 none with
     | some r => !r.spec && decide (r.ready = []) && (match s.runPlan 0 r with
       | some p => r.mayFetch p && decide ((s.fetchVisits 0 0 p r p.pass).2.2 = .none) && decide (p.guardTarget [] g 0 = some 0)
       | none => false)
     | none => false) = true ∧
    guardFlag g = some (.core 0 5) ∧ flagMet (s.flagValue (.core 0 5)) 0 = true := by decide +kernel

theorem witness_SuiteCommandsComplete_rest :
    let step := (batching false 0).setSuite 0 (fun x => { x with assembled := true })
    let late := at_ (beaten false) 300000000
    let adopt := plain (beaten false) 17 0x0003 (adoptBody 65536 65536)
    let comp := ringed.due 1 0 0 0 0 0 0 .none
    (step.suite 0).assembled = true ∧ step.suiteIdle 0 = true ∧ step.resvFits 0 (step.suite 0).stepResv = true ∧
    (step.suite 0).lastStep < (step.suite 0).kernels ∧ (step.suite 0).started = false ∧ (step.suite 0).batching = true ∧
    (late.func 1).orphan = false ∧ (late.func 1).beat = some 0 ∧ late.firmwareActs = true ∧ takes adopt 17 0x0003 = true ∧
    (adopt.func 1).orphan = false ∧ adopt.inFn 1 65536 65536 = true ∧
    adopt.writable 65536 ((adopt.ringsOf 1).flatMap ringRecord ++ (adopt.suitesOf 1).flatMap adopt.suiteRecord).length = true ∧
    comp.comps.map Comp.after = [.none] ∧ comp.on = true := by decide +kernel

theorem witness_RegisterAndMemoryCommandsComplete :
    let warm := up.setXlt (fun x => { x with cache := [(0, 255)] })
    let inv := plain up 1 0x0018 (toLE 4 0 ++ toLE 4 1 ++ zeros 8 ++ [1] ++ zeros 7)
    warm.cached ((req0 false).addr / 4096) = true ∧ (req0 false).write = false ∧ warm.xentry 0 = .hbm 0 0 true ∧
    queuedWrite (warm.chan 0) 0 = none ∧ (warm.chan 0).rq.length < 128 ∧ takes inv 1 0x0018 = true ∧
    byteAt (asked inv 1).body 16 = 1 ∧ inv.mapChecks 0 0 1 [] = none ∧ up.ts.stepAdd = 0 ∧ up.ts.stepping = false ∧ up.ts.frac < M32 ∧
    600 ≤ bits (600 + 850 * 65536) 9 0 ∧ bits (600 + 850 * 65536) 25 16 ≤ 850 ∧ up.xlt.stackTemp.length = 2 ∧ up.xlt.stackFast.length = 2 := by
  decide +kernel

theorem witness_MediaCommandsComplete :
    ((filmed id).slotHolder 0 0).map (fun e => e.2.frame) = some none ∧ (filmed id).on = true := by decide +kernel

theorem witness_HostAndLinkCommandsComplete :
    let f : SentFrame := { sn := 0, bytes := [] }
    let s := peered (fun p => { p with st := 2, sent := [f] })
    let t := up.setPair 1 (fun x => { x with replyV := true })
    (t.pair 1).due = none ∧ (t.pair 1).replyV = true ∧ pairOwner 1 = 0 ∧
    (s.peer? 0).map (fun p => p.st) = some 2 ∧ serialLt f.sn (fld (linkFrame 3 0 1 []) 16 4) = true ∧
    (s.peer? 0).map (fun p => s.frameGood p (linkFrame 3 0 1 [])) = some true ∧ fld (peerBody 0 9) 4 4 = 9 ∧ byteAt (peerBody 0 9) 1 ≠ 3 := by
  decide +kernel

theorem witness_FirmwareAndPowerCommandsComplete :
    let n := (up.notice 1 0x4001 0 [])
    let s := plain up 1 0x7777 []
    (n.func 1).notices ≠ [] ∧ n.fwOn = true ∧ n.fw.update ≠ 4 ∧ (n.pair (noticePair 1)).replyV = false ∧
    (n.pair (noticePair 1)).due = none ∧ s.verdict (asked s 1) = .refuse 0xf2 [] ∧ (staged 2).fw.staged ≠ none ∧ up.usable 0 = true := by
  decide +kernel

/-! ## Ill-formed commands: one for each check -/

theorem ill_formed_core_0 :
    (∀ a b, (Instr.mxSeat 32 a b).wf = false) ∧ (∀ a b, (Instr.mxTile 32 a b).wf = false) ∧
    (∀ a b, (Instr.mxBench 32 a b).wf = false) ∧ (∀ a b, (Instr.drChain 32 a b).wf = false) ∧
    (∀ a b, (Instr.vxMap 32 a b).wf = false) ∧ (∀ a b, (Instr.vxDw 32 a b).wf = false) ∧
    (∀ a b, (Instr.vxPool 32 a b).wf = false) ∧ (∀ a b, (Instr.vxReduce 32 a b).wf = false) ∧
    (∀ a b, (Instr.vxBoxdec 32 a b).wf = false) ∧ (∀ a b, (Instr.vxNms 32 a b).wf = false) ∧
    (∀ a b, (Instr.vxSort 32 a b).wf = false) ∧ (∀ a b, (Instr.stWalk 32 a b).wf = false) ∧
    (∀ a b, (Instr.stStore 32 a b).wf = false) ∧ (∀ a b, (Instr.qWait 32 a b).wf = false) ∧
    (∀ a b, (Instr.qSignal 32 a b).wf = false) ∧ (∀ a b, (Instr.qBarrier 32 a b).wf = false) ∧
    (∀ a b, (Instr.ctlLoop 32 a b).wf = false) ∧ (∀ a b, (Instr.ctlGuard 32 a b).wf = false) ∧
    (∀ a, (Instr.ctlCommit 32 a).wf = false) ∧ (∀ a b, (Instr.ctlShape 32 a b).wf = false) ∧
    (∀ a b, (Instr.ctlHalt 32 a b).wf = false) ∧ (∀ a, (Instr.guardCommit 32 a).wf = false) ∧
    (∀ a, (Instr.guardSquash 32 a).wf = false) ∧ ((Instr.waitSatisfied 32).wf = false) ∧
    (∀ a, (Instr.flagSignalEffect 32 a).wf = false) ∧ (∀ a b c, (Instr.entryArrival 32 a b c).wf = false) ∧
    (∀ a b c, (Instr.entryArrival a b 32 c).wf = false) ∧ (∀ a b, (Instr.creditReturn 32 a b).wf = false) ∧
    (∀ a b, (Instr.creditReturn a b 32).wf = false) ∧ (∀ a, (Instr.walkGuardSatisfied 32 a).wf = false) := by simp [Instr.wf]

theorem ill_formed_core_1 :
    (∀ a b, (Instr.mcastLagExpiry a b 32).wf = false) ∧ (∀ a b, (Instr.fallbackFetch a b 32).wf = false) ∧
    ((Instr.cushionBeat 32).wf = false) ∧ ((Instr.rampDown 32).wf = false) ∧ ((Instr.rampUp 32).wf = false) ∧
    (∀ a, (Instr.checkTileCompare 32 a).wf = false) ∧ (∀ a b, (Instr.segmentFrame a 32 b).wf = false) ∧
    (∀ a, (Instr.missingSegmentReport a 32).wf = false) ∧ (∀ a, (Instr.bitmapReportTimeout a 32).wf = false) := by simp [Instr.wf]

theorem ill_formed_suite :
    ((Instr.stallWatchdogExpiry 32).wf = false) ∧ (∀ a b, (Instr.mcastLagExpiry 32 a b).wf = false) ∧
    (∀ a b, (Instr.fallbackFetch 32 a b).wf = false) ∧ ((Instr.kernelComplete 32).wf = false) ∧
    ((Instr.loadDigestDone 32).wf = false) ∧ (∀ a b, (Instr.segmentFrame 32 a b).wf = false) ∧
    (∀ a, (Instr.missingSegmentReport 32 a).wf = false) ∧ (∀ a, (Instr.bitmapReportTimeout 32 a).wf = false) ∧
    ((Instr.dispatchEntry 32).wf = false) ∧ ((Instr.stepAssembly 32).wf = false) := by simp [Instr.wf]

theorem ill_formed_engine :
    (∀ a, (Instr.walkGuardSatisfied a 4).wf = false) := by simp [Instr.wf]

theorem ill_formed_pair_0 :
    (∀ a, (Instr.load 64 a).wf = false) ∧ ((Instr.suiteCreate 64).wf = false) ∧ ((Instr.suiteRelease 64).wf = false) ∧
    ((Instr.ringSetup 64).wf = false) ∧ ((Instr.heartbeat 64).wf = false) ∧ ((Instr.adopt 64).wf = false) ∧
    ((Instr.allocation 64).wf = false) ∧ (∀ a, (Instr.mbxReplyAck a 64).wf = false) ∧ ((Instr.map 64).wf = false) ∧
    ((Instr.translationDrainComplete 64).wf = false) ∧ ((Instr.windowCreate 64).wf = false) ∧
    ((Instr.windowDelete 64).wf = false) ∧ ((Instr.windowSetSuiteMask 64).wf = false) ∧
    (∀ a, (Instr.contextSetup 64 a).wf = false) ∧ ((Instr.contextParameter 64).wf = false) ∧
    ((Instr.stopContext 64).wf = false) ∧ ((Instr.stopStream 64).wf = false) ∧ ((Instr.stopSession 64).wf = false) ∧
    ((Instr.stopLockGroup 64).wf = false) ∧ ((Instr.lockGroupSetup 64).wf = false) ∧ ((Instr.decodeSetup 64).wf = false) ∧
    ((Instr.encodeSetup 64).wf = false) ∧
    ((Instr.hostStart 64).wf = false) ∧ ((Instr.packetQueueSetup 64).wf = false) ∧
    ((Instr.packetQueueDelete 64).wf = false) ∧ ((Instr.steeringRule 64).wf = false) ∧ ((Instr.chip 64).wf = false) ∧
    ((Instr.peerSetup 64).wf = false) ∧ ((Instr.versionNegotiation 64).wf = false) := by simp [Instr.wf]

theorem ill_formed_pair_1 :
    ((Instr.identity 64).wf = false) ∧ ((Instr.attestation 64).wf = false) ∧ ((Instr.firmwareStatus 64).wf = false) ∧
    (∀ k, (Instr.stage 64 k).wf = false) ∧ ((Instr.activate 64).wf = false) ∧ ((Instr.revokeKeySlot 64).wf = false) ∧
    ((Instr.advanceSecurityVersion 64).wf = false) ∧ (∀ k, (Instr.recoveryWrite 64 k).wf = false) ∧
    (∀ k, (Instr.hostImageWrite 64 k).wf = false) ∧ (∀ r, (Instr.rescue ⟨64, r⟩).wf = false) ∧ ((Instr.undefinedTypeRequest 64).wf = false) := by simp [Instr.wf]

theorem ill_formed_function :
    (∀ a b, (Instr.ringDoorbell 17 a b).wf = false) ∧ ((Instr.heartbeatTimeout 17).wf = false) ∧
    (∀ a, (Instr.latchingRead 17 a).wf = false) ∧ (∀ a, (Instr.readClear 17 a).wf = false) ∧
    (∀ a b, (Instr.registerWrite 17 a b).wf = false) ∧ (∀ a, (Instr.mbxReplyAck 17 a).wf = false) ∧
    (∀ a, (Instr.tsIncrWrite 17 a).wf = false) ∧ (∀ a, (Instr.tsStep 17 a).wf = false) ∧
    (∀ a, (Instr.laneModeWrite 17 a).wf = false) ∧ (∀ a b, (Instr.clBoundsWrite 17 a b).wf = false) ∧
    (∀ a, (Instr.ageLimitWrite 17 a).wf = false) ∧ (∀ a b, (Instr.pqDoorbell 17 a b).wf = false) ∧
    (∀ a b, (Instr.bar2Read 17 a b).wf = false) ∧ (∀ a b, (Instr.bar2Write 17 a b).wf = false) ∧
    (∀ a b, (Instr.completionTimeout 17 a b).wf = false) ∧ ((Instr.noticeDelivery 17).wf = false) ∧
    (∀ a, (Instr.powerStateChange 17 a).wf = false) := by simp [Instr.wf]

theorem ill_formed_ring :
    (∀ a b, (Instr.ringDoorbell a 65536 b).wf = false) ∧ ((Instr.completionEntryWrite 65536).wf = false) := by simp [Instr.wf]

theorem ill_formed_cluster :
    (∀ a b, (Instr.clBoundsWrite a 8 b).wf = false) ∧ (∀ a, (Instr.regulatorWindow 8 a).wf = false) ∧
    ((Instr.regulatorFault 8).wf = false) := by simp [Instr.wf]

theorem ill_formed_packet_queue :
    (∀ a b, (Instr.pqDoorbell a 256 b).wf = false) ∧ ((Instr.frameTransmit 256).wf = false) := by simp [Instr.wf]

theorem ill_formed_read_range :
    (∀ a b o, (Instr.bar2Read a b ⟨0x1000000001, o⟩).wf = false) := by simp [Instr.wf]

theorem ill_formed_channel :
    (∀ a, (Instr.memSchedule 64 a).wf = false) ∧ ((Instr.agePromotion 64).wf = false) ∧ ((Instr.refresh 64).wf = false) := by simp [Instr.wf]

theorem ill_formed_stack :
    (∀ a, (Instr.stackTempRead 2 a).wf = false) := by simp [Instr.wf]

theorem ill_formed_port :
    (∀ a b, (Instr.frameStart 4 a b).wf = false) ∧ (∀ a b c d e, (Instr.lineArrival 4 a b c d e).wf = false) ∧
    (∀ a b, (Instr.frameEnd 4 a b).wf = false) ∧ ((Instr.portLockLoss 4).wf = false) ∧
    (∀ a b, (Instr.frameReceive 4 a b).wf = false) := by simp [Instr.wf]

theorem ill_formed_virtual_channel :
    (∀ a b, (Instr.frameStart a 16 b).wf = false) ∧ (∀ a b c d e, (Instr.lineArrival a 16 b c d e).wf = false) ∧
    (∀ a b, (Instr.frameEnd a 16 b).wf = false) := by simp [Instr.wf]

theorem ill_formed_camera_context :
    ((Instr.lineTimeout 64).wf = false) ∧ ((Instr.triggerWindowExpiry 64).wf = false) := by simp [Instr.wf]

theorem ill_formed_lock_group :
    ((Instr.trigger 16).wf = false) := by simp [Instr.wf]

theorem ill_formed_stream :
    ((Instr.bitstreamEntry 64).wf = false) ∧ (∀ a b, (Instr.bitstreamEntryConsumed 64 a b).wf = false) := by simp [Instr.wf]

theorem ill_formed_session :
    ((Instr.encodeJob 16).wf = false) ∧ (∀ a, (Instr.encodeJobComplete 16 a).wf = false) := by simp [Instr.wf]

theorem ill_formed_pipe :
    (∀ a b, (Instr.contextSlotError 2 a b).wf = false) := by simp [Instr.wf]

theorem ill_formed_slot :
    (∀ a b, (Instr.contextSlotError a 32 b).wf = false) := by simp [Instr.wf]

theorem ill_formed_vf :
    ((Instr.flrVf 0).wf = false) ∧ ((Instr.flrVf 17).wf = false) ∧ ((Instr.vfEnableClear 17).wf = false) := by simp [Instr.wf]

theorem ill_formed_lane :
    (∀ c, (Instr.fecLockLoss ⟨4, c⟩).wf = false) ∧ (∀ a, (Instr.laneFarEndCheck 4 a).wf = false) := by simp [Instr.wf]

theorem ill_formed_peer :
    (∀ a, (Instr.dataFrame 256 a).wf = false) ∧ (∀ a, (Instr.creditFrame 256 a).wf = false) ∧
    ((Instr.creditFrameSend 256).wf = false) ∧ (∀ a, (Instr.acknowledge 256 a).wf = false) ∧
    (∀ a, (Instr.negativeAcknowledge 256 a).wf = false) ∧ (∀ a, (Instr.hello 256 a).wf = false) ∧
    ((Instr.ackTimer 256).wf = false) ∧ ((Instr.replayTimeout 256).wf = false) ∧ ((Instr.peerLossLimit 256).wf = false) := by simp [Instr.wf]

theorem ill_formed_busy :
    (∀ a, (Instr.regulatorWindow a 1001).wf = false) := by simp [Instr.wf]

theorem ill_formed_die :
    ((Instr.d2dReplayLimit 2).wf = false) := by simp [Instr.wf]

/-- A core field that names two cores: the sender of an entry, the sender of a credit, a segment's core. -/
theorem ill_formed_sender :
    (∀ a b d, (Instr.entryArrival a b 32 d).wf = false) ∧ (∀ a b, (Instr.creditReturn a b 32).wf = false) := by
  simp [Instr.wf]

theorem ill_formed_write_range :
    (Instr.bar2Write 0 0xfffffffff [1#8, 2#8]).wf = false ∧ (Instr.bar2Write 0 0xffffffffe [1#8, 2#8]).wf = true ∧
    (Instr.bar2Read 0 0x1000000000 ⟨1, .ok⟩).wf = false := by decide

theorem ill_formed_memory_request :
    (∀ r : MemReq, r.cls = 4 → (Instr.memRequest r).wf = false) ∧
    (∀ r : MemReq, r.addr = 0x1000000000 → (Instr.memRequest r).wf = false) := by
  constructor <;> intro r h <;> simp [Instr.wf, h]

theorem ill_formed_scrub :
    (∀ e, (Instr.scrub (.coreStore 40) e).wf = false) ∧ (∀ e, (Instr.scrub (.shelf 8) e).wf = false) ∧
    (∀ e, (Instr.scrub .hubCopy e).wf = true) := by simp [Instr.wf, ScrubTarget.ok]

/-- An ill-formed command names no unit of any part, so it is no event. -/
theorem test_ill_formed_is_no_event (s : State) :
    exec (.flrVf 0) s = .next s ∧ exec (.hello 256 []) s = .next s ∧ exec (.trigger 16) s = .next s := by
  refine ⟨?_, ?_, ?_⟩ <;> simp [exec, execFlrVf, execHello, execTrigger, onUnit, whenOn, State.sameInputs]

/-- The table gives no row bits, so no word spells a command. -/
theorem test_no_word_spells_a_command : decodeTableWord 32 0 = none ∧ decodeTableWord 64 0xffffffffffffffff = none := by decide

/-! ## Worked examples of the spec -/

/-- R50: FP32 to FP24, ties to even (02_number_formats). -/
theorem test_fp32_to_fp24 :
    ([0x3f800080, 0x3f800180, 0x3f800181].map (fun c => (rne24 false (decode fp32 c)).1)) = [0x3f8000, 0x3f8002, 0x3f8002] := by
  decide +kernel

/-- The MX4 block of 02_number_formats: 7.0, -1.25, 0.1875, 0.75 and zeros. -/
def mx4Block : List Machine.Num :=
  [.fin false 7 1, .fin true 5 4, .fin false 3 16, .fin false 3 4] ++ List.replicate 28 (.fin false 0 1)

/-- R46: the chosen scale is 0x80 and nothing saturates. -/
theorem test_mx4_chosen_scale :
    (let r := mxChosen 1 mx4 mx4Block; (r.scale, r.codes.take 5, r.sat)) = (0x80, [6, 9, 0, 1, 0], 0) := by decide +kernel

/-- R47: with the supplied scale 0x7f one element saturates. -/
theorem test_mx4_supplied_scale :
    (let r := mxSupplied 1 mx4 0x7f mx4Block; (r.codes.take 5, r.sat)) = ([7, 0xa, 0, 2, 0], 1) := by decide +kernel

/-- FP24 to FP16 in both subnormal modes (02_number_formats). -/
theorem test_fp24_to_fp16 :
    (encode fp16 false (v24 0x4788b8)).1 = 0x7bff ∧ (encode fp16 false (v24 0x358000)).1 = 0x0010 ∧
    encode fp16 true (v24 0x358000) = (0, { sat := 0, flush := 1 }) := by decide +kernel

/-- The blocks of the example of 03_matrix_array. -/
def exampleBlock : Block := { codes := [0x58, 0x18, 0x18, 0x18, 0x08] ++ List.replicate 27 0, scale := 0x7f }

/-- R58, R60: the tree and fused alignment differ by one unit. -/
theorem test_tree_and_fused :
    blockTree (products mx8 mx8 exampleBlock exampleBlock) = 0x438001 ∧
    blockFused (products mx8 mx8 exampleBlock exampleBlock) = 0x438002 := by decide +kernel

/-- R91: one outlier spreads over the group (04_drain_and_scaling). -/
theorem test_rotation_spreads_an_outlier :
    (rotateGroup false 0 (0x428000 :: List.replicate 31 0) (List.replicate 32 0x3f8000)).map Prod.fst =
      List.replicate 32 0x413505 := by decide +kernel

/-- R94: the row scale of 15.0 in MX8 (04_drain_and_scaling). -/
theorem test_row_scale : rowScale 4 0x417000 = 0x3d0925 := by decide +kernel

/-- R97: the row of the same example overruns: its largest value is 16.5. -/
theorem test_row_overruns : overruns 4 0x418400 0x3d0925 = true := by decide +kernel

/-- R121: a row-count flag wraps (05_queue_ends_and_flags). -/
theorem test_flag_wraps : flagMet 0xfffffff0 0x10 = false ∧ flagMet 0x10 0x10 = true := by decide

/-- R144: ceil(70 / 32) = 3 and ceil(300 / 32) = 10 (06_instruction_set). -/
theorem test_shape :
    shapeResult { sh := 1, src := .word 2, a := 1, d := 32, c := 0 } 70 = 3 ∧
    shapeResult { sh := 1, src := .word 2, a := 1, d := 32, c := 0 } 300 = 10 := by decide

/-- The parameter entry of the example of 08_vision_operators. -/
def exampleParams : BoxParams :=
  boxParams [80, 80, 1, 0x410000, 640, 640, 2, 1000, 0xa05f2000, 0x12, 0, 0, 0, 0, 0, 0, 0, 0]

/-- R206 to R210: the decoded position and its record (08_vision_operators). -/
theorem test_box_record :
    (let b := boxOf false 2 exampleParams 10 4 0 0 [0x402000, 0x3f8000, 0x405000, 0x400000]
     let sc := scoresOf false 0 0 [0x400000, 0]
     (candsOf exampleParams 0x3e8000 330 b.1 sc.1).map (candRecord exampleParams)) =
      [[0x00, 0x02, 0xe0, 0x00, 0x70, 0x03, 0xa0, 0x01, 0x7c, 0xe1, 0x3e, 0x00, 0, 0, 2, 0, 0x4a, 0x01, 0, 0, 0xe8, 0x03, 0, 0,
        0x00, 0x20, 0x5f, 0xa0, 0x12, 0, 0, 0]] := by decide +kernel

/-- A record of the suppression example. -/
def exampleDet (score x0 y0 x1 y1 pos : Nat) : List Nat :=
  (toLE 2 x0 ++ toLE 2 y0 ++ toLE 2 x1 ++ toLE 2 y1 ++ toLE 4 score ++ toLE 4 0 ++ toLE 4 pos ++ toLE 12 0).map BitVec.toNat

/-- The operands of that example. -/
def exampleNms (k : Nat) : Option (List Nat) :=
  let q : QName := { chip := none, core := 0, idx := 0 }
  let o : VxNmsOp := { unit := 0, e := 1, k := .imm k, iou := 0x3f0000, aware := false, inp := q, out := q, stats := none, cl := bare }
  let e := recordEntry 3 (exampleDet 0x3f2000 8 8 88 88 3 ++ exampleDet 0x3f6000 0 0 80 80 1 ++ exampleDet 0x3f4000 40 0 120 80 2)
  (nmsCalc o k [e]).map (fun m => m.outs.flatMap (fun x => (chunks 32 x.data).map (fun b => numAt b 16 4 + 1000 * numAt b 15 1)))

/-- R211 to R213: A, then B, with flag bit 0 set; C is over the limit, or suppressed by A (08_vision_operators). -/
theorem test_suppression : exampleNms 2 = some [1001, 1002] ∧ exampleNms 3 = some [1001, 1002] := by decide +kernel

/-- R271: the part key of a P-grade part at stepping B0 with library 0x0104 (11_reproducibility). -/
theorem test_part_key :
    ({ up with fuses := { up.fuses with grade := 0x01, stepping := 0xb0, library := 0x0104 } } : State).partKey = 0x010401b0 := by
  decide

/-- R283: the entry of 12_main_memory's example. -/
theorem test_entry_bits : (XEntry.hbm 4096 1 true).bits = 0x40001005 := by decide

/-- RFC 3720's check value of CRC-32C over the digits 1 to 9. -/
theorem test_crc32c : crc32c [0x31, 0x32, 0x33, 0x34, 0x35, 0x36, 0x37, 0x38, 0x39] = 0xe3069283 := by decide +kernel

/-- FIPS 180-4's example: the first and last bytes of SHA-384 of "abc". -/
theorem test_sha384 :
    ((sha384 [0x61, 0x62, 0x63]).take 4, (sha384 [0x61, 0x62, 0x63]).drop 44) =
      ([0xcb, 0x00, 0x75, 0x3f], [0x34, 0xc8, 0x25, 0xa7]) := by decide +kernel

end Sys2Proof.Tests
end

/-! SUPPORT. Proofs about the whole of the block: that every command answers, the registers of BAR0, and the commands of the
registers, the time base and the memory. -/

namespace Sys2Proof.Machine

/-! ## Every command answers -/

/-- The commands of the PWRGOOD ball are its rise and its fall. -/
theorem ofPower_elim (i : Instr) (h : ofPower i = true) : (∃ on r, i = .powerGood on r) ∨ i = .powerGoodFall := by
  cases i with
  | powerGood on r => exact .inl ⟨on, r, rfl⟩
  | powerGoodFall => exact .inr rfl
  | _ => cases h

theorem exec_next (i : Instr) (s : State) : ∃ t, exec i s = .next t := by
  cases h : ofPower i with
  | false =>
    obtain ⟨t, ht⟩ := exec_gated i s h
    exact ⟨_, ht⟩
  | true => obtain ⟨on, r, rfl⟩ | rfl := ofPower_elim i h <;> exact ⟨_, rfl⟩

theorem ofPower_of_ill_formed (i : Instr) (h : i.wf = false) : ofPower i = false := by
  rw [Bool.eq_false_iff]
  intro hp
  obtain ⟨on, r, rfl⟩ | rfl := ofPower_elim i hp <;> cases h

/-- A command on a unit that no part has leaves the state as it is. -/
theorem onUnit_false (s t : State) : onUnit false s t = .next s := by
  simp [onUnit, whenOn]

theorem exec_ill_formed (i : Instr) (s : State) (h : i.wf = false) : exec i s = .next s := by
  obtain ⟨t, ht⟩ := exec_gated i s (ofPower_of_ill_formed i h)
  rw [ht, h, onUnit_false]

/-- Settles O3: a command of PWRGOOD answers by its definition, and every other one is gated by its well-formedness. -/
theorem everyCommandAnswers : Obligations.EveryCommandAnswers :=
  fun i s => ⟨exec_next i s, exec_ill_formed i s⟩

/-! ## Effects that keep the inputs

The PWRGOOD ball and the queue stand in `health` and `pending`: an effect that leaves both is what the command answers. -/

@[simp] theorem State.sameInputs_setTs (s : State) (f : TimeBase → TimeBase) : s.sameInputs (s.setTs f) = s.setTs f := rfl
@[simp] theorem State.sameInputs_setFunc (s : State) (n : Nat) (f : Func → Func) :
    s.sameInputs (s.setFunc n f) = s.setFunc n f := rfl
@[simp] theorem State.sameInputs_setPair (s : State) (p : Nat) (f : Pair → Pair) :
    s.sameInputs (s.setPair p f) = s.setPair p f := rfl
@[simp] theorem State.sameInputs_setXlt (s : State) (f : Xlt → Xlt) : s.sameInputs (s.setXlt f) = s.setXlt f := rfl
@[simp] theorem State.sameInputs_setMedia (s : State) (f : Media → Media) : s.sameInputs (s.setMedia f) = s.setMedia f := rfl
@[simp] theorem State.sameInputs_setChan (s : State) (p : Nat) (f : Chan → Chan) :
    s.sameInputs (s.setChan p f) = s.setChan p f := rfl
@[simp] theorem State.sameInputs_setCluster (s : State) (x : Nat) (f : Cluster → Cluster) :
    s.sameInputs (s.setCluster x f) = s.setCluster x f := rfl
@[simp] theorem State.sameInputs_setOut (s : State) (f : Out → Out) : s.sameInputs (s.setOut f) = s.setOut f := rfl

/-- A command of a powered block that names no unit answers its effect. -/
theorem whenOn_next (s t : State) (h : s.on = true) : whenOn s t = .next (s.sameInputs t) := by
  simp [whenOn, h]

/-! ## Reads of BAR0 -/

/-- A latching read changes latches only. -/
theorem latchAt_frame (s : State) (f o : Nat) : ∃ l, s.latchAt f o = { s with latch := l } := by
  unfold State.latchAt
  split
  · dsimp only
    split <;> exact ⟨_, rfl⟩
  · exact ⟨s.latch, rfl⟩

/-- A clearing read changes the ports' and the lanes' counts only. -/
theorem clearAt_frame (s : State) (o : Nat) :
    ∃ p l, s.clearAt o = { s with media := { s.media with ports := p }, fab := { s.fab with lanes := l } } := by
  unfold State.clearAt
  split
  · exact ⟨s.media.ports, s.fab.lanes, rfl⟩
  · split
    · exact ⟨_, s.fab.lanes, rfl⟩
    · split
      · exact ⟨s.media.ports, _, rfl⟩
      · exact ⟨s.media.ports, s.fab.lanes, rfl⟩

theorem readReg_frame (s : State) (f o : Nat) :
    s.readReg f o = { s with
      latch := (s.readReg f o).latch,
      media := { s.media with ports := (s.readReg f o).media.ports },
      fab := { s.fab with lanes := (s.readReg f o).fab.lanes },
      out := { s.out with word := (s.readReg f o).out.word } } := by
  obtain ⟨l, hl⟩ := latchAt_frame s f o
  obtain ⟨p, n, hp⟩ := clearAt_frame (s.latchAt f o) o
  unfold State.readReg
  rw [hp, hl]
  rfl

@[simp] theorem readReg_word (s : State) (f o : Nat) : (s.readReg f o).out.word = BitVec.ofNat 32 (s.regValue f o) := rfl

@[simp] theorem readReg_latch (s : State) (f o : Nat) : (s.readReg f o).latch = (s.latchAt f o).latch := by
  obtain ⟨p, l, h⟩ := clearAt_frame (s.latchAt f o) o
  unfold State.readReg
  rw [h]
  rfl

theorem sameInputs_readReg (s : State) (f o : Nat) : s.sameInputs (s.readReg f o) = s.readReg f o := by
  rw [readReg_frame]
  rfl

/-- Only an aligned word below the end of BAR0 is a register. -/
theorem regValue_no_register (s : State) (f o : Nat) (h : o % 4 ≠ 0 ∨ 0x4000000 ≤ o) : s.regValue f o = 0 := by
  unfold State.regValue
  rw [if_pos (by simpa using h)]

theorem readReg_unaligned (s : State) (f o : Nat) (h : o % 4 ≠ 0) : s.readReg f o = s.setOut (fun x => { x with word := 0 }) := by
  have hv : s.regValue f o = 0 := regValue_no_register s f o (.inl h)
  have hl : s.latchAt f o = s := by simp [State.latchAt, State.wideReg, h]
  have hc : s.clearAt o = s := by simp [State.clearAt, h]
  simp [State.readReg, hv, hl, hc]

theorem latchAt_count (s : State) (f : Nat) :
    (s.latchAt f 0x10000).latch = aSet (aSet s.latch 0x10004 (s.ts.count / M32)) 0x10008 (s.ts.frac / 65536) := by
  simp [State.latchAt, State.wideReg]

theorem latchAt_energy (s : State) (f : Nat) :
    (s.latchAt f 0x1000008).latch = aSet s.latch 0x100000c (s.energyMj / M32) := by
  simp [State.latchAt, State.wideReg]

theorem regValue_count (s : State) (f : Nat) : s.regValue f 0x10000 = s.ts.count % M32 := by
  simp [State.regValue, State.tsReg]

theorem regValue_energy (s : State) (f : Nat) : s.regValue f 0x1000008 = s.energyMj % M32 := by
  simp [State.regValue, State.pwrReg]

theorem regValue_count_hi (s : State) (f : Nat) : s.regValue f 0x10004 = (aGet s.latch 0x10004).getD 0 := by
  simp [State.regValue, State.tsReg, State.latched]

theorem regValue_count_frac (s : State) (f : Nat) : s.regValue f 0x10008 = (aGet s.latch 0x10008).getD 0 := by
  simp [State.regValue, State.tsReg, State.latched]

theorem regValue_energy_hi (s : State) (f : Nat) : s.regValue f 0x100000c = (aGet s.latch 0x100000c).getD 0 := by
  simp [State.regValue, State.pwrReg, State.latched]

/-- A read of `ts.count_lo` latches both other parts of the count (R362). -/
theorem readReg_count_latches (s : State) (f : Nat) :
    (s.readReg f 0x10000).regValue f 0x10004 = s.ts.count / M32 ∧
      (s.readReg f 0x10000).regValue f 0x10008 = s.ts.frac / 65536 := by
  rw [regValue_count_hi, regValue_count_frac, readReg_latch, latchAt_count, aGet_aSet_same,
    aGet_aSet_other _ _ _ _ (by decide), aGet_aSet_same]
  exact ⟨rfl, rfl⟩

theorem readReg_energy_latches (s : State) (f : Nat) :
    (s.readReg f 0x1000008).regValue f 0x100000c = s.energyMj / M32 := by
  rw [regValue_energy_hi, readReg_latch, latchAt_energy, aGet_aSet_same]
  rfl

/-- A read of `isp.port_errors` of port p clears its two counts and no other port's (R332). -/
theorem readReg_port_errors (s : State) (f p : Nat) (hp : p < 4) :
    (s.readReg f (0x400010 + 4 * p)).media.ports = lMod s.media.ports p (fun x => { x with ecc := 0, crc := 0 }) := by
  obtain ⟨l, hl⟩ := latchAt_frame s f (0x400010 + 4 * p)
  have hr : 0x400010 ≤ 0x400010 + 4 * p ∧ 0x400010 + 4 * p ≤ 0x40001c := by omega
  simp [State.readReg, State.clearAt, hr, hl, State.setMedia, State.setOut]

/-- A read of `fab.lane_status` of lane n clears its uncorrectable codewords (R363). -/
theorem readReg_lane_status (s : State) (f n : Nat) (hn : n < 4) :
    (s.readReg f (0x600010 + 4 * n)).fab.lanes = lMod s.fab.lanes n (fun x => { x with uncorr := 0 }) := by
  obtain ⟨l, hl⟩ := latchAt_frame s f (0x600010 + 4 * n)
  have hp : ¬ (0x400010 ≤ 0x600010 + 4 * n ∧ 0x600010 + 4 * n ≤ 0x40001c) := by omega
  have hr : 0x600010 ≤ 0x600010 + 4 * n ∧ 0x600010 + 4 * n ≤ 0x60001c := by omega
  simp [State.readReg, State.clearAt, hp, hr, hl, State.setLane, State.setFab, State.setOut]

theorem exec_latchingRead (s : State) (f : Nat) (a : Access) (hon : s.on = true) (hf : f < 17) :
    exec (.latchingRead f a) s = .next (s.sameInputs (s.readAccess f a.off a.width)) :=
  on_next s _ hon _ (decide_eq_true hf)

/-- READ_CLEAR and LATCHING_READ are the same read of BAR0. -/
theorem exec_readClear (s : State) (f : Nat) (a : Access) : exec (.readClear f a) s = exec (.latchingRead f a) s := rfl

theorem exec_latchingRead_word (s : State) (f o : Nat) (hon : s.on = true) (hf : f < 17) :
    exec (.latchingRead f ⟨o, 4⟩) s = .next (s.readReg f o) := by
  rw [exec_latchingRead s f _ hon hf, ← sameInputs_readReg]
  rfl

theorem exec_latchingRead_other_width (s : State) (f o w : Nat) (hon : s.on = true) (hf : f < 17) (hw : w ≠ 4) :
    exec (.latchingRead f ⟨o, w⟩) s = .next (s.setOut (fun x => { x with word := 0 })) := by
  simp [exec_latchingRead s f _ hon hf, State.readAccess, hw]

/-- Every read of BAR0 is `readReg`, or a 0 where the width is another. -/
theorem registerRead : Claims.RegisterRead := by
  refine ⟨fun s f o hon hf => ⟨s.readReg f o, exec_latchingRead_word s f o hon hf, ?_, readReg_word s f o, readReg_frame s f o,
    regValue_no_register s f o, readReg_unaligned s f o, ?_, ?_, ?_, ?_⟩, fun s f o w hon hf hw => ?_⟩
  · rw [exec_readClear, exec_latchingRead_word s f o hon hf]
  · rintro rfl
    exact ⟨regValue_count s f, readReg_count_latches s f⟩
  · rintro rfl
    exact ⟨regValue_energy s f, readReg_energy_latches s f⟩
  · rintro p hp hlen rfl
    rw [readReg_port_errors s f p hp, getD_lMod_same _ _ _ _ hlen]
    exact ⟨rfl, rfl⟩
  · rintro n hn hlen rfl
    rw [State.lane, readReg_lane_status s f n hn, getD_lMod_same _ _ _ _ hlen]
  · rw [exec_readClear, exec_latchingRead_other_width s f o w hon hf hw]
    exact ⟨rfl, rfl⟩

/-! ## Writes of BAR0 -/

theorem exec_registerWrite (s : State) (f : Nat) (a : Access) (v : Nat) :
    exec (.registerWrite f a v) s = onUnit (f < 17) s (s.writeAccess f a.off a.width v) := rfl

theorem exec_registerWrite_word (s : State) (f o v : Nat) (hf : f < 17) :
    exec (.registerWrite f ⟨o, 4⟩ v) s = whenOn s (s.writeReg f o v) := by
  simp [exec_registerWrite, onUnit, hf, State.writeAccess]

/-- A write that meets no register has no effect. -/
theorem writeReg_no_register (s : State) (f o v : Nat) (h : o % 4 ≠ 0 ∨ 0x4000000 ≤ o) : s.writeReg f o v = s := by
  unfold State.writeReg
  dsimp only
  rw [if_pos (by simpa using h)]

/-- An effect that changes nothing, or one that a block without power does not take, answers the state. -/
theorem whenOn_self (s : State) : whenOn s s = .next s := by
  simp [whenOn]

theorem writeReg_ts (s : State) (f o v : Nat) (ha : o % 4 = 0) (h : 0x10000 ≤ o ∧ o < 0x20000) :
    s.writeReg f o v = if f = 0 then s.writeTs (o - 0x10000) (v % M32) else s := by
  unfold State.writeReg
  dsimp only
  rw [if_neg (by simp; omega), if_neg (by omega), if_pos (by simpa using h)]

theorem writeReg_mbx (s : State) (f o v : Nat) (ha : o % 4 = 0) (h : 0x20000 ≤ o ∧ o < 0x30000) :
    s.writeReg f o v = s.writeMbx f (o - 0x20000) (v % M32) := by
  unfold State.writeReg
  dsimp only
  rw [if_neg (by simp; omega), if_neg (by omega), if_neg (by simp; omega), if_pos (by simpa using h)]

/-- The `pwr` block takes writes of `pwr.limits` and of the bounds of the clusters. -/
theorem writeReg_pwr (s : State) (f o v : Nat) (ha : o % 4 = 0) (h : 0x1000000 ≤ o ∧ o < 0x1100000) :
    s.writeReg f o v =
      if o = 0x1000004 then
        (if f = 0 then s.setPower (fun p => { p with seen := p.seen - (p.seen &&& bits (v % M32) 12 8) }) else s)
      else if 0x1000140 ≤ o && o < 0x1000160 then s.writeBounds f ((o - 0x1000140) / 4) (v % M32)
      else s := by
  have hne : ∀ n, n < 0x1000000 → o ≠ n := by omega
  have hlt : ∀ n, n ≤ 0x1000000 → ¬ o < n := by omega
  have hend : ¬ 0x4000000 ≤ o := by omega
  simp [State.writeReg, hne, hlt, hend, ha]

theorem writeReg_bounds (s : State) (f x v : Nat) (hx : x < 8) :
    s.writeReg f (0x1000140 + 4 * x) v = s.writeBounds f x (v % M32) := by
  have hi : (0x1000140 + 4 * x - 0x1000140) / 4 = x := by omega
  rw [writeReg_pwr s f _ v (by omega) (by omega), if_neg (by omega), if_pos (by simp; omega), hi]

theorem writeBounds_virtual (s : State) (f x v : Nat) (hf : f ≠ 0) : s.writeBounds f x v = s := by
  simp [State.writeBounds, hf]

/-- In the blocks that a virtual function may only read, its write has no effect (R337). -/
theorem writeReg_virtual_read_only (s : State) (f o v : Nat) (hf : f ≠ 0)
    (h : (0x10000 ≤ o ∧ o < 0x20000) ∨ o = 0x140000 ∨ o = 0x600000 ∨ o = 0x600100 ∨ (0x1000000 ≤ o ∧ o < 0x1100000)) :
    s.writeReg f o v = s := by
  obtain hts | rfl | rfl | rfl | hpwr := h
  · by_cases ha : o % 4 = 0
    · rw [writeReg_ts s f o v ha hts, if_neg hf]
    · exact writeReg_no_register s f o v (.inl ha)
  · simp [State.writeReg, hf]
  · simp [State.writeReg, hf]
  · simp [State.writeReg, hf]
  · by_cases ha : o % 4 = 0
    · rw [writeReg_pwr s f o v ha hpwr, if_neg hf, writeBounds_virtual s f _ _ hf, ite_self, ite_self]
    · exact writeReg_no_register s f o v (.inl ha)

theorem writeReg_ageLimit (s : State) (f v : Nat) :
    s.writeReg f 0x140000 v = if f = 0 then s.writeAge (v % M32) else s := by
  simp [State.writeReg]

theorem writeReg_laneMode (s : State) (f v : Nat) :
    s.writeReg f 0x600000 v = if f = 0 then s.writeLaneMode (v % M32) else s := by
  simp [State.writeReg]

/-- Registers that a command of its own describes: the write is that command. -/
theorem exec_registerWrite_command (s : State) (f v : Nat) (hf : f < 17) :
    exec (.registerWrite f ⟨0x10010, 4⟩ v) s = exec (.tsIncrWrite f (v % M32)) s ∧
    exec (.registerWrite f ⟨0x10014, 4⟩ v) s = exec (.tsStep f (v % M32)) s ∧
    exec (.registerWrite f ⟨0x140000, 4⟩ v) s = exec (.ageLimitWrite f v) s ∧
    exec (.registerWrite f ⟨0x600000, 4⟩ v) s = exec (.laneModeWrite f v) s := by
  simp only [exec_registerWrite_word s f _ v hf, writeReg_ageLimit, writeReg_laneMode]
  rw [writeReg_ts s f _ v (by decide) (by decide), writeReg_ts s f _ v (by decide) (by decide)]
  simp [exec, execTsIncrWrite, execTsStep, execAgeLimitWrite, execLaneModeWrite, State.writeTs, onUnit, hf]

theorem exec_registerWrite_bounds (s : State) (f x v : Nat) (hf : f < 17) (hx : x < 8) :
    exec (.registerWrite f ⟨0x1000140 + 4 * x, 4⟩ v) s = exec (.clBoundsWrite f x (v % M32)) s := by
  rw [exec_registerWrite_word s f _ v hf, writeReg_bounds s f x v hx]
  simp [exec, execClBoundsWrite, onUnit, hf, hx]

theorem writeReg_tdc_probe (s : State) (f v : Nat) :
    s.writeReg f 0x80 v = s.setFunc f (fun x => { x with tdcProbe := v % 32 }) := by
  simp [State.writeReg, M32, Nat.mod_mod_of_dvd]

theorem writeReg_page_probe (s : State) (f v : Nat) :
    s.writeReg f 0x200000 v = s.setXlt (fun x => { x with pageProbe := v % 0x1000000 }) := by
  simp [State.writeReg, M32, Nat.mod_mod_of_dvd]

theorem writeReg_ctx_probe (s : State) (f v : Nat) :
    s.writeReg f 0x400100 v = s.setMedia (fun m => { m with ctxProbe := v % 64 }) := by
  simp [State.writeReg, M32, Nat.mod_mod_of_dvd]

/-- A word of a request that the firmware may still be writing: of a pair of the function, it is written while no request stands there
(R377, R393). -/
theorem writeReg_request_word (s : State) (f p w v : Nat) (hp : p < 64) (hw : w < 64) (hv : v < M32) (ho : f = 0 ∨ pairOwner p = f) :
    s.writeReg f (0x20000 + 0x400 * p + 4 * w) v =
      if (s.pair p).reqV then s else s.setPair p (fun x => { x with req := putAt (padTo 256 x.req) (4 * w) (toLE 4 v) }) := by
  have hoff : 0x20000 + 0x400 * p + 4 * w - 0x20000 = 0x400 * p + 4 * w := by omega
  have hpair : (0x400 * p + 4 * w) / 0x400 = p := by omega
  have hword : (0x400 * p + 4 * w) % 0x400 = 4 * w := by omega
  rw [writeReg_mbx s f _ v (by omega) (by omega), hoff, Nat.mod_eq_of_lt hv]
  unfold State.writeMbx
  dsimp only
  rw [hpair, hword, if_neg (by simp; omega), if_pos (by omega)]

/-- Every write of BAR0 is `writeReg`, register by register. -/
theorem registerWrite : Claims.RegisterWrite := by
  refine ⟨fun s f o w v hf h => ?_, fun s f o v hf hf0 h => ?_, fun s f v hf => ?_, fun s f v hon hf => ?_,
    fun s f p w v hon hf hp hw hv ho => ⟨fun hr => ?_, fun hr => ?_⟩⟩
  · by_cases hw : w = 4
    · subst hw
      rw [exec_registerWrite_word s f o v hf, writeReg_no_register s f o v (by omega), whenOn_self]
    · simp [exec_registerWrite, onUnit, State.writeAccess, hw, whenOn_self]
  · rw [exec_registerWrite_word s f o v hf, writeReg_virtual_read_only s f o v hf0 h, whenOn_self]
  · obtain ⟨hincr, hstep, hage, hlane⟩ := exec_registerWrite_command s f v hf
    exact ⟨hincr, hstep, hage, hlane, fun x hx => exec_registerWrite_bounds s f x v hf hx⟩
  · simp only [exec_registerWrite_word s f _ v hf, writeReg_tdc_probe, writeReg_page_probe, writeReg_ctx_probe, whenOn_next s _ hon,
      State.sameInputs_setFunc, State.sameInputs_setXlt, State.sameInputs_setMedia, and_self]
  · rw [exec_registerWrite_word s f _ v hf, writeReg_request_word s f p w v hp hw hv ho, if_neg (by simp [hr]), whenOn_next s _ hon,
      State.sameInputs_setPair]
  · rw [exec_registerWrite_word s f _ v hf, writeReg_request_word s f p w v hp hw hv ho, if_pos hr, whenOn_self]

/-- Settles O36: the reads of BAR0 with what they latch and clear, and its writes with what they change. -/
theorem registerAccess : Obligations.RegisterAccess := ⟨registerRead, registerWrite⟩

/-! ## The time base (R349 to R352) -/

@[simp] theorem State.sameInputs_ts (s t : State) : (s.sameInputs t).ts = t.ts := rfl

theorem State.setTs_congr (s : State) (f g : TimeBase → TimeBase) (h : f s.ts = g s.ts) : s.setTs f = s.setTs g := by
  simp [State.setTs, h]

/-- An effect on the time base that a powered block takes is the answer. -/
theorem whenOn_setTs (s : State) (f g : TimeBase → TimeBase) (hon : s.on = true) (h : f s.ts = g s.ts) :
    whenOn s (s.setTs f) = .next (s.setTs g) := by
  rw [whenOn_next s _ hon, State.sameInputs_setTs, State.setTs_congr s f g h]

theorem exec_tsIncrWrite (s : State) (v : Nat) : exec (.tsIncrWrite 0 v) s = whenOn s (s.setTs (fun t => t.writeIncr v)) := by
  simp [exec, execTsIncrWrite, onUnit]

theorem exec_tsStep (s : State) (v : Nat) :
    exec (.tsStep 0 v) s = whenOn s (s.setTs (fun t => t.step (signed32 (v % M32)))) := by
  simp [exec, execTsStep, onUnit]

/-- A word below 2^31 is its own signed value. -/
theorem signed32_small (v : Nat) (h : v < 0x80000000) : signed32 (v % M32) = v := by
  have hm : v % M32 = v := Nat.mod_eq_of_lt (by simp only [M32]; omega)
  simp [signed32, hm, h]

/-- A positive step of at most 1 s waits for the next edge (R351). -/
theorem step_positive (t : TimeBase) (v : Nat) (h : t.stepping = false) (hv : v ≤ 1000000000) :
    t.step v = { t with stepAdd := t.stepAdd + v } := by
  unfold TimeBase.step
  rw [if_neg (by omega), if_neg (by simp [h]), if_pos (by omega), Int.toNat_natCast]

theorem step_ppsError (t : TimeBase) (x : Int) : (t.step x).ppsError = t.ppsError := by
  unfold TimeBase.step
  repeat' split
  all_goals rfl

theorem step_holdover (t : TimeBase) (x : Int) : (t.step x).holdover = t.holdover := by
  unfold TimeBase.step
  repeat' split
  all_goals rfl

/-- A pulse that the servo takes shows its distance from the second and ends holdover (R352). -/
theorem ppsEdge_servo (t : TimeBase) (h : t.servoOn = true) :
    t.ppsEdge.ppsError = secondError t.count ∧ t.ppsEdge.holdover = false := by
  unfold TimeBase.ppsEdge
  rw [if_neg (by simp [h])]
  dsimp only
  split
  · split
    · exact ⟨rfl, rfl⟩
    · rw [step_ppsError, step_holdover]
      exact ⟨rfl, rfl⟩
  · exact ⟨rfl, rfl⟩

/-- With no negative step under way a tick adds its whole increment. -/
theorem tick_whole (t : TimeBase) (h : t.stepping = false) : t.tick = (t.rate, 0) := by
  simp [TimeBase.tick, h]

/-- An edge with no step under way adds the increment and keeps the fraction (R349). -/
theorem edge_count (t : TimeBase) (h : t.stepAdd = 0) (hs : t.stepping = false) :
    (t.edge none).count = (t.count + (t.frac + t.rate) / M32) % 0x10000000000000000 := by
  simp only [TimeBase.edge, tick_whole, hs, h]
  rfl

theorem enterHoldover_late (t : TimeBase) (a : Nat) (hl : t.ppsLast = some a) (hs : t.servoOn = true)
    (ha : a + 1100000000 ≤ t.count) : t.enterHoldover = { t with holdover := true, locked := false, ppsGood := 0 } := by
  simp [TimeBase.enterHoldover, hl, hs, ha]

/-- PPS_OUT rises in the first 100 µs of a second and is high until they are over. -/
theorem ppsRise_pin (t : TimeBase) (ho : t.ppsOutOn = true) (hc : t.count % 1000000000 < 100000) : t.ppsRise.ppsPin = true := by
  simp [TimeBase.ppsRise, TimeBase.ppsPin, ho, hc]
  omega

theorem refEdge_ts (s : State) (synce : Option (Nat × Nat)) (h : s.ts.stepAdd = 0) :
    s.refEdge synce = s.setTs (fun x => x.edge synce) := by
  simp [State.refEdge, h]

/-! ## The lanes and the supply points -/

theorem exec_laneModeWrite (s : State) (v : Nat) : exec (.laneModeWrite 0 v) s = whenOn s (s.writeLaneMode (v % M32)) := by
  simp [exec, execLaneModeWrite, onUnit]

/-- A write of lane modes that changes no used pair is taken up (R344). -/
theorem writeLaneMode_mode (s : State) (v : Nat) (hv : v < 32)
    (hu : ∀ p, p < 2 → changesPair s.fab.mode v p = true → s.pairUsed p = false) : (s.writeLaneMode v).fab.mode = v := by
  have hm : v % 32 = v := Nat.mod_eq_of_lt hv
  have hfree : ¬ (List.range 2).any (fun p => changesPair s.fab.mode v p && s.pairUsed p) = true := by
    simp only [List.any_eq_true, List.mem_range, Bool.and_eq_true, not_exists, not_and]
    intro p hp hc
    simp [hu p hp hc]
  unfold State.writeLaneMode
  simp only [hm, if_neg hfree]
  refine List.foldlRecOn (motive := fun (u : State) => u.fab.mode = v) _ _ rfl (fun u hmode n _ => ?_)
  split
  · exact hmode
  · exact hmode

theorem exec_clBoundsWrite (s : State) (x v : Nat) (hx : x < 8) :
    exec (.clBoundsWrite 0 x v) s = whenOn s (s.writeBounds 0 x v) := by
  simp [exec, execClBoundsWrite, onUnit, hx]

/-- Bounds between 600 mV and 850 mV are stored as they are rounded down (R405). -/
theorem boundOf_inside (n : Nat) (hlo : 600 ≤ n) (hhi : n ≤ 850) : boundOf n = floor10 n := by
  simp only [boundOf, floor10]
  omega

theorem writeBounds_inside (s : State) (x v : Nat) (hlo : 600 ≤ bits v 9 0) (hle : bits v 9 0 ≤ bits v 25 16)
    (hhi : bits v 25 16 ≤ 850) :
    s.writeBounds 0 x v = s.setCluster x (fun c => { c with floor := floor10 (bits v 9 0), ceil := floor10 (bits v 25 16) }) := by
  have hord : floor10 (bits v 9 0) ≤ floor10 (bits v 25 16) := by
    simp only [floor10]
    omega
  simp only [State.writeBounds, boundOf_inside _ hlo (hle.trans hhi), boundOf_inside _ (hlo.trans hle) hhi]
  rw [if_pos (by simpa using hord)]

theorem exec_ageLimitWrite (s : State) (v : Nat) : exec (.ageLimitWrite 0 v) s = whenOn s (s.writeAge (v % M32)) := by
  simp [exec, execAgeLimitWrite, onUnit]

theorem writeAge_inside (s : State) (v : Nat) (h1 : 1 ≤ v) (h64 : v ≤ 64) :
    s.writeAge (v % M32) = s.setXlt (fun x => { x with ageLimit := v }) := by
  have hm : v % M32 % 128 = v := by
    rw [Nat.mod_mod_of_dvd v (by decide : 128 ∣ M32)]
    omega
  have h0 : v ≠ 0 := by omega
  simp [State.writeAge, hm, h0, h64]

/-! ## Accepted messages -/

/-- An accepted request that is answered at once. -/
theorem accepted_message_answer (s : State) (p ty : Nat) (act : Act) (r : Req) (t : State) (st : Nat) (b : List Byte)
    (h : s.accepts p ty r = true) (hact : act (s.accepted r) r = (t, some (st, b))) :
    message p ty act s = .next (s.sameInputs (t.answer r st b)) := by
  rw [accepted_message s p ty act r h, hact]

/-- An accepted request whose answer follows later. -/
theorem accepted_message_silent (s : State) (p ty : Nat) (act : Act) (r : Req) (t : State)
    (h : s.accepts p ty r = true) (hact : act (s.accepted r) r = (t, none)) :
    message p ty act s = .next (s.sameInputs t) := by
  rw [accepted_message s p ty act r h, hact]

/-! ## Windows (R286) -/

/-- A window command whose operation the accepted request names serves that request as any message command does. -/
theorem windowMessage_accepted (s : State) (p op : Nat) (r : Req) (h : s.accepts p 0x0015 r = true) (hop : byteAt r.body 0 = op) :
    onUnit (p < 64) s (windowMessage p op s) = message p 0x0015 actWindow s := by
  obtain ⟨-, hreq, hty, -⟩ := accepts_elim s p _ r h
  simp [message, windowMessage, State.serve, hreq, hty, hop]

theorem actWindow_create (s : State) (r : Req) (hn : fld r.body 2 2 ≤ 1023) (hop : byteAt r.body 0 = 0) (hf : r.fn = 0)
    (hnew : aGet s.xlt.windows (fld r.body 2 2) = none)
    (hfree : s.xlt.windows.any (fun w => overlapN w.2.first w.2.count (fld r.body 4 4) (fld r.body 8 4) != 0) = false)
    (hr : windowRange 0 r.body = true) :
    actWindow s r = (s.setXlt (fun x => { x with
      windows := aSet x.windows (fld r.body 2 2)
        { first := fld r.body 4 4, count := fld r.body 8 4, owner := byteAt r.body 12, mask := fld r.body 16 4 } }), some (0, [])) := by
  have hst : s.windowStatus 0 0 (fld r.body 2 2) r.body = 0 := by
    simp [State.windowStatus, hn, hnew, hfree, hr]
  simp [actWindow, hop, hf, hst]

theorem actWindow_delete (s : State) (r : Req) (w : Window) (hn : fld r.body 2 2 ≤ 1023) (hop : byteAt r.body 0 = 1) (hf : r.fn = 0)
    (hw : aGet s.xlt.windows (fld r.body 2 2) = some w) (hring : s.windowHasRing w = false) (hr : windowRange 1 r.body = true) :
    actWindow s r = (s.setXlt (fun x => { x with windows := aErase x.windows (fld r.body 2 2) }), some (0, [])) := by
  have hst : s.windowStatus 0 1 (fld r.body 2 2) r.body = 0 := by
    simp [State.windowStatus, hn, hw, hring, hr]
  simp [actWindow, hop, hf, hst]

/-- A change of a window's mask drops its pages from the cache and begins their drain (R286, R291). -/
theorem actWindow_mask (s : State) (r : Req) (w : Window) (hn : fld r.body 2 2 ≤ 1023) (hop : byteAt r.body 0 = 2)
    (hw : aGet s.xlt.windows (fld r.body 2 2) = some w) (ho : w.owner = r.fn) (hr : windowRange 2 r.body = true) :
    actWindow s r =
      (((s.setXlt (fun x => { x with windows := aMod x.windows (fld r.body 2 2) (fun w => { w with mask := fld r.body 16 4 }) })).uncache
        ((List.range w.count).map (· + w.first))).startDrain r.pair ((List.range w.count).map (· + w.first)) s, none) := by
  have hst : s.windowStatus r.fn 2 (fld r.body 2 2) r.body = 0 := by
    simp [State.windowStatus, hn, hw, ho, hr]
  simp [actWindow, hop, hst, hw]

/-! ## Changes of the translation table (R289 to R291) -/

theorem aErase_cons (a : Nat) (v : α) (t : AMap α) (k : Nat) :
    aErase ((a, v) :: t) k = if a = k then aErase t k else (a, v) :: aErase t k := by
  by_cases h : a = k <;> simp [aErase, h]

theorem aGet_aErase (m : AMap α) (k j : Nat) : aGet (aErase m k) j = if j = k then none else aGet m j := by
  induction m with
  | nil => simp [aErase, aGet]
  | cons e t ih =>
    obtain ⟨a, v⟩ := e
    rw [aErase_cons]
    by_cases hk : a = k
    · rw [if_pos hk, ih]
      split
      · rfl
      · rename_i hj
        rw [aGet, if_neg (fun h : a = j => hj (h.symm.trans hk))]
    · by_cases hj : a = j
      · simp [aGet, hj, hj ▸ hk]
      · simp [aGet, hk, hj, ih]

theorem xentry_setEntry_invalid (s : State) (v q : Nat) :
    (s.setEntry v (.invalid 0)).xentry q = if q = v then .invalid 0 else s.xentry q := by
  simp only [State.xentry, State.setEntry, State.setXlt_xlt, if_true, aGet_aErase]
  split <;> rfl

/-- Invalidating some pages leaves the entry of every other page. -/
theorem xentry_invalidate (pages : List Nat) (s : State) (q : Nat) :
    (pages.foldl (fun t p => t.setEntry p (.invalid 0)) s).xentry q = if q ∈ pages then .invalid 0 else s.xentry q := by
  induction pages generalizing s with
  | nil => simp
  | cons p ps ih =>
    rw [List.foldl_cons, ih, xentry_setEntry_invalid]
    by_cases hp : q = p <;> simp [hp]

theorem bit_eq_testBit (x j : Nat) : bit x j = x.testBit j := Nat.testBit_eq_decide_div_mod_eq.symm

/-- A number put together from bits has those bits. -/
theorem bit_sum_range (b : Nat → Bool) (n j : Nat) (h : j < n) : bit ((List.range n).map (fun i => b2n (b i) * 2 ^ i)).sum j = b j := by
  have hlt (m : Nat) : ((List.range m).map (fun i => b2n (b i) * 2 ^ i)).sum < 2 ^ m := by
    induction m with
    | zero => simp
    | succ m ih =>
      have h1 : b2n (b m) ≤ 1 := by cases b m <;> simp [b2n]
      have h2 : b2n (b m) * 2 ^ m ≤ 1 * 2 ^ m := Nat.mul_le_mul_right _ h1
      simp [List.range_succ, pow_succ]
      omega
  rw [bit_eq_testBit]
  induction n with
  | zero => omega
  | succ n ih =>
    have hsplit : ((List.range (n + 1)).map (fun i => b2n (b i) * 2 ^ i)).sum
        = 2 ^ n * b2n (b n) + ((List.range n).map (fun i => b2n (b i) * 2 ^ i)).sum := by
      simp [List.range_succ]
      ring
    rw [hsplit, Nat.testBit_two_pow_mul_add _ (hlt n)]
    split
    · exact ih (by assumption)
    · obtain rfl : j = n := by omega
      cases hbj : b j <;> simp [b2n]

/-- Of the pages that it names, a drop of cached entries leaves none (R291 step 1). -/
theorem cached_uncache (s : State) (pages : List Nat) (v : Nat) (h : v ∈ pages) : (s.uncache pages).cached v = false := by
  simp only [State.cached, State.uncache, State.setXlt_xlt, List.any_eq_false, List.mem_filter, List.mem_map, Bool.and_eq_true,
    decide_eq_true_eq, not_and]
  rintro _ ⟨⟨c, -, rfl⟩, -⟩ hc
  have hv : 8 * c.1 + v % 8 = v := by
    simp only [dropValid] at hc
    omega
  rw [dropValid, bit_sum_range _ 8 _ (Nat.mod_lt _ (by decide)), hv]
  simp [h]

theorem mem_pageRange (v n q : Nat) : q ∈ (List.range n).map (· + v) ↔ v ≤ q ∧ q < v + n := by
  simp only [List.mem_map, List.mem_range]
  constructor
  · rintro ⟨i, hi, rfl⟩
    omega
  · rintro ⟨h1, h2⟩
    exact ⟨q - v, by omega, by omega⟩

/-- A map message of operation 1 that passes its checks invalidates its pages, drops them from the cache and begins the drain. -/
theorem actMap_invalidate (s : State) (r : Req) (hop : byteAt r.body 16 = 1) (hv : fld r.body 0 4 < 0x1000000)
    (hn : 1 ≤ fld r.body 4 4) (hend : fld r.body 0 4 + fld r.body 4 4 ≤ 0x1000000) (hres : fld r.body 17 7 = 0)
    (hchk : s.mapChecks r.fn (fld r.body 0 4) (fld r.body 4 4) [] = none) :
    actMap s r =
      ((((((List.range (fld r.body 4 4)).map (· + fld r.body 0 4)).foldl (fun t p => t.setEntry p (.invalid 0)) s).uncache
        ((List.range (fld r.body 4 4)).map (· + fld r.body 0 4))).startDrain r.pair
        ((List.range (fld r.body 4 4)).map (· + fld r.body 0 4)) s), none) := by
  unfold actMap
  simp only [hop, hres]
  rw [if_neg (by simp; omega)]
  simp [hchk, State.mapEntry]

@[simp] theorem State.sameInputs_xentry (s t : State) (q : Nat) : (s.sameInputs t).xentry q = t.xentry q := rfl
@[simp] theorem State.sameInputs_cached (s t : State) (q : Nat) : (s.sameInputs t).cached q = t.cached q := rfl
@[simp] theorem xentry_startDrain (s old : State) (p q : Nat) (pages : List Nat) :
    (s.startDrain p pages old).xentry q = s.xentry q := rfl
@[simp] theorem cached_startDrain (s old : State) (p q : Nat) (pages : List Nat) :
    (s.startDrain p pages old).cached q = s.cached q := rfl
@[simp] theorem xentry_uncache (s : State) (pages : List Nat) (q : Nat) : (s.uncache pages).xentry q = s.xentry q := rfl

/-- The drain of a pair is over once no controller holds a request of an old entry (R291). -/
theorem drainDone_drained (s : State) (p : Nat) (hfw : s.firmwareActs = true) (hd : s.xlt.drains.any (fun d => d.pair = p) = true)
    (h : ∀ d ∈ s.xlt.drains, d.pair = p → s.drained d = true) :
    s.drainDone p =
      (s.setXlt (fun x => { x with drains := x.drains.filter (fun d => d.pair != p) })).answerLate p 0 (s.drainFields p) := by
  have hall : s.xlt.drains.all (fun d => d.pair != p || s.drained d) = true := by
    simp only [List.all_eq_true, Bool.or_eq_true, bne_iff_ne]
    intro d hmem
    by_cases hp : d.pair = p
    · exact .inr (h d hmem hp)
    · exact .inl hp
  unfold State.drainDone
  rw [if_pos (by simp only [hfw, hd, hall, Bool.and_self])]

/-! ## Host accesses through BAR2 (R287) -/

/-- A look-up changes the cache, its count of misses and the draw of a victim. -/
theorem touch_frame (s : State) (v : Nat) :
    ∃ c m d, s.touch v = { s with xlt := { s.xlt with cache := c, misses := m }, free := d } := by
  unfold State.touch
  split
  · exact ⟨s.xlt.cache, s.xlt.misses, s.free, rfl⟩
  · unfold State.fillCache
    dsimp only
    split
    · exact ⟨_, _, s.free, rfl⟩
    · split
      · exact ⟨_, _, s.free, rfl⟩
      · exact ⟨_, _, _, rfl⟩

theorem touchAll_frame (s : State) (a n : Nat) :
    ∃ c m d, s.touchAll a n = { s with xlt := { s.xlt with cache := c, misses := m }, free := d } := by
  refine List.foldlRecOn (motive := fun (t : State) => ∃ c m d, t = { s with xlt := { s.xlt with cache := c, misses := m }, free := d })
    _ _ ⟨s.xlt.cache, s.xlt.misses, s.free, rfl⟩ (fun t ht v _ => ?_)
  obtain ⟨c, m, d, rfl⟩ := ht
  obtain ⟨c', m', d', h⟩ := touch_frame { s with xlt := { s.xlt with cache := c, misses := m }, free := d } v
  exact ⟨c', m', d', h⟩

@[simp] theorem touchAll_hbm (s : State) (a n : Nat) : (s.touchAll a n).hbm = s.hbm := by
  obtain ⟨c, m, d, h⟩ := touchAll_frame s a n
  rw [h]

@[simp] theorem touchAll_bar2Page (s : State) (a n f v : Nat) (w : Bool) : (s.touchAll a n).bar2Page f v w = s.bar2Page f v w := by
  obtain ⟨c, m, d, h⟩ := touchAll_frame s a n
  rw [h]
  rfl

theorem pagesOf_one (a : Nat) : pagesOf a 1 = [pageOf a] := by
  simp [pagesOf, List.range_succ]

/-- An access of one byte of a page that the function may reach makes no entry in the event log. -/
theorem logBar2_reachable (s : State) (f a : Nat) (w : Bool) (h : s.bar2Page f (pageOf a) w = true) : s.logBar2 f a 1 w = s := by
  simp [State.logBar2, pagesOf_one, h]

/-- A pseudo-channel that the part does not list holds no write. -/
theorem chan_listed (s : State) (p sector : Nat) (w : WriteReq) (h : queuedWrite (s.chan p) sector = some w) : p < s.chans.length := by
  by_contra hp
  have hr : s.chan p = Chan.reset := List.getD_eq_default _ _ (by omega)
  rw [hr] at h
  cases h

theorem mergeByte_sector (sector off : Nat) (b : Byte) (w : WriteReq) : (mergeByte sector off b w).sector = w.sector := by
  unfold mergeByte
  split <;> rfl

/-- A byte merged into the queued writes leaves which of them a sector finds. -/
theorem queuedWrite_mergeByte (c : Chan) (sector off t : Nat) (b : Byte) :
    queuedWrite { c with wq := c.wq.map (mergeByte sector off b) } t = (queuedWrite c t).map (mergeByte sector off b) := by
  have hs : (fun w : WriteReq => decide (w.sector = t)) ∘ mergeByte sector off b = fun w => decide (w.sector = t) := by
    funext w
    simp [mergeByte_sector]
  simp only [queuedWrite, List.find?_map, hs]

theorem mergeByte_covers (sector off : Nat) (b : Byte) (w : WriteReq) (h : w.sector = sector) :
    bit (mergeByte sector off b w).mask off = true := by
  rw [mergeByte, if_pos h]
  dsimp only
  split
  · assumption
  · rename_i hm
    rw [bit_eq_testBit] at hm ⊢
    rw [Nat.add_comm, Nat.testBit_two_pow_add_eq]
    simpa using hm

theorem length_padTo (n : Nat) (l : List Byte) : (padTo n l).length = n := by
  simp [padTo]
  omega

theorem mergeByte_byte (sector off : Nat) (b : Byte) (w : WriteReq) (h : w.sector = sector) (ho : off < 64) :
    (mergeByte sector off b w).data.getD off 0 = b := by
  rw [mergeByte, if_pos h]
  simp [List.getD_eq_getElem?_getD, length_padTo, ho]

/-- A byte reads back from where it was put: from the queued write of its sector that it was merged into (R292), or from the stack. -/
theorem hbmGet_hbmPut_same (s : State) (k : Nat) (b : Byte) (h : Mem.wf hbmDefault s.hbm = true) : (s.hbmPut k b).hbmGet k = b := by
  unfold State.hbmPut
  cases hq : queuedWrite (s.chan (k / 805306368)) (sectorOf k) with
  | some w =>
    have hw : w.sector = sectorOf k := by simpa using List.find?_some hq
    simp only [State.hbmGet, State.chan_setChan _ _ _ (chan_listed s _ _ w hq), queuedWrite_mergeByte, hq, Option.map_some,
      mergeByte_covers _ _ b w hw, if_true]
    exact mergeByte_byte _ _ b w hw (Nat.mod_lt _ (by decide))
  | none =>
    have hc : ({ s with hbm := memPut hbmDefault s.hbm k b } : State).chan (k / 805306368) = s.chan (k / 805306368) := rfl
    simp only [State.hbmGet, hc, hq]
    exact memGet_memPut_same _ _ _ _ h

/-- A page that BAR2 may write is a writable page of HBM. -/
theorem bar2Page_write_elim (s : State) (f v : Nat) (h : s.bar2Page f v true = true) : ∃ fr c, s.xentry v = .hbm fr c true := by
  unfold State.bar2Page at h
  cases hx : s.xentry v with
  | invalid l => simp [hx] at h
  | host p g w => simp [hx] at h
  | hbm fr c w =>
    obtain ⟨-, -, rfl⟩ : _ ∧ _ ∧ w = true := by simpa [hx] using h
    exact ⟨fr, c, rfl⟩

theorem xentry_hbmPut (s : State) (k v : Nat) (b : Byte) : (s.hbmPut k b).xentry v = s.xentry v := by
  unfold State.hbmPut
  dsimp only
  split <;> rfl

/-- A byte of a page of HBM reads back from device space. -/
theorem devGet_devPut_same (s : State) (a fr c : Nat) (w : Bool) (b : Byte) (hx : s.xentry (pageOf a) = .hbm fr c w)
    (h : Mem.wf hbmDefault s.hbm = true) : (s.devPut a b).devGet a = b := by
  simp only [State.devPut, State.devGet, hx, xentry_hbmPut]
  exact hbmGet_hbmPut_same s _ b h

theorem exec_bar2Read (s : State) (f a n : Nat) (o : MemOutcome) (hon : s.on = true) (hf : f < 17) (ha : a + n ≤ 0x1000000000)
    (ho : s.bar2Open f a n = true) : exec (.bar2Read f a ⟨n, o⟩) s = .next (s.sameInputs (s.bar2Read f a n o)) := by
  have h : exec (.bar2Read f a ⟨n, o⟩) s = onUnit (f < 17 && a + n ≤ 0x1000000000) s
    (if s.bar2Open f a n then s.bar2Read f a n o else s) := rfl
  rw [h, on_next s _ hon _ (by simp [hf, ha]), if_pos ho]

theorem exec_bar2Write (s : State) (f a : Nat) (l : List Byte) (hon : s.on = true) (hf : f < 17)
    (ha : a + l.length ≤ 0x1000000000) (ho : s.bar2Open f a l.length = true) :
    exec (.bar2Write f a l) s = .next (s.sameInputs (((s.touchAll a l.length).logBar2 f a l.length true).bar2Put f a l)) := by
  have h : exec (.bar2Write f a l) s = onUnit (f < 17 && a + l.length ≤ 0x1000000000) s
    (if s.bar2Open f a l.length then ((s.touchAll a l.length).logBar2 f a l.length true).bar2Put f a l else s) := rfl
  rw [h, on_next s _ hon _ (by simp [hf, ha]), if_pos ho]

/-- A read that the stack answers returns its bytes, with no Completer Abort. -/
theorem bar2Read_ok (s : State) (f a n : Nat) :
    (s.bar2Read f a n .ok).out.data = s.bar2Bytes f a n ∧ (s.bar2Read f a n .ok).out.abort = false := by
  unfold State.bar2Read
  dsimp only
  split <;> exact ⟨rfl, rfl⟩

/-- A byte that BAR2 may write stands in device space after the write. -/
theorem bar2Write_byte (s : State) (f a : Nat) (b : Byte) (hp : s.bar2Page f (pageOf a) true = true)
    (h : Mem.wf hbmDefault s.hbm = true) : (((s.touchAll a 1).logBar2 f a 1 true).bar2Put f a [b]).devGet a = b := by
  have hp' : (s.touchAll a 1).bar2Page f (pageOf a) true = true := by rwa [touchAll_bar2Page]
  obtain ⟨fr, c, hx⟩ := bar2Page_write_elim _ f _ hp'
  rw [logBar2_reachable _ f a true hp', State.bar2Put, if_pos hp', State.bar2Put]
  exact devGet_devPut_same _ a fr c true b hx (by rwa [touchAll_hbm])

/-! ## The controllers (R292 to R294) -/

theorem lMod_congr (l : List α) (i : Nat) (f g : α → α) (d : α) (h : f (l.getD i d) = g (l.getD i d)) : lMod l i f = lMod l i g := by
  induction l generalizing i with
  | nil => rfl
  | cons a t ih =>
    cases i with
    | zero => simpa [lMod] using h
    | succ j => simpa [lMod] using ih j (by simpa using h)

/-- Two updates that agree on a pseudo-channel as it stands are one. -/
theorem State.setChan_congr (s : State) (p : Nat) (f g : Chan → Chan) (h : f (s.chan p) = g (s.chan p)) :
    s.setChan p f = s.setChan p g := by
  rw [State.setChan, State.setChan, lMod_congr s.chans p f g Chan.reset h]

/-- A present pseudo-channel is one of the 64, and the part lists it. -/
theorem present_elim (s : State) (p : Nat) (h : s.present p = true) : p < 64 ∧ p < s.chans.length := by
  obtain ⟨h64, hc⟩ : p < 64 ∧ chanPresent (s.chan p) = true := by simpa [State.present] using h
  refine ⟨h64, ?_⟩
  by_contra hp
  rw [State.chan, List.getD_eq_default _ _ (by omega)] at hc
  cases hc

/-- A read that meets no queued write of its sector enters a read queue that has room. -/
theorem enterRead_room (s : State) (p : Nat) (who : MemUser) (sector cls : Nat) (spec : Bool)
    (hq : queuedWrite (s.chan p) sector = none) (hl : (s.chan p).rq.length < 128) :
    s.enterRead p who sector cls spec = s.setChan p (fun d => { d with
      rq := d.rq ++ [{ who := who, sector := sector, cls := cls, at_ := s.now, spec := spec, aged := false, held := false }] }) := by
  simp only [State.enterRead, hq, Option.filter_none, if_neg (not_le.mpr hl)]
  exact State.setChan_congr s p _ _ (by simp [hq])

/-- A read whose page is cached and mapped to a present pseudo-channel is presented to its controller (R285, R292). -/
theorem memRequest_cached_read (s : State) (r : MemReq) (f p : Nat) (w : Bool) (hc : s.cached (pageOf r.addr) = true)
    (hx : s.xentry (pageOf r.addr) = .hbm f p w) (hp : s.present p = true) (hr : r.write = false) :
    s.memRequest r = s.enterRead p r.who (f * 64 + r.addr % 4096 / 64) r.cls r.spec := by
  simp [State.memRequest, State.lookUp, hc, hx, hp, hr]

theorem promote_chan (s : State) (p : Nat) (h : p < s.chans.length) :
    ((s.promote p).chan p).rq = (s.chan p).rq.map (fun r => { r with aged := r.aged || s.overAge r.at_ }) ∧
      ((s.promote p).chan p).waiting = (s.chan p).waiting := by
  rw [State.promote, State.chan_setChan _ _ _ h]
  exact ⟨rfl, rfl⟩

/-- After a promotion every read over the age limit is promoted (R293). -/
theorem promote_aged (s : State) (p : Nat) (h : p < s.chans.length) (r : ReadReq) (hr : r ∈ ((s.promote p).chan p).rq)
    (hold : s.now > r.at_ + 1000 * s.xlt.ageLimit) : r.aged = true := by
  rw [(promote_chan s p h).1] at hr
  obtain ⟨q, -, rfl⟩ := List.mem_map.mp hr
  have hover : s.overAge q.at_ = true := by
    rw [State.overAge]
    exact decide_eq_true hold
  simp [hover]

theorem firstSched_mem (l : List SchedCand) (k : SchedCand) (h : firstSched l = some k) : k ∈ l := by
  induction l generalizing k with
  | nil => cases h
  | cons a t ih =>
    rw [firstSched] at h
    split at h
    · obtain rfl : a = k := by simpa using h
      exact List.mem_cons_self
    · rename_i b hb
      split at h
      · obtain rfl : b = k := by simpa using h
        exact List.mem_cons_of_mem _ (ih b hb)
      · obtain rfl : a = k := by simpa using h
        exact List.mem_cons_self

/-- A candidate that reads stands for a queued read that nothing holds. -/
theorem candidates_read (c : Chan) (k : SchedCand) (hk : k ∈ c.candidates) (hr : k.write = false) :
    ∃ r ∈ c.rq, c.holds r = false ∧ r.sector = k.sector ∧ r.at_ = k.at_ ∧ r.cls = k.cls := by
  rcases List.mem_append.mp hk with hk | hk
  · obtain ⟨r, hmem, rfl⟩ := List.mem_map.mp hk
    obtain ⟨hrq, hh⟩ := List.mem_filter.mp hmem
    exact ⟨r, hrq, by simpa using hh, rfl, rfl, rfl⟩
  · obtain ⟨w, -, rfl⟩ := List.mem_map.mp hk
    cases hr

/-- A pseudo-channel that holds nothing outside its queues admits nothing. -/
theorem admitHeld_none (s : State) (p : Nat) (h : (s.chan p).waiting = []) :
    s.admitHeld p = s.setChan p (fun c => { c with waiting := [] }) := by
  simp [State.admitHeld, h]

theorem readDone_chan (s : State) (who : MemUser) (data : List Byte) (p : Nat) : (s.readDone who data).chan p = s.chan p := by
  unfold State.readDone
  split <;> rfl

theorem readDone_hbm (s : State) (who : MemUser) (data : List Byte) : (s.readDone who data).hbm = s.hbm := by
  unfold State.readDone
  split <;> rfl

/-- A read that the stack answers leaves its queue and changes no byte of the stack. -/
theorem performReq_read_ok (s : State) (p : Nat) (k : SchedCand) (hp : p < s.chans.length) (hk : k ∈ (s.chan p).candidates)
    (hw : k.write = false) (hwait : (s.chan p).waiting = []) :
    (s.performReq p k .ok).hbm = s.hbm ∧ ((s.performReq p k .ok).chan p).rq.length + 1 = (s.chan p).rq.length := by
  obtain ⟨q, hq, hh, hsec, hat, hcls⟩ := candidates_read _ k hk hw
  unfold State.performReq
  simp only [hw, Bool.false_eq_true, if_false]
  cases hf : (s.chan p).rq.find? (fun r => r.sector = k.sector && r.at_ = k.at_ && r.cls = k.cls && !(s.chan p).holds r) with
  | none =>
    have := List.find?_eq_none.mp hf q hq
    simp [hh, hsec, hat, hcls] at this
  | some r =>
    have hr : r ∈ (s.chan p).rq := List.mem_of_find?_eq_some hf
    have hlen : ((s.chan p).rq.erase r).length + 1 = (s.chan p).rq.length := by
      have := List.length_erase_of_mem hr
      have := List.length_pos_of_mem hr
      omega
    simp only [outcomeData, State.afterOutcome, if_true, readDone_hbm, readDone_chan]
    rw [admitHeld_none _ _ (by rw [State.chan_setChan _ _ _ hp]; exact hwait), State.chan_setChan _ _ _ (by simpa using hp),
      State.chan_setChan _ _ _ hp]
    exact ⟨rfl, hlen⟩

/-- A present, trained pseudo-channel performs the first candidate of R293's order. -/
theorem schedule_first (s : State) (p : Nat) (k : SchedCand) (o : MemOutcome) (hp : s.present p = true) (ht : (s.chan p).trained = true)
    (hk : firstSched ((s.promote p).chan p).candidates = some k) : s.schedule p o = (s.promote p).performReq p k o := by
  simp [State.schedule, hp, ht, hk]

theorem schedule_read_ok (s : State) (p : Nat) (k : SchedCand) (hp : s.present p = true) (ht : (s.chan p).trained = true)
    (hk : firstSched ((s.promote p).chan p).candidates = some k) (hw : k.write = false) (hwait : (s.chan p).waiting = []) :
    (s.schedule p .ok).hbm = s.hbm ∧ ((s.schedule p .ok).chan p).rq.length + 1 = (s.chan p).rq.length := by
  obtain ⟨-, hlt⟩ := present_elim s p hp
  obtain ⟨hrq, hpw⟩ := promote_chan s p hlt
  obtain ⟨hhbm, hlen⟩ := performReq_read_ok (s.promote p) p k (by simpa [State.promote] using hlt) (firstSched_mem _ k hk) hw
    (hpw.trans hwait)
  rw [hrq, List.length_map] at hlen
  rw [schedule_first s p k .ok hp ht hk]
  exact ⟨hhbm, hlen⟩

theorem refreshNow_due (s : State) (p : Nat) (hp : s.present p = true) (ht : (s.chan p).trained = true)
    (hd : (s.chan p).nextRef ≤ 16 * s.now) :
    s.refreshNow p = s.setChan p (fun c => { c with
      openRow := [], nextRef := c.nextRef + (if s.xlt.stackFast.getD (p / 32) false = true then 31200 else 62400) }) := by
  rw [State.refreshNow, if_pos (by simp [hp, ht, hd])]
  rfl

theorem stackRead_fitted (s : State) (k : Nat) (c : Int) (h : 32 * k < s.n0) :
    (s.stackRead k c).xlt.stackTemp = s.xlt.stackTemp.set k c := by
  rw [State.stackRead, if_pos h]
  rfl

/-! ## Each command of the registers, the time base and the memory completes -/

theorem on_of_firmwareActs (s : State) (h : s.firmwareActs = true) : s.on = true := by
  simp only [State.firmwareActs, State.fwOn, Bool.and_eq_true] at h
  exact h.1.1.1

/-- What an accepted map message of operation 1 leaves: its pages unmapped and uncached, and every other entry as it was. -/
theorem exec_map_invalidate (s : State) (p : Nat) (r : Req) (h : s.accepts p 0x0018 r = true) (hop : byteAt r.body 16 = 1)
    (hv : fld r.body 0 4 < 0x1000000) (hn : 1 ≤ fld r.body 4 4) (hend : fld r.body 0 4 + fld r.body 4 4 ≤ 0x1000000)
    (hres : fld r.body 17 7 = 0) (hchk : s.mapChecks r.fn (fld r.body 0 4) (fld r.body 4 4) [] = none) :
    ∃ t, exec (.map p) s = .next t ∧
      (∀ q, fld r.body 0 4 ≤ q → q < fld r.body 0 4 + fld r.body 4 4 → t.xentry q = .invalid 0 ∧ t.cached q = false) ∧
      (∀ q, (q < fld r.body 0 4 ∨ fld r.body 0 4 + fld r.body 4 4 ≤ q) → t.xentry q = s.xentry q) := by
  have hact := actMap_invalidate (s.accepted r) r hop hv hn hend hres hchk
  have hmem (q : Nat) := mem_pageRange (fld r.body 0 4) (fld r.body 4 4) q
  refine ⟨_, accepted_message_silent s p 0x0018 actMap r _ h hact, fun q hlo hhi => ⟨?_, ?_⟩, fun q hq => ?_⟩
  · rw [State.sameInputs_xentry, xentry_startDrain, xentry_uncache, xentry_invalidate, if_pos ((hmem q).mpr ⟨hlo, hhi⟩)]
  · rw [State.sameInputs_cached, cached_startDrain, cached_uncache _ _ q ((hmem q).mpr ⟨hlo, hhi⟩)]
  · rw [State.sameInputs_xentry, xentry_startDrain, xentry_uncache, xentry_invalidate, if_neg (by rw [hmem]; omega)]
    rfl

/-- Settles O56: the gate of each command answers its effect, and a rule about that effect says what it is. -/
theorem registerAndMemoryCommandsComplete : Obligations.RegisterAndMemoryCommandsComplete := by
  unfold Obligations.RegisterAndMemoryCommandsComplete
  refine ⟨?latchingRead, ?registerWrite, ?tsIncrWrite, ?tsStep, ?tsStepAbsorbed, ?laneModeWrite, ?clBoundsWrite, ?ageLimitWrite,
    ?refclkEdge, ?ppsInEdge, ?ppsHoldover, ?ppsOut, ?map, ?drain, ?window, ?bar2Read, ?bar2Write, ?memRequest, ?memSchedule,
    ?agePromotion, ?refresh, ?stackTempRead⟩
  case latchingRead =>
    intro s f o hon hf
    have h := exec_latchingRead_word s f o hon hf
    exact ⟨_, h, (exec_readClear s f _).trans h, readReg_word s f o⟩
  case registerWrite =>
    intro s f o v hon hf
    rw [exec_registerWrite_word s f o v hf, exec_registerWrite_word s f 0x80 v hf, whenOn_next s _ hon, whenOn_next s _ hon,
      writeReg_tdc_probe]
    exact ⟨rfl, rfl⟩
  case tsIncrWrite =>
    intro s v hon hs
    rw [exec_tsIncrWrite]
    exact whenOn_setTs s _ _ hon (if_neg hs)
  case tsStep =>
    intro s v hon hs hv
    rw [exec_tsStep, signed32_small v (by omega)]
    exact whenOn_setTs s _ _ hon (step_positive s.ts v hs hv)
  case tsStepAbsorbed =>
    intro s hon ha
    exact whenOn_setTs s _ _ hon (if_pos ha)
  case laneModeWrite =>
    intro s v hon hv hu
    rw [exec_laneModeWrite, Nat.mod_eq_of_lt (by simp only [M32]; omega : v < M32)]
    exact ⟨_, whenOn_next s _ hon, writeLaneMode_mode s v hv hu⟩
  case clBoundsWrite =>
    intro s x v hon hx hlo hle hhi
    rw [exec_clBoundsWrite s x v hx, writeBounds_inside s x v hlo hle hhi, whenOn_next s _ hon, State.sameInputs_setCluster]
  case ageLimitWrite =>
    intro s v hon h1 h64
    rw [exec_ageLimitWrite, writeAge_inside s v h1 h64, whenOn_next s _ hon, State.sameInputs_setXlt]
  case refclkEdge =>
    intro s hon ha hs _
    refine ⟨_, whenOn_next s _ hon, ?_⟩
    rw [State.sameInputs_ts, refEdge_ts s none ha]
    exact edge_count s.ts ha hs
  case ppsInEdge =>
    intro s hon hs
    exact ⟨_, whenOn_next s _ hon, ppsEdge_servo s.ts hs⟩
  case ppsHoldover =>
    intro s a hon hl hs ha
    exact whenOn_setTs s _ _ hon (enterHoldover_late s.ts a hl hs ha)
  case ppsOut =>
    intro s hon ho hc
    exact ⟨_, whenOn_next s _ hon, ppsRise_pin s.ts ho hc⟩
  case map =>
    intro s p r h v n hop hv hn hend hres hchk
    exact exec_map_invalidate s p r h hop hv hn hend hres hchk
  case drain =>
    intro s p hp hfw hd h
    have hx : exec (.translationDrainComplete p) s = .next (s.sameInputs (s.drainDone p)) :=
      on_next s _ (on_of_firmwareActs s hfw) _ (decide_eq_true hp)
    rw [hx, drainDone_drained s p hfw hd h]
    rfl
  case window =>
    intro s p r h b n hn
    refine ⟨?_, ?_, ?_⟩
    · intro hop hf hnew hfree hr
      exact (windowMessage_accepted s p 0 r h hop).trans (accepted_message_answer s p _ _ r _ _ _ h
        (actWindow_create (s.accepted r) r hn hop hf hnew hfree hr))
    · intro w hop hf hw hring hr
      exact (windowMessage_accepted s p 1 r h hop).trans (accepted_message_answer s p _ _ r _ _ _ h
        (actWindow_delete (s.accepted r) r w hn hop hf hw hring hr))
    · intro w hop hw ho hr
      exact (windowMessage_accepted s p 2 r h hop).trans (accepted_message_silent s p _ _ r _ h
        (actWindow_mask (s.accepted r) r w hn hop hw ho hr))
  case bar2Read =>
    intro s f a n hon hf ha ho
    exact ⟨_, exec_bar2Read s f a n .ok hon hf ha ho, bar2Read_ok s f a n⟩
  case bar2Write =>
    intro s f a b hon hf ha ho hp hwf
    exact ⟨_, exec_bar2Write s f a [b] hon hf ha ho, bar2Write_byte s f a b hp hwf⟩
  case memRequest =>
    intro s r f p w hon ha hcls hx hp _ hc hr hq hl
    have h : exec (.memRequest r) s = .next (s.sameInputs (s.memRequest r)) := on_next s _ hon _ (by simp [ha, hcls])
    rw [h, memRequest_cached_read s r f p w hc hx hp hr, enterRead_room s p _ _ _ _ hq hl, State.sameInputs_setChan]
  case memSchedule =>
    intro s p k hon hp ht hk _ _ hw hwait
    obtain ⟨h64, -⟩ := present_elim s p hp
    exact ⟨_, on_next s _ hon _ (decide_eq_true h64), schedule_read_ok s p k hp ht hk hw hwait⟩
  case agePromotion =>
    intro s p hon hp
    obtain ⟨h64, hlt⟩ := present_elim s p hp
    have h : exec (.agePromotion p) s = .next (s.sameInputs (if s.present p then s.promote p else s)) :=
      on_next s _ hon _ (decide_eq_true h64)
    rw [if_pos hp] at h
    exact ⟨_, h, promote_aged s p hlt⟩
  case refresh =>
    intro s p hon hp ht hd
    obtain ⟨h64, -⟩ := present_elim s p hp
    rw [← State.sameInputs_setChan, ← refreshNow_due s p hp ht hd]
    exact on_next s _ hon _ (decide_eq_true h64)
  case stackTempRead =>
    intro s k c hon hk hf _ _
    exact ⟨_, on_next s _ hon _ (decide_eq_true hk), stackRead_fitted s k c hf⟩

end Sys2Proof.Machine

/-! SUPPORT. Proofs about tile-interface instructions: how one that comes to an idle core is issued, and what one piece of work of a
core with a single instruction in flow is. -/

namespace Sys2Proof.Machine

/-! ## The sequencer's state under its update -/

@[simp] theorem State.suite_setSeq (s : State) (n k : Nat) (f : Seq → Seq) : (s.setSeq n f).suite k = s.suite k := rfl
@[simp] theorem State.core_handshake (s : State) (k n : Nat) : (s.handshake k).core n = s.core n := rfl

theorem State.seq_setSeq (s : State) (n : Nat) (f : Seq → Seq) (h : n < s.cores.length) :
    ((s.setSeq n f).core n).seq = f (s.core n).seq := by
  rw [State.setSeq, State.core_setCore s n _ h]

theorem State.setSeq_setSeq (s : State) (n : Nat) (f g : Seq → Seq) :
    (s.setSeq n f).setSeq n g = s.setSeq n (fun q => g (f q)) := by
  simp only [State.setSeq, State.setCore, lMod_lMod]

theorem State.setCore_congr (s : State) (n : Nat) (f g : Core → Core) (h : f (s.core n) = g (s.core n)) :
    s.setCore n f = s.setCore n g := by
  rw [State.setCore, State.setCore, lMod_congr s.cores n f g Core.empty h]

/-- Two updates of a sequencer are one where they agree on the state that it is in. -/
theorem State.setSeq_congr (s : State) (n : Nat) (f g : Seq → Seq) (h : f (s.core n).seq = g (s.core n).seq) :
    s.setSeq n f = s.setSeq n g :=
  s.setCore_congr n _ _ (congrArg (fun q => { s.core n with seq := q }) h)

theorem State.core_of_no_core (s : State) (n : Nat) (h : ¬ n < s.cores.length) : s.core n = Core.empty :=
  List.getD_eq_default _ _ (Nat.le_of_not_lt h)

theorem State.lt_cores_of_running (s : State) (n : Nat) (h : (s.core n).seq.running = true) : n < s.cores.length := by
  by_contra hn
  rw [s.core_of_no_core n hn] at h
  cases h

theorem State.lt_cores_of_flow (s : State) (n : Nat) (h : (s.core n).seq.flow ≠ []) : n < s.cores.length := by
  by_contra hn
  exact h (congrArg (fun c => c.seq.flow) (s.core_of_no_core n hn))

theorem State.lt_suites_of_running (s : State) (k : Nat) (h : (s.suite k).st = 4) : k < s.suites.length := by
  by_contra hk
  rw [State.suite, List.getD_eq_default _ _ (Nat.le_of_not_lt hk)] at h
  cases h

/-- A handshake leaves a running suite running. -/
theorem State.handshake_running (s : State) (k : Nat) (h : (s.suite k).st = 4) : ((s.handshake k).suite k).st = 4 := by
  rw [State.handshake, State.suite_setSuite _ _ _ (s.lt_suites_of_running k h)]
  exact h

/-! ## Issue of an instruction as it comes (R19, R138) -/

theorem exec_streamInstr (i : Instr) (s : State) (n idx : Nat) (ti : TInstr) (h : streamInstr i = some (n, idx, ti)) :
    exec i s = onUnit (n < 32) s (s.instruct n idx ti) := by
  cases i <;> cases h <;> rfl

/-- What `awaits` says, in the order of its definition. -/
theorem awaits_elim (s : State) (k n idx : Nat) (l : List Flow) (h : s.awaits k n idx l = true) :
    s.on = true ∧ n < 32 ∧ s.suiteOf n = some k ∧ (s.suite k).st = 4 ∧ (s.core n).seq.running = true ∧
      (s.core n).seq.ended = false ∧ (s.core n).seq.hold = none ∧ (s.core n).seq.skipping = none ∧ (s.core n).seq.flow = l ∧
      (s.core n).seq.code.length = (s.core n).seq.pc ∧ (s.core n).seq.pc < 65536 ∧ idx < 0x1000000 := by
  simpa [State.awaits, and_assoc] using h

/-- Nothing is passed over where no region is being skipped. -/
theorem Seq.passOver_of_not_skipping (q : Seq) (h : q.skipping = none) : q.passOver = q := by
  simp [Seq.passOver, h]

/-- The sequencer that has reached the end of its stream issues the instruction that is appended there, unless a guard holds issue. -/
theorem issue_appended (s : State) (k n idx : Nat) (ti : TInstr) (l : List Flow) (h : s.awaits k n idx l = true) :
    let t := s.setSeq n (fun q => q.append idx ti)
    t.issue k n = if (t.core n).seq.mayIssue && !t.specOverruns k n then t.issueOne k n idx ti else t := by
  intro t
  obtain ⟨-, -, -, hst, hrun, hend, hhold, hskip, -, hlen, -, -⟩ := awaits_elim s k n idx l h
  have hq : (t.core n).seq = (s.core n).seq.append idx ti := s.seq_setSeq n _ (s.lt_cores_of_running n hrun)
  have hpass : t.setSeq n Seq.passOver = t := by
    rw [State.setSeq_setSeq]
    exact s.setSeq_congr n _ _ (Seq.passOver_of_not_skipping _ hskip)
  have hnext : (t.core n).seq.code[(t.core n).seq.pc]? = some (idx, ti) := by
    simp [hq, Seq.append, ← hlen]
  have hgo : ((t.suite k).st != 4 || !(t.core n).seq.running || (t.core n).seq.ended || (t.core n).seq.hold.isSome) = false := by
    have hsuite : t.suite k = s.suite k := s.suite_setSeq n k _
    simp [hq, hsuite, Seq.append, hst, hrun, hend, hhold]
  simp only [State.issue, hgo, hpass, hnext]
  rfl

/-- An engine instruction and a `q.signal` enter the flow when they are issued. -/
theorem issueOne_enter (s : State) (k n idx : Nat) (ti : TInstr) (h : pushesOrStores ti = true ∨ ∃ o, ti = .qSignal o) :
    s.issueOne k n idx ti = s.setSeq n (fun q => q.enter idx ti) := by
  obtain h | ⟨o, rfl⟩ := h
  · cases ti with
    | qWait | qBarrier | ctlLoop | ctlGuard | ctlCommit | ctlShape | ctlHalt => cases h
    | _ => rfl
  · rfl

/-- With nothing in flow no guard holds issue. -/
theorem issue_appended_idle (s : State) (k n idx : Nat) (ti : TInstr) (h : s.awaits k n idx [] = true) :
    (s.setSeq n (fun q => q.append idx ti)).issue k n = (s.setSeq n (fun q => q.append idx ti)).issueOne k n idx ti := by
  have hflow : ((s.setSeq n (fun q => q.append idx ti)).core n).seq.flow = [] := by
    obtain ⟨-, -, -, -, hrun, -, -, -, hflow, -⟩ := awaits_elim s k n idx [] h
    rw [s.seq_setSeq n _ (s.lt_cores_of_running n hrun)]
    exact hflow
  rw [issue_appended s k n idx ti [] h, if_pos]
  simp [Seq.mayIssue, Seq.firstGuard, State.specOverruns, State.specShape, hflow]

/-! ## A core with one instruction in flow -/

/-- Core n of the running suite k has just instruction `i` in flow, and issue does not hold. -/
structure State.RunsOnly (s : State) (k n : Nat) (i : Issued) : Prop where
  running : (s.suite k).st = 4
  hold : (s.core n).seq.hold = none
  flow : (s.core n).seq.flow = [.work i]

theorem entered_runsOnly (s : State) (k n idx : Nat) (ti : TInstr) (h : s.awaits k n idx [] = true) :
    (s.entered n idx ti).RunsOnly k n (s.issuedAs n idx ti) := by
  obtain ⟨-, -, -, hst, hrun, -, hhold, -, hflow, -⟩ := awaits_elim s k n idx [] h
  have hq : ((s.entered n idx ti).core n).seq = ((s.core n).seq.append idx ti).enter idx ti :=
    s.seq_setSeq n _ (s.lt_cores_of_running n hrun)
  refine ⟨hst, ?_, ?_⟩
  · rw [hq]
    exact hhold
  · rw [hq]
    exact congrArg (· ++ _) hflow

/-- An instruction that comes to an idle core is issued, and then the core runs it. -/
theorem instruct_idle (s : State) (k n idx : Nat) (ti : TInstr) (h : s.awaits k n idx [] = true)
    (hti : pushesOrStores ti = true ∨ ∃ o, ti = .qSignal o) :
    s.instruct n idx ti = (s.entered n idx ti).settleFor k n 17 := by
  obtain ⟨-, -, hof, hst, hrun, hend, -, -, -, hlen, hpc, hidx⟩ := awaits_elim s k n idx [] h
  have hopen : ((s.suite k).st = 4 && (s.core n).seq.running && !(s.core n).seq.ended && (s.core n).seq.code.length < 65536 &&
      idx < 0x1000000) = true := by
    simp [hst, hrun, hend, hlen, hpc, hidx]
  have hissue : (s.setSeq n (fun q => q.append idx ti)).issue k n = s.entered n idx ti := by
    rw [issue_appended_idle s k n idx ti h, issueOne_enter _ k n idx ti hti, State.setSeq_setSeq]
    rfl
  calc s.instruct n idx ti = ((s.setSeq n (fun q => q.append idx ti)).issue k n).settle k n := by
        simp only [State.instruct, hof, hopen, if_true]
        rfl
    _ = (s.entered n idx ti).settleFor k n 17 := by
        rw [hissue, State.settle, (entered_runsOnly s k n idx ti h).flow]
        rfl

/-- An instruction with none before it waits for no other. -/
theorem blocked_nil (s : State) (k n : Nat) (i : Issued) : s.blocked k n [] i = false := by
  unfold State.blocked
  split <;> rfl

/-- The state after an attempt at an instruction: none where it waits. -/
def State.afterAttempt (s : State) (k n : Nat) (i : Issued) : Attempt → Option State
  | .go true u => some (u.completed n i)
  | .go false u => some u
  | .skip c u => some (s.skipped u k n i c)
  | .overrun u => some (u.haltAt k 1 n i.idx)
  | .wait _ => none
  | .later => none

/-- How a core goes on after an attempt at its only instruction, with `m` pieces of work still to do at once. -/
def State.goesOn (s : State) (k n : Nat) (i : Issued) (a : Attempt) (m : Nat) : State :=
  ((s.afterAttempt k n i a).map (fun t => t.settleFor k n m)).getD s

/-- The wait clause of an instruction is there to be taken up. -/
def State.takesClause (s : State) (k n : Nat) (i : Issued) : Bool := s.clauseReady i && (s.codeOf k n i).isNone

theorem tryFlow_single (s : State) (k n : Nat) (i : Issued) :
    s.tryFlow k n [] [.work i] =
      if s.takesClause k n i then some (s.meetClause k n i.no) else s.afterAttempt k n i (s.attempt k n false i) := by
  rw [State.tryFlow, blocked_nil]
  unfold State.takesClause State.afterAttempt
  cases s.attempt k n false i with
  | go c u => cases c <;> rfl
  | _ => rfl

section
variable {s : State} {k n : Nat} {i : Issued}

/-- Without a guard nothing is speculative. -/
theorem State.RunsOnly.speculate (h : s.RunsOnly k n i) : s.speculate k n = none := by
  have hshape : s.specShape k n false [] [] [.work i] = none := by
    unfold State.specShape
    split <;> simp [State.specShape]
  have hwalk : s.specFlow k n false [] [.work i] = none := by
    unfold State.specFlow
    split <;> simp [State.specFlow]
  rw [State.speculate, h.flow, hshape, hwalk]

theorem State.RunsOnly.work (h : s.RunsOnly k n i) :
    s.work k n = if s.takesClause k n i then some (s.meetClause k n i.no) else s.afterAttempt k n i (s.attempt k n false i) := by
  have hhold : s.tryHold k n = none := by simp [State.tryHold, h.hold]
  rw [State.work, h.running, hhold, h.flow, tryFlow_single, h.speculate]
  cases s.takesClause k n i with
  | true => rfl
  | false => cases s.afterAttempt k n i (s.attempt k n false i) <;> rfl

/-- Once a wait clause has been taken up the instruction stands in flow with that marked. -/
theorem State.RunsOnly.meetClause (h : s.RunsOnly k n i) : (s.meetClause k n i.no).RunsOnly k n { i with met := true } := by
  have hseq : ((s.meetClause k n i.no).core n).seq =
      { (s.core n).seq with flow := [.work { i with met := true }] } := by
    have hn : n < s.cores.length := s.lt_cores_of_flow n (by simp [h.flow])
    simp [State.meetClause, s.seq_setSeq n _ hn, h.flow]
  refine ⟨State.handshake_running _ k h.running, ?_, ?_⟩
  · rw [hseq]
    exact h.hold
  · rw [hseq]

/-- A clause that has been taken up is not taken up again. -/
theorem takesClause_met (h : i.met = true) : s.takesClause k n i = false := by
  simp [State.takesClause, State.clauseReady, h]

/-- A core runs the instruction that it has in flow: one attempt decides how it goes on. -/
theorem State.RunsOnly.settleFor_attempt (h : s.RunsOnly k n i) (hc : s.takesClause k n i = false) (m : Nat) :
    s.settleFor k n (m + 1) = s.goesOn k n i (s.attempt k n false i) m := by
  rw [State.settleFor, h.work, hc, State.goesOn]
  cases s.afterAttempt k n i (s.attempt k n false i) <;> rfl

/-- A satisfied wait clause is taken up first; `readied` says with what the attempt then begins. -/
theorem State.RunsOnly.settleFor_readied (h : s.RunsOnly k n i) :
    let r := s.readied k n i
    s.settleFor k n 17 = r.1.goesOn k n r.2.1 (r.1.attempt k n false r.2.1) r.2.2 := by
  cases hc : s.takesClause k n i with
  | false =>
    have hr : s.readied k n i = (s, i, 16) := if_neg (ne_true_of_eq_false hc)
    rw [hr]
    exact h.settleFor_attempt hc 16
  | true =>
    have hr : s.readied k n i = (s.meetClause k n i.no, { i with met := true }, 15) := if_pos hc
    rw [hr, State.settleFor, h.work, hc]
    exact h.meetClause.settleFor_attempt (takesClause_met rfl) 15

end

theorem readied_idx (s : State) (k n : Nat) (i : Issued) : (s.readied k n i).2.1.idx = i.idx := by
  unfold State.readied
  split <;> rfl

/-- On an idle core one attempt at an engine instruction or a `q.signal` decides the next state. -/
theorem exec_idle (i : Instr) (s : State) (k n idx : Nat) (ti : TInstr) (hi : streamInstr i = some (n, idx, ti))
    (h : s.awaits k n idx [] = true) (hti : pushesOrStores ti = true ∨ ∃ o, ti = .qSignal o) :
    let r := (s.entered n idx ti).readied k n (s.issuedAs n idx ti)
    exec i s = .next (s.sameInputs (r.1.goesOn k n r.2.1 (r.1.attempt k n false r.2.1) r.2.2)) := by
  obtain ⟨hon, hn, -⟩ := awaits_elim s k n idx [] h
  rw [exec_streamInstr i s n idx ti hi, on_next s _ hon _ (decide_eq_true hn), instruct_idle s k n idx ti h hti,
    (entered_runsOnly s k n idx ti h).settleFor_readied]

/-- Settles O20: `exec_idle` for each answer of the attempt. -/
theorem instructionOnIdleCore : Obligations.InstructionOnIdleCore := by
  intro i s k n idx ti hi h hti r a
  have hexec : exec i s = .next (s.sameInputs (r.1.goesOn k n r.2.1 a r.2.2)) := exec_idle i s k n idx ti hi h hti
  have hidx : r.2.1.idx = idx := readied_idx _ k n _
  rw [hexec, ← hidx]
  refine ⟨fun u ha => ?_, fun u ha => ?_, fun c u ha => ?_, fun u ha => ?_, fun w ha => ?_, fun ha => ?_⟩ <;> rw [ha] <;> rfl

end Sys2Proof.Machine

/-! SUPPORT. Proofs about the matrix array: its cushion beats, ramps and check tiles, the seats of its banks, and a core that has a
drain chain with its matrix instruction in flow. -/

namespace Sys2Proof.Machine

/-! ## A core and its array under their updates -/

/-- What an update of a core leaves as it is, it leaves in every core. -/
theorem State.core_setCore_keeps (s : State) (n m : Nat) (f : Core → Core) (p : Core → α) (h : ∀ c, p (f c) = p c) :
    p ((s.setCore n f).core m) = p (s.core m) := by
  by_cases hm : m = n
  · subst hm
    by_cases hlt : m < s.cores.length
    · rw [s.core_setCore m f hlt, h]
    · rw [s.core_of_no_core m hlt, (s.setCore m f).core_of_no_core m (by simpa using hlt)]
  · rw [s.core_setCore_other n m f hm]

theorem State.arr_setArr (s : State) (n : Nat) (f : Arr → Arr) (h : n < s.cores.length) :
    ((s.setArr n f).core n).arr = f (s.core n).arr := by
  rw [State.setArr, State.core_setCore s n _ h]

/-- Two updates of an array are one where they agree on the state that it is in. -/
theorem State.setArr_congr (s : State) (n : Nat) (f g : Arr → Arr) (h : f (s.core n).arr = g (s.core n).arr) :
    s.setArr n f = s.setArr n g :=
  s.setCore_congr n _ _ (congrArg (fun a => { s.core n with arr := a }) h)

/-- Work that is ready for the array is in flow. -/
theorem State.flow_of_matrixReady (s : State) (k n : Nat) (h : s.matrixReady k n = true) : (s.core n).seq.flow ≠ [] := by
  intro hflow
  rw [State.matrixReady, hflow] at h
  cases h

/-! ## What a beat-time does to an array (R74, R75) -/

theorem Arr.cushion_young (a : Arr) (now g : Nat) (hg : a.gapStart = some g) (hm : a.mode = 3) (hr : a.rows = 32)
    (hnow : now < g + 2000) (hb : a.tileBeat < 32) : a.cushion now = { a with tileBeat := a.tileBeat + 1 } := by
  simp [Arr.cushion, hg, hm, hr, hnow, hb]

theorem Arr.rampDown_rows (a : Arr) (now : Nat) (hm : a.mode = 4) (hr : a.rows ≠ 0) :
    a.rampDown now = { a with rows := a.rows - 2 } := by
  simp [Arr.rampDown, hm, hr]

theorem Arr.rampDown_last (a : Arr) (now : Nat) (hm : a.mode = 4) (hr : a.rows = 0) :
    a.rampDown now = { a with mode := 0 } := by
  simp [Arr.rampDown, hm, hr]

/-- A gap of 2 µs is the first beat-time of a ramp-down. -/
theorem Arr.rampDown_gap (a : Arr) (now g : Nat) (hm : a.mode = 3) (hg : a.gapStart = some g) (hnow : g + 2000 ≤ now)
    (hr : a.rows = 32) :
    a.rampDown now = { a with rows := 30, mode := 4, gapStart := none, tileBeat := if a.tileBeat = 32 then 32 else 0 } := by
  simp [Arr.rampDown, Arr.windDown, Arr.tileKept, hm, hg, hnow, hr]

theorem Arr.rampUp_rows (a : Arr) (h : a.rows < 32) :
    a.rampUp = { a with rows := a.rows + 2, mode := 5, gapStart := none, tileBeat := if a.tileBeat = 32 then 32 else 0 } := by
  rw [Arr.rampUp, if_neg (by omega), Arr.tileKept]

/-! ## Commands of the array -/

theorem exec_cushionBeat (s : State) (n : Nat) (f : Arr → Arr) (hon : s.on = true) (hn : n < 32)
    (h : (s.core n).arr.cushion s.now = f (s.core n).arr) : exec (.cushionBeat n) s = .next (s.sameInputs (s.setArr n f)) := by
  rw [← s.setArr_congr n (fun a => a.cushion s.now) f h]
  exact on_next s _ hon _ (decide_eq_true hn)

theorem exec_rampDown (s : State) (n : Nat) (f : Arr → Arr) (hon : s.on = true) (hn : n < 32)
    (h : (s.core n).arr.rampDown s.now = f (s.core n).arr) : exec (.rampDown n) s = .next (s.sameInputs (s.setArr n f)) := by
  rw [← s.setArr_congr n (fun a => a.rampDown s.now) f h]
  exact on_next s _ hon _ (decide_eq_true hn)

theorem exec_rampUp (s : State) (n : Nat) (hon : s.on = true) (hn : n < 32) :
    exec (.rampUp n) s = .next (s.sameInputs (s.rampUpCore n)) :=
  on_next s _ hon _ (decide_eq_true hn)

theorem exec_checkTileCompare (s : State) (n : Nat) (row : Option Nat) (hon : s.on = true) (hn : n < 32) :
    exec (.checkTileCompare n row) s = .next (s.sameInputs (s.compareTile n row)) :=
  on_next s _ hon _ (decide_eq_true hn)

/-- A beat-time of a ramp-up runs while matrix work waits; after the last one the work starts. -/
theorem rampUpCore_ready (s : State) (n k : Nat) (hk : s.runningSuite n = some k) (hready : s.matrixReady k n = true)
    (hr : (s.core n).arr.rows < 32) :
    s.rampUpCore n = if 30 ≤ (s.core n).arr.rows then (s.setArr n Arr.rampUp).rampedUp k n else s.setArr n Arr.rampUp := by
  have hrows : ((s.setArr n Arr.rampUp).core n).arr.rows = (s.core n).arr.rows + 2 := by
    rw [s.arr_setArr n _ (s.lt_cores_of_flow n (s.flow_of_matrixReady k n hready)), Arr.rampUp_rows _ hr]
  simp [State.rampUpCore, State.onRunning, hk, hready, hr, hrows]

theorem rampUpCore_not_ready (s : State) (n k : Nat) (hk : s.runningSuite n = some k) (hready : s.matrixReady k n = false) :
    s.rampUpCore n = s := by
  simp [State.rampUpCore, State.onRunning, hk, hready]

theorem cushionAndRamps : Claims.CushionAndRamps := by
  refine ⟨fun s n g hon hn hg hm hr hnow hb => ?_, fun s n hon hn hm => ⟨fun hr => ?_, fun hr => ?_⟩,
    fun s n g hon hn hm hg hnow hr => ?_, fun s n k hon hn hk hready => ?_, fun s n k hon hn hk hready => ?_⟩
  · exact exec_cushionBeat s n _ hon hn (Arr.cushion_young _ _ g hg hm hr hnow hb)
  · exact exec_rampDown s n _ hon hn (Arr.rampDown_rows _ _ hm hr)
  · exact exec_rampDown s n _ hon hn (Arr.rampDown_last _ _ hm hr)
  · exact exec_rampDown s n _ hon hn (Arr.rampDown_gap _ _ g hm hg hnow hr)
  · intro t
    have ht : (s.core n).arr.rows < 32 → s.setArr n Arr.rampUp = t := fun h => s.setArr_congr n _ _ (Arr.rampUp_rows _ h)
    refine ⟨fun hr => ?_, fun hr => ?_⟩
    · rw [exec_rampUp s n hon hn, rampUpCore_ready s n k hk hready (by omega), if_neg (by omega), ht (by omega)]
    · rw [exec_rampUp s n hon hn, rampUpCore_ready s n k hk hready (by omega), if_pos hr.ge, ht (by omega)]
      rfl
  · rw [exec_rampUp s n hon hn, rampUpCore_not_ready s n k hk hready, State.sameInputs_self]

/-! ## Check tiles (R76, R77) -/

/-- The next check tile of a core follows one that has been compared. -/
def State.nextTile (s : State) (n : Nat) : State :=
  s.setArr n (fun a => { a with tile := (a.tile + 1) % 64, tileBeat := 0, tilesDone := (a.tilesDone + 1) % M48 })

theorem compareTile_incomplete (s : State) (n : Nat) (row : Option Nat) (h : (s.core n).arr.tileBeat ≠ 32) :
    s.compareTile n row = s := by
  simp [State.compareTile, h]

theorem compareTile_match (s : State) (n : Nat) (h : (s.core n).arr.tileBeat = 32) : s.compareTile n none = s.nextTile n := by
  simp [State.compareTile, State.nextTile, h]

theorem compareTile_mismatch (s : State) (n r : Nat) (h : (s.core n).arr.tileBeat = 32) :
    s.compareTile n (some r) = ((s.nextTile n).raiseFault 1 (((s.health.cores[n]?).join).getD n) 0).setArr n
      (fun b => { b with faultTile := some ((s.core n).arr.tile, r % 32) }) := by
  simp [State.compareTile, State.nextTile, h]

theorem checkTileOutcomes : Claims.CheckTileOutcomes := by
  intro s n hon hn t
  refine ⟨fun hb => ?_, fun r hb => ?_, fun row hb => ?_⟩
  · rw [exec_checkTileCompare s n none hon hn, compareTile_match s n hb]
    rfl
  · rw [exec_checkTileCompare s n (some r) hon hn, compareTile_mismatch s n r hb]
    rfl
  · rw [exec_checkTileCompare s n row hon hn, compareTile_incomplete s n row hb, State.sameInputs_self]

/-- Settles O35: the beat-times of the array, and the outcomes of a comparison. -/
theorem arrayBeats : Obligations.ArrayBeats := ⟨cushionAndRamps, checkTileOutcomes⟩

/-! ## A core whose wait clause has been taken up -/

theorem entered_seq (s : State) (n idx : Nat) (ti : TInstr) (h : n < s.cores.length) :
    ((s.entered n idx ti).core n).seq = ((s.core n).seq.append idx ti).enter idx ti :=
  s.seq_setSeq n _ h

theorem readied_instr (s : State) (k n : Nat) (i : Issued) : (s.readied k n i).2.1.instr = i.instr := by
  unfold State.readied
  split <;> rfl

/-- Taking up a wait clause ends no stream. -/
theorem meetClause_ended (s : State) (k n no : Nat) : ((s.meetClause k n no).core n).seq.ended = (s.core n).seq.ended := by
  rw [State.meetClause, State.core_handshake]
  exact s.core_setCore_keeps n n _ (fun c => c.seq.ended) (fun _ => rfl)

theorem readied_ended (s : State) (k n : Nat) (i : Issued) :
    ((s.readied k n i).1.core n).seq.ended = (s.core n).seq.ended := by
  unfold State.readied
  split
  · exact meetClause_ended s k n i.no
  · rfl

theorem State.RunsOnly.readied {s : State} {k n : Nat} {i : Issued} (h : s.RunsOnly k n i) :
    (s.readied k n i).1.RunsOnly k n (s.readied k n i).2.1 := by
  unfold State.readied
  split
  · exact h.meetClause
  · exact h

/-! ## Seats (R64) -/

/-- What a seat makes of its weight entry: with N or nb 0 its bank is empty. -/
def seatResult (o : MxSeatOp) (e : Entry) (c nb : Nat) : Option SeatBank :=
  if c = 0 ∨ nb = 0 then none else some (seatBank e o.wfmt c nb)

/-- The bank that a seat names takes the place of the one before. -/
def seatInto (o : MxSeatOp) (b : Option SeatBank) (a : Arr) : Arr :=
  if o.bankB then { a with bankB := b } else { a with bankA := b }

/-- The weight entry of a seat has the extents of the instruction, or is empty where one of them is 0. -/
def seatTakes (o : MxSeatOp) (e : Entry) (c nb : Nat) : Bool :=
  if c = 0 || nb = 0 then e.isEmpty else e.isBlocks o.wfmt c nb

/-- A seat whose operands are all there fills its bank. -/
theorem trySeat_seats {s t : State} {k n c nb : Nat} {i : Issued} {o : MxSeatOp} {e : Entry} (hcode : s.seatCode k n o = none)
    (hx : extVal i.sh o.n = some c ∧ extVal i.sh o.nb = some nb) (hlim : c ≤ 32 ∧ nb ≤ 128) (hwait : s.clauseWait i o.cl = some [])
    (hops : s.missing n [] [o.w.idx] = [] ∧ s.spaceWaits k n [] (statsDemand o.stats) = [])
    (hpop : s.pop n o.w.idx = some (e, t)) (htakes : seatTakes o e c nb = true) :
    s.trySeat k n i o = .go true
      ((((t.sendAll n i.no (s.withRecord k n i.idx 1 false [] o.stats Counts.zero)).setArr n
        (seatInto o (seatResult o e c nb))).commitOp n i.idx Counts.zero).handshake k) := by
  obtain ⟨hc, hnb⟩ := hx
  obtain ⟨hmissing, hspace⟩ := hops
  have hlim' : (32 < c || 128 < nb) = false := by
    simp
    omega
  have hfits : (if (c = 0 || nb = 0) = true then !e.isEmpty else !e.isBlocks o.wfmt c nb) = false := by
    rw [← apply_ite (fun b : Bool => !b)]
    exact congrArg (fun b => !b) htakes
  simp only [State.trySeat, hcode, hc, hnb, hwait, hlim', hmissing, hspace, hpop, hfits]
  simp [seatResult, State.setArr, seatInto]

theorem seatCompletes : Claims.SeatCompletes := by
  intro s k n idx o h r c nb e t hcode hc hnb hc32 hnb128 hwait hmissing hspace hpop hfits u bank set
  have htakes : seatTakes o e c nb = true := by
    simpa [seatTakes, apply_ite (· = true)] using hfits
  have hattempt : r.1.attempt k n false r.2.1 = r.1.trySeat k n r.2.1 o := by
    rw [State.attempt, readied_instr]
    rfl
  have hidx : r.2.1.idx = idx := readied_idx _ k n _
  rw [exec_idle (.mxSeat n idx o) s k n idx (.mxSeat o) rfl h (.inl rfl), hattempt,
    trySeat_seats hcode ⟨hc, hnb⟩ ⟨hc32, hnb128⟩ hwait ⟨hmissing, hspace⟩ hpop htakes, hidx]
  rfl

/-! ## Chains (R82) -/

/-- A chain that nothing follows waits for its matrix instruction. -/
theorem tryChain_alone (s : State) (k n : Nat) (i : Issued) (o : DrChainOp) (hflow : (s.core n).seq.flow = [.work i])
    (hend : (s.core n).seq.ended = false) (hcode : s.chainCode k n o = none) : s.tryChain k n i o = .later := by
  simp [State.tryChain, hcode, hflow, hend, chainFate]

/-- A chain that another one follows is left unbound. -/
theorem tryChain_followed (s : State) (k n : Nat) (i j : Issued) (o p : DrChainOp) (hflow : (s.core n).seq.flow = [.work i, .work j])
    (hj : j.instr = .drChain p) (hno : i.no < j.no) (hcode : s.chainCode k n o = none) : s.tryChain k n i o = .skip 0x0b s := by
  simp [State.tryChain, hcode, hflow, chainFate, hj, Nat.not_le.mpr hno]

theorem chainBinds : Claims.ChainBinds := by
  refine ⟨?_, fun s k n i j o p hflow _ hj hno hcode => tryChain_followed s k n i j o p hflow hj hno hcode⟩
  intro s k n idx o h r hcode
  have hruns : r.1.RunsOnly k n r.2.1 := (entered_runsOnly s k n idx _ h).readied
  have hend : (r.1.core n).seq.ended = false := by
    obtain ⟨-, -, -, -, hrun, hend, -⟩ := awaits_elim s k n idx [] h
    rw [readied_ended, entered_seq s n idx _ (s.lt_cores_of_running n hrun)]
    exact hend
  have hattempt : r.1.attempt k n false r.2.1 = .later := by
    rw [State.attempt, readied_instr]
    exact tryChain_alone r.1 k n r.2.1 o hruns.flow hend hcode
  rw [exec_idle (.drChain n idx o) s k n idx (.drChain o) rfl h (.inl rfl), hattempt]
  rfl

/-- Settles O22: one attempt at the seat completes it, and one at the chain leaves it in flow. -/
theorem seatAndChain : Obligations.SeatAndChain := ⟨seatCompletes, chainBinds⟩

/-! ## A drain chain with its matrix instruction in flow (R82, R83) -/

/-- The instructions that a `dr.chain` binds to. -/
def bindsChain : TInstr → Bool
  | .mxTile _ => true
  | .mxBench _ => true
  | _ => false

theorem bindsChain_elim (ti : TInstr) (h : bindsChain ti = true) : (∃ o, ti = .mxTile o) ∨ ∃ o, ti = .mxBench o := by
  cases ti with
  | mxTile o => exact .inl ⟨o, rfl⟩
  | mxBench o => exact .inr ⟨o, rfl⟩
  | _ => cases h

/-- Core n of the running suite k has just the chain `ci` and after it its matrix instruction `i` in flow, issue does not hold, and the
chain, whose wait clause is not newly satisfied, has legal operands. -/
structure State.RunsBound (s : State) (k n : Nat) (ci : Issued) (co : DrChainOp) (i : Issued) : Prop where
  running : (s.suite k).st = 4
  hold : (s.core n).seq.hold = none
  flow : (s.core n).seq.flow = [.work ci, .work i]
  chain : ci.instr = .drChain co
  matrix : bindsChain i.instr = true
  order : ci.no < i.no
  clause : s.clauseReady ci = false
  legal : s.chainCode k n co = none

/-- A wait clause that is taken up changes no flag. -/
theorem flagValue_meetClause (s : State) (k n no : Nat) (f : FlagName) : (s.meetClause k n no).flagValue f = s.flagValue f := by
  cases f with
  | core c l => exact congrArg (fun m => (aGet m l).getD 0) (s.core_setCore_keeps n c _ Core.flags (fun _ => rfl))
  | shelf x l => rfl

theorem clauseReady_meetClause (s : State) (k n no : Nat) (i : Issued) : (s.meetClause k n no).clauseReady i = s.clauseReady i := by
  have hflags : (s.meetClause k n no).flagValue = s.flagValue := funext (flagValue_meetClause s k n no)
  rw [State.clauseReady, State.clauseReady, hflags]

section
variable {s : State} {k n : Nat} {ci i : Issued} {co : DrChainOp}

theorem State.RunsBound.lt_cores (h : s.RunsBound k n ci co i) : n < s.cores.length :=
  s.lt_cores_of_flow n (by simp [h.flow])

theorem State.RunsBound.boundChain (h : s.RunsBound k n ci co i) : boundChain (s.core n).seq.flow i.no = some (ci, co) := by
  simp [Machine.boundChain, h.flow, h.chain, Nat.not_le.mpr h.order]

/-- It stays so where the suite runs on with the sequencer as it is. -/
theorem State.RunsBound.of_same_seq (h : s.RunsBound k n ci co i) (t : State) (hst : (t.suite k).st = 4)
    (hseq : (t.core n).seq = (s.core n).seq) (hclause : t.clauseReady ci = false) (hlegal : t.chainCode k n co = none) :
    t.RunsBound k n ci co i :=
  ⟨hst, hseq ▸ h.hold, hseq ▸ h.flow, h.chain, h.matrix, h.order, hclause, hlegal⟩

/-- The chain waits for its matrix instruction, which comes next. -/
theorem State.RunsBound.attempt_chain (h : s.RunsBound k n ci co i) : s.attempt k n false ci = .later := by
  have hfate : chainFate (s.core n).seq.flow ci.no = some true := by
    rw [h.flow, chainFate, if_pos le_rfl, chainFate, if_neg (Nat.not_le.mpr h.order)]
    obtain ⟨o, ho⟩ | ⟨o, ho⟩ := bindsChain_elim _ h.matrix <;> rw [ho]
  rw [State.attempt, h.chain]
  simp only [State.tryChain, h.legal, hfate]

/-- The matrix instruction stands behind nothing but its chain. -/
theorem State.RunsBound.not_blocked (h : s.RunsBound k n ci co i) : s.blocked k n [ci] i = false := by
  have hchain : s.chainOf n i = some ci := by
    obtain ⟨o, ho⟩ | ⟨o, ho⟩ := bindsChain_elim _ h.matrix <;> simp [State.chainOf, ho, h.boundChain]
  simp [State.blocked, hchain, State.conflicts]

theorem State.RunsBound.tryFlow (h : s.RunsBound k n ci co i) :
    s.tryFlow k n [] (s.core n).seq.flow =
      if s.takesClause k n i then some (s.meetClause k n i.no) else s.afterAttempt k n i (s.attempt k n false i) := by
  rw [h.flow, State.tryFlow, blocked_nil, h.clause, h.attempt_chain]
  simp only [Bool.false_eq_true, if_false, Bool.false_and, List.nil_append]
  rw [State.tryFlow, h.not_blocked]
  unfold State.takesClause State.afterAttempt
  cases s.attempt k n false i with
  | go c u => cases c <;> rfl
  | _ => rfl

theorem State.RunsBound.work (h : s.RunsBound k n ci co i) (t : State)
    (ht : (if s.takesClause k n i then some (s.meetClause k n i.no) else s.afterAttempt k n i (s.attempt k n false i)) = some t) :
    s.work k n = some t := by
  have hhold : s.tryHold k n = none := by simp [State.tryHold, h.hold]
  rw [State.work, h.running, hhold, h.tryFlow, ht]
  rfl

/-- Once the wait clause of the matrix instruction has been taken up it stands in flow with that marked. -/
theorem State.RunsBound.meetClause (h : s.RunsBound k n ci co i) (hlegal : (s.meetClause k n i.no).chainCode k n co = none) :
    (s.meetClause k n i.no).RunsBound k n ci co { i with met := true } := by
  have hseq : ((s.meetClause k n i.no).core n).seq =
      { (s.core n).seq with flow := [.work ci, .work { i with met := true }] } := by
    simp [State.meetClause, s.seq_setSeq n _ h.lt_cores, h.flow, h.order.ne]
  refine ⟨State.handshake_running _ k h.running, ?_, ?_, h.chain, h.matrix, h.order, ?_, hlegal⟩
  · rw [hseq]
    exact h.hold
  · rw [hseq]
  · rw [clauseReady_meetClause]
    exact h.clause

theorem State.RunsBound.readied (h : s.RunsBound k n ci co i) (hlegal : (s.readied k n i).1.chainCode k n co = none) :
    (s.readied k n i).1.RunsBound k n ci co (s.readied k n i).2.1 := by
  unfold State.readied at hlegal ⊢
  split
  · rename_i hc
    rw [if_pos hc] at hlegal
    exact h.meetClause hlegal
  · exact h

/-- An attempt that gets on decides how the core goes on. -/
theorem State.RunsBound.settleFor_attempt (h : s.RunsBound k n ci co i) (hc : s.takesClause k n i = false) (t : State)
    (ht : s.afterAttempt k n i (s.attempt k n false i) = some t) (m : Nat) : s.settleFor k n (m + 1) = t.settleFor k n m := by
  rw [State.settleFor, h.work t (by rw [hc]; exact ht)]

/-- A satisfied wait clause is taken up first; `readied` says with what the attempt then begins. -/
theorem State.RunsBound.settleFor_readied (h : s.RunsBound k n ci co i) :
    let r := s.readied k n i
    r.1.chainCode k n co = none → ∀ t, r.1.afterAttempt k n r.2.1 (r.1.attempt k n false r.2.1) = some t →
      s.settleFor k n 18 = t.settleFor k n (r.2.2 + 1) := by
  intro r
  cases hc : s.takesClause k n i with
  | false =>
    have hr : r = (s, i, 16) := if_neg (ne_true_of_eq_false hc)
    rw [hr]
    exact fun _ t ht => h.settleFor_attempt hc t ht 17
  | true =>
    have hr : r = (s.meetClause k n i.no, { i with met := true }, 15) := if_pos hc
    rw [hr, State.settleFor, h.work _ (if_pos hc)]
    exact fun hlegal t ht => (h.meetClause hlegal).settleFor_attempt (takesClause_met rfl) t ht 16

end

/-- An instruction that comes behind an unbound chain is issued at once. -/
theorem issue_appended_bound (s : State) (k n idx : Nat) (ti : TInstr) (ci : Issued) (co : DrChainOp)
    (h : s.awaits k n idx [.work ci] = true) (hci : ci.instr = .drChain co) :
    (s.setSeq n (fun q => q.append idx ti)).issue k n = (s.setSeq n (fun q => q.append idx ti)).issueOne k n idx ti := by
  have hflow : ((s.setSeq n (fun q => q.append idx ti)).core n).seq.flow = [.work ci] := by
    obtain ⟨-, -, -, -, hrun, -, -, -, hflow, -⟩ := awaits_elim s k n idx _ h
    rw [s.seq_setSeq n _ (s.lt_cores_of_running n hrun)]
    exact hflow
  rw [issue_appended s k n idx ti _ h, if_pos]
  simp [Seq.mayIssue, Seq.firstGuard, State.specOverruns, State.specShape, hflow, hci]

theorem entered_runsBound (s : State) (k n idx : Nat) (ti : TInstr) (ci : Issued) (co : DrChainOp)
    (h : s.awaits k n idx [.work ci] = true) (hci : ci.instr = .drChain co) (hti : bindsChain ti = true)
    (hno : ci.no < (s.core n).seq.nextNo) (hclause : (s.entered n idx ti).clauseReady ci = false)
    (hlegal : (s.entered n idx ti).chainCode k n co = none) :
    (s.entered n idx ti).RunsBound k n ci co (s.issuedAs n idx ti) := by
  obtain ⟨-, -, -, hst, hrun, -, hhold, -, hflow, -⟩ := awaits_elim s k n idx _ h
  have hq := entered_seq s n idx ti (s.lt_cores_of_running n hrun)
  refine ⟨hst, ?_, ?_, hci, hti, hno, hclause, hlegal⟩
  · rw [hq]
    exact hhold
  · rw [hq]
    exact congrArg (· ++ _) hflow

/-- A matrix instruction that comes behind its chain is issued, and then the core runs both. -/
theorem instruct_bound (s : State) (k n idx : Nat) (ti : TInstr) (ci : Issued) (co : DrChainOp)
    (h : s.awaits k n idx [.work ci] = true) (hci : ci.instr = .drChain co) (hti : bindsChain ti = true)
    (hflow : ((s.entered n idx ti).core n).seq.flow = [.work ci, .work (s.issuedAs n idx ti)]) :
    s.instruct n idx ti = (s.entered n idx ti).settleFor k n 18 := by
  obtain ⟨-, -, hof, hst, hrun, hend, -, -, -, hlen, hpc, hidx⟩ := awaits_elim s k n idx _ h
  have hopen : ((s.suite k).st = 4 && (s.core n).seq.running && !(s.core n).seq.ended && (s.core n).seq.code.length < 65536 &&
      idx < 0x1000000) = true := by
    simp [hst, hrun, hend, hlen, hpc, hidx]
  have hpushes : pushesOrStores ti = true := by
    obtain ⟨o, rfl⟩ | ⟨o, rfl⟩ := bindsChain_elim ti hti <;> rfl
  have hissue : (s.setSeq n (fun q => q.append idx ti)).issue k n = s.entered n idx ti := by
    rw [issue_appended_bound s k n idx ti ci co h hci, issueOne_enter _ k n idx ti (.inl hpushes), State.setSeq_setSeq]
    rfl
  calc s.instruct n idx ti = ((s.setSeq n (fun q => q.append idx ti)).issue k n).settle k n := by
        simp only [State.instruct, hof, hopen, if_true]
        rfl
    _ = (s.entered n idx ti).settleFor k n 18 := by
        rw [hissue, State.settle, hflow]
        rfl

/-- On a core whose flow holds just its chain one attempt at a matrix instruction that gets on decides what comes next. -/
theorem exec_bound (i : Instr) (s : State) (k n idx : Nat) (ti : TInstr) (ci : Issued) (co : DrChainOp)
    (hi : streamInstr i = some (n, idx, ti)) (h : s.awaits k n idx [.work ci] = true)
    (hruns : (s.entered n idx ti).RunsBound k n ci co (s.issuedAs n idx ti)) :
    let r := (s.entered n idx ti).readied k n (s.issuedAs n idx ti)
    r.1.chainCode k n co = none → ∀ t, r.1.afterAttempt k n r.2.1 (r.1.attempt k n false r.2.1) = some t →
      exec i s = .next (s.sameInputs (t.settleFor k n (r.2.2 + 1))) := by
  intro r hlegal t ht
  obtain ⟨hon, hn, -⟩ := awaits_elim s k n idx _ h
  rw [exec_streamInstr i s n idx ti hi, on_next s _ hon _ (decide_eq_true hn),
    instruct_bound s k n idx ti ci co h hruns.chain hruns.matrix hruns.flow, hruns.settleFor_readied hlegal t ht]

/-! ## Tiles (R65, R66, R83) -/

section
variable {s t : State} {k n m c nb : Nat} {ci i : Issued} {co : DrChainOp} {cw : List Nat} {e : Entry}

theorem ramped_go (h : 32 ≤ (s.core n).arr.rows) (dry b : Bool) : s.ramped n dry (.go b t) = .go b t := by
  simp [State.ramped, h]

/-- A tile whose operands are all there starts on its seated bank. -/
theorem State.RunsBound.tryTile {o : MxTileOp} {b : SeatBank} (h : s.RunsBound k n ci co i) (hcode : s.tileCode k n i o = none)
    (hx : extVals i.sh [o.m, o.n, o.nb] = some [m, c, nb])
    (hwait : s.clauseWait i o.cl = some [] ∧ s.clauseWait ci co.cl = some cw)
    (hpos : m ≠ 0 ∧ c ≠ 0 ∧ nb ≠ 0) (hlim : m ≤ 65536 ∧ c ≤ 32 ∧ nb ≤ 128)
    (hbank : (if o.bankB then (s.core n).arr.bankB else (s.core n).arr.bankA) = some b) (hseated : c ≤ b.n ∧ nb ≤ b.nb)
    (hops : s.missing n [] [o.act.idx] = [] ∧ s.spaceWaits k n [] (statsDemand o.stats) = [] ∧ s.chainWaits k n ci co m c = [])
    (hpop : s.pop n o.act.idx = some (e, t)) (hblocks : e.isBlocks o.afmt m nb = true) (dry : Bool) :
    let out := tileOut (s.suite k).flush o.fused o.afmt e b m c nb
    s.tryTile k n i o dry =
      s.ramped n dry (t.finishMatrix k n i o.stats o.fused ci co m c out (lastPass o.fused m c out.data)) := by
  obtain ⟨hw, hcw⟩ := hwait
  obtain ⟨hm, hc, hnb⟩ := hpos
  obtain ⟨hmissing, hspace, hchain⟩ := hops
  have hempty : (m = 0 || c = 0 || nb = 0) = false := by simp [hm, hc, hnb]
  have hover : (65536 < m || 32 < c || 128 < nb) = false := by
    simp
    omega
  have hunseated : (b.n < c || b.nb < nb) = false := by
    simp
    omega
  simp only [State.tryTile, hcode, h.boundChain, hx, hw, hcw, hempty, hover, Bool.false_eq_true, if_false, hbank, hmissing, hspace, hchain,
    hpop, hblocks, hunseated]
  rfl

end

/-- Settles O23: one attempt at the tile completes it with its chain. -/
theorem tileCompletes : Obligations.TileCompletes := by
  intro s k n idx o ci co hci h hno hclause r m c nb cw b e t u hlegal0 hlegal hcode hx hw hcw hm hc hnb hm' hc' hnb' hbank hcn hbnb
    hmissing hspace hchain hpop hblocks hrows out hfinish
  have hruns := entered_runsBound s k n idx (.mxTile o) ci co h hci rfl hno hclause hlegal0
  have hruns1 : r.1.RunsBound k n ci co r.2.1 := hruns.readied hlegal
  have hattempt : r.1.attempt k n false r.2.1 = .go true u := by
    rw [State.attempt, readied_instr]
    calc r.1.tryTile k n r.2.1 o false
        = r.1.ramped n false (t.finishMatrix k n r.2.1 o.stats o.fused ci co m c out (lastPass o.fused m c out.data)) :=
          hruns1.tryTile hcode hx ⟨hw, hcw⟩ ⟨hm, hc, hnb⟩ ⟨hm', hc', hnb'⟩ hbank ⟨hcn, hbnb⟩ ⟨hmissing, hspace, hchain⟩ hpop hblocks false
      _ = .go true u := (congrArg _ hfinish).trans (ramped_go hrows false true)
  refine exec_bound (.mxTile n idx o) s k n idx (.mxTile o) ci co rfl h hruns hlegal (u.completed n r.2.1) ?_
  rw [hattempt]
  rfl

/-! ## Benches (R67 to R70) -/

/-- Granules that go back to a producer leave the suites and every sequencer as they are. -/
theorem giveBack_keeps (s : State) (n qi : Nat) (x : QueueEnd) (e : Entry) (j : Nat) :
    (s.giveBack n qi x e).suites = s.suites ∧ ((s.giveBack n qi x e).core j).seq = (s.core j).seq := by
  unfold State.giveBack
  split
  · unfold State.oweCredit
    split <;> exact ⟨rfl, rfl⟩
  · split
    · exact ⟨rfl, rfl⟩
    · split <;> exact ⟨rfl, s.core_setCore_keeps _ j _ Core.seq (fun _ => rfl)⟩

/-- A pop leaves the suites and every sequencer as they are. -/
theorem pop_keeps (s t : State) (n qi : Nat) (e : Entry) (h : s.pop n qi = some (e, t)) (j : Nat) :
    t.suites = s.suites ∧ (t.core j).seq = (s.core j).seq := by
  unfold State.pop State.popAt at h
  split at h
  · cases h
  · rename_i x _
    split at h
    · cases h
    · cases h
      obtain ⟨hsuites, hseq⟩ := giveBack_keeps (s.setQueue n qi (fun y =>
        { y with entries := y.entries.eraseIdx 0, used := y.used - e.granules })) n qi x e j
      exact ⟨hsuites, hseq.trans (s.core_setCore_keeps n j _ Core.seq (fun _ => rfl))⟩

/-- A bench that has popped its activations and taken no step. -/
def BenchRun.start (i : Issued) (act : Entry) : BenchRun :=
  { i := i, act := act, step := 0, bank0 := none, bank1 := none, acc := [] }

/-- The bench of core n has started (R68). -/
def State.startBench (s : State) (k n : Nat) (b : BenchRun) : State :=
  (s.setArr n (fun a => { a with bench := some b })).handshake k

theorem startBench_bench (s : State) (k n : Nat) (b : BenchRun) (h : n < (s.startBench k n b).cores.length) :
    ((s.startBench k n b).core n).arr.bench = some b := by
  have hn : n < s.cores.length := by simpa [State.startBench, State.handshake, State.setArr] using h
  rw [State.startBench, State.core_handshake, s.arr_setArr n _ hn]

section
variable {s t : State} {k n m c nb : Nat} {ci i : Issued} {co : DrChainOp} {w cw : List Nat} {e : Entry} {o : MxBenchOp}

theorem State.RunsBound.startBench (h : s.RunsBound k n ci co i) (hpop : s.pop n o.act.idx = some (e, t)) (b : BenchRun)
    (hclause : (t.startBench k n b).clauseReady ci = false) (hlegal : (t.startBench k n b).chainCode k n co = none) :
    (t.startBench k n b).RunsBound k n ci co i := by
  obtain ⟨hsuites, hseq⟩ := pop_keeps s t n o.act.idx e hpop n
  refine h.of_same_seq _ (State.handshake_running _ k ?_) ?_ hclause hlegal
  · exact (congrArg (fun l => (l.getD k Suite.free).st) hsuites).trans h.running
  · rw [State.startBench, State.core_handshake, ← hseq]
    exact t.core_setCore_keeps n n _ Core.seq (fun _ => rfl)

/-- Extents within the limits of R71 are none of those for which a bench is skipped. -/
theorem within_benchLimits (h : m ≤ 256 ∧ c ≤ 1024 ∧ nb ≤ 4096 ∧ (o.fused = true → c ≤ 32)) :
    (256 < m || 1024 < c || 4096 < nb || (o.fused && 32 < c)) = false := by
  simpa [and_assoc] using h

/-- A bench whose operands are all there starts with its activations. -/
theorem State.RunsBound.tryBench_starts (h : s.RunsBound k n ci co i) (hcode : s.benchCode k n i o = none)
    (hx : extVals i.sh [o.m, o.n, o.nb] = some [m, c, nb])
    (hwait : s.clauseWait i o.cl = some [] ∧ s.clauseWait ci co.cl = some cw)
    (hpos : m ≠ 0 ∧ c ≠ 0 ∧ nb ≠ 0) (hlim : m ≤ 256 ∧ c ≤ 1024 ∧ nb ≤ 4096 ∧ (o.fused = true → c ≤ 32))
    (hfree : (s.core n).arr.bench = none)
    (hops : s.missing n [] [o.act.idx] = [] ∧ s.spaceWaits k n [] (statsDemand o.stats) = [] ∧ s.chainWaits k n ci co m c = [])
    (hpop : s.pop n o.act.idx = some (e, t)) (hblocks : e.isBlocks o.afmt m nb = true) (dry : Bool) :
    s.tryBench k n i o dry = .go false (t.startBench k n (.start i e)) := by
  obtain ⟨hw, hcw⟩ := hwait
  obtain ⟨hm, hc, hnb⟩ := hpos
  obtain ⟨hmissing, hspace, hchain⟩ := hops
  have hempty : (m = 0 || c = 0 || nb = 0) = false := by simp [hm, hc, hnb]
  simp only [State.tryBench, hcode, h.boundChain, hx, hw, hcw, hempty, within_benchLimits hlim, Bool.false_eq_true, if_false, hfree,
    hmissing, hspace, hchain, hpop, hblocks]
  rfl

/-- A bench that has started goes on with its steps. -/
theorem State.RunsBound.tryBench_steps {b : BenchRun} (h : s.RunsBound k n ci co i) (hcode : s.benchCode k n i o = none)
    (hx : extVals i.sh [o.m, o.n, o.nb] = some [m, c, nb])
    (hwait : s.clauseWait i o.cl = some w ∧ s.clauseWait ci co.cl = some cw)
    (hlim : m ≤ 256 ∧ c ≤ 1024 ∧ nb ≤ 4096 ∧ (o.fused = true → c ≤ 32))
    (hbench : (s.core n).arr.bench = some b) (dry : Bool) :
    s.tryBench k n i o dry = s.stepBench k n i o ci co m c nb b dry := by
  obtain ⟨hw, hcw⟩ := hwait
  simp only [State.tryBench, hcode, h.boundChain, hx, hw, hcw, within_benchLimits hlim, hbench]
  rfl

/-- After the last step the accumulator region goes through the drain operation. -/
theorem stepBench_finishes {b b2 : BenchRun} (hstart : b.step = 0)
    (hsteps : s.popSteps n o (s.suite k).flush m c nb b (benchSteps o.wfmt nb o.fused) = (t, b2, true))
    (hlast : benchSteps o.wfmt nb o.fused ≤ b2.step) (dry : Bool) :
    s.stepBench k n i o ci co m c nb b dry =
      s.ramped n dry (t.finishMatrix k n i o.stats o.fused ci co m c (lanesOf b2.acc) []) := by
  simp only [State.stepBench, hstart, Nat.sub_zero, hsteps, if_pos hlast]

end

/-- Settles O24: the first attempt at the bench starts it, and the second completes it with its chain. -/
theorem benchCompletes : Obligations.BenchCompletes := by
  intro s k n idx o ci co hci h hno hclause r m c nb cw e t hlegal0 hlegal hcode hx hw hcw hm hc hnb hm' hc' hnb' hfused hfree hmissing
    hspace hchain hpop hblocks b0 s2 w2 cw2 t2 u b2 hclause2 hready2 hlegal2 hcode2 hw2 hcw2 hrows hsteps hlast hfinish
  have hruns := entered_runsBound s k n idx (.mxBench o) ci co h hci rfl hno hclause hlegal0
  have hruns1 : r.1.RunsBound k n ci co r.2.1 := hruns.readied hlegal
  have hruns2 : s2.RunsBound k n ci co r.2.1 := hruns1.startBench hpop b0 hclause2 hlegal2
  have hinstr : r.2.1.instr = .mxBench o := readied_instr _ k n _
  have hbench : (s2.core n).arr.bench = some b0 := startBench_bench t k n b0 hruns2.lt_cores
  have hattempt : r.1.attempt k n false r.2.1 = .go false s2 := by
    rw [State.attempt, hinstr]
    exact hruns1.tryBench_starts hcode hx ⟨hw, hcw⟩ ⟨hm, hc, hnb⟩ ⟨hm', hc', hnb', hfused⟩ hfree ⟨hmissing, hspace, hchain⟩ hpop
      hblocks false
  have hattempt2 : s2.attempt k n false r.2.1 = .go true u := by
    rw [State.attempt, hinstr]
    calc s2.tryBench k n r.2.1 o false = s2.stepBench k n r.2.1 o ci co m c nb b0 false :=
          hruns2.tryBench_steps hcode2 hx ⟨hw2, hcw2⟩ ⟨hm', hc', hnb', hfused⟩ hbench false
      _ = s2.ramped n false (t2.finishMatrix k n r.2.1 o.stats o.fused ci co m c (lanesOf b2.acc) []) :=
          stepBench_finishes rfl hsteps hlast false
      _ = .go true u := (congrArg _ hfinish).trans (ramped_go hrows false true)
  rw [exec_bound (.mxBench n idx o) s k n idx (.mxBench o) ci co rfl h hruns hlegal s2 (by rw [hattempt]; rfl),
    hruns2.settleFor_attempt (by rw [State.takesClause, hready2]; rfl) (u.completed n r.2.1) (by rw [hattempt2]; rfl)]

end Sys2Proof.Machine

/-! SUPPORT. Proofs about the drain operation: what it does with the lanes that its matrix instruction hands it. -/

namespace Sys2Proof.Machine

/-! ## The drain operation of a matrix instruction (R83 to R106) -/

/-- Settles O25. Each hypothesis decides one test of the drain operation, in its order: the suite's program has the chain and the chain
its quantising stage, the chain's operands are popped, and the extents are those that its stages need. -/
theorem finishMatrix : Obligations.FinishMatrix := by
  intro s k n i stats fused ci co m cols r main l q es t hchain hquant hpop hfits
  have hstages : ((s.suite k).chain co.chain).bind quantOf = some q := by rw [hchain, Option.bind_some, hquant]
  have hruns : ¬ (!drainFits l q m cols (drainIn co es)) = true := by simp [hfits]
  rw [State.finishMatrix, hstages, hchain, hpop]
  exact if_neg hruns

end Sys2Proof.Machine

/-! SUPPORT. Proofs about waits and the ends of queues: the stall watchdog, waits that are satisfied, arrivals and credits, and the
receivers of a multicast group. -/

namespace Sys2Proof.Machine

/-! ## What a halt does to the suites (R167) -/

/-- What an update of a suite leaves as it is, it leaves in every suite. -/
theorem State.suite_setSuite_keeps (s : State) (k j : Nat) (f : Suite → Suite) (p : Suite → α) (h : ∀ x, p (f x) = p x) :
    p ((s.setSuite k f).suite j) = p (s.suite j) := by
  by_cases hj : j = k
  · subst hj
    by_cases hlt : j < s.suites.length
    · rw [s.suite_setSuite j f hlt, h]
    · rw [State.suite, State.suite, List.getD_eq_default _ _ (by simpa using hlt), List.getD_eq_default _ _ (by simpa using hlt)]
  · rw [s.suite_setSuite_other k j f hj]

/-- From s to t no other suite than k changes, and suite k keeps its state, its cause and the time of its halt. -/
structure State.KeepsHalt (k : Nat) (s t : State) : Prop where
  st : (t.suite k).st = (s.suite k).st
  cause : (t.suite k).cause = (s.suite k).cause
  haltTime : (t.suite k).haltTime = (s.suite k).haltTime
  others : ∀ j, j ≠ k → t.suite j = s.suite j

theorem State.KeepsHalt.of_suites {k : Nat} {s t : State} (h : t.suites = s.suites) : State.KeepsHalt k s t := by
  have hsuite : ∀ j, t.suite j = s.suite j := fun j => congrArg (fun l => l.getD j Suite.free) h
  exact ⟨congrArg Suite.st (hsuite k), congrArg Suite.cause (hsuite k), congrArg Suite.haltTime (hsuite k), fun j _ => hsuite j⟩

theorem State.KeepsHalt.trans {k : Nat} {s t u : State} (h : State.KeepsHalt k s t) (g : State.KeepsHalt k t u) :
    State.KeepsHalt k s u :=
  ⟨g.st.trans h.st, g.cause.trans h.cause, g.haltTime.trans h.haltTime, fun j hj => (g.others j hj).trans (h.others j hj)⟩

theorem setSuite_keepsHalt (s : State) (k : Nat) (f : Suite → Suite) (hst : ∀ x, (f x).st = x.st)
    (hcause : ∀ x, (f x).cause = x.cause) (htime : ∀ x, (f x).haltTime = x.haltTime) : State.KeepsHalt k s (s.setSuite k f) :=
  ⟨s.suite_setSuite_keeps k k f Suite.st hst, s.suite_setSuite_keeps k k f Suite.cause hcause,
    s.suite_setSuite_keeps k k f Suite.haltTime htime, fun j hj => s.suite_setSuite_other k j f hj⟩

theorem unreserve_suites (s : State) (k : Nat) (resv : List Nat) : (s.unreserve k resv).suites = s.suites := by
  refine List.foldlRecOn (motive := fun (t : State) => t.suites = s.suites) _ _ rfl (fun t ht e _ => ?_)
  split
  · exact ht
  · exact ht

theorem haltEntry_keepsHalt (s : State) (k cause : Nat) : State.KeepsHalt k s (s.haltEntry k cause) := by
  unfold State.haltEntry
  split
  · split
    · exact (State.KeepsHalt.of_suites (unreserve_suites s k _)).trans
        (setSuite_keepsHalt _ k _ (fun _ => rfl) (fun _ => rfl) (fun _ => rfl))
    · exact .of_suites rfl
  · exact .of_suites rfl

theorem endRows_keepsHalt (s : State) (k status cause : Nat) : State.KeepsHalt k s (s.endRows k status cause) := by
  refine State.KeepsHalt.trans (.of_suites ?_) (setSuite_keepsHalt _ k _ (fun _ => rfl) (fun _ => rfl) (fun _ => rfl))
  refine List.foldlRecOn (motive := fun (t : State) => t.suites = s.suites) _ _ rfl (fun t ht r _ => ?_)
  split
  · exact ht
  · exact ht

theorem dueState_suites (s : State) (k st cause : Nat) : (s.dueState k st cause).suites = s.suites := rfl

/-- What a suite-local halt does to its suite. -/
def Suite.halted (x : Suite) (cause core now : Nat) : Suite :=
  { x with st := 5, cause := cause, haltCore := core, haltTime := now, groups := [] }

/-- A halt reports and discards what its suite was doing, which leaves the marks of the halt as they are. -/
theorem haltSuite_keepsHalt (s : State) (k cause n idx : Nat) (raised : Nat → Nat) :
    State.KeepsHalt k (s.setSuite k (fun x => x.halted cause n s.now)) (s.haltSuite k cause n idx raised) := by
  unfold State.haltSuite
  refine .trans ?_ (.of_suites (State.notice_suites _ _ _ _ _))
  refine .trans ?_ (.of_suites (dueState_suites _ _ _ _))
  refine .trans ?_ (endRows_keepsHalt _ k 1 cause)
  refine .trans ?_ (haltEntry_keepsHalt _ k cause)
  exact .of_suites rfl

theorem suite_haltSuite (s : State) (k cause n idx : Nat) (raised : Nat → Nat) (hk : k < s.suites.length) :
    let t := s.haltSuite k cause n idx raised
    (t.suite k).st = 5 ∧ (t.suite k).cause = cause ∧ (t.suite k).haltTime = s.now ∧ ∀ j, j ≠ k → t.suite j = s.suite j := by
  obtain ⟨hst, hcause, htime, hothers⟩ := haltSuite_keepsHalt s k cause n idx raised
  rw [State.suite_setSuite _ _ _ hk] at hst hcause htime
  exact ⟨hst, hcause, htime, fun j hj => (hothers j hj).trans (s.suite_setSuite_other k j _ hj)⟩

/-! ## The stall watchdog (R238 to R240) -/

theorem foldl_setCore_frame (l : List α) (n : α → Nat) (f : α → Core → Core) (s : State) :
    ∃ c, l.foldl (fun t e => t.setCore (n e) (f e)) s = { s with cores := c } := by
  refine List.foldlRecOn (motive := fun (t : State) => ∃ c, t = { s with cores := c }) _ _ ⟨s.cores, rfl⟩ (fun t ht e _ => ?_)
  obtain ⟨c, rfl⟩ := ht
  exact ⟨_, rfl⟩

/-- A stall halt is a halt with cause 2 after the cores have recorded their waits (R240). -/
theorem stallHalt_haltSuite (s : State) (k : Nat) :
    ∃ c n idx raised, s.stallHalt k = State.haltSuite { s with cores := c } k 2 n idx raised := by
  obtain ⟨c, hc⟩ := foldl_setCore_frame ((coresOf (s.suite k).mask).map (fun n => (n, s.stallRecord k n))) Prod.fst
    (fun r c => { c with stallWait := (List.range 4).map (fun i => r.2.2.1.getD i 0), stallChip := r.2.2.2 }) s
  unfold State.stallHalt
  dsimp only
  rw [hc]
  exact ⟨c, _, _, _, rfl⟩

theorem suite_stallHalt (s : State) (k : Nat) (hk : k < s.suites.length) :
    ((s.stallHalt k).suite k).st = 5 ∧ ((s.stallHalt k).suite k).cause = 2 ∧ ((s.stallHalt k).suite k).haltTime = s.now ∧
      ∀ j, j ≠ k → (s.stallHalt k).suite j = s.suite j := by
  obtain ⟨c, n, idx, raised, h⟩ := stallHalt_haltSuite s k
  rw [h]
  exact suite_haltSuite { s with cores := c } k 2 n idx raised hk

theorem stallExpiry_due (s : State) (k : Nat) (hst : (s.suite k).st = 4) (hover : s.kernelOver k = false)
    (hnow : (s.suite k).stallFrom + (s.suite k).stall * 1000 ≤ s.now) : s.stallExpiry k = s.stallHalt k := by
  simp [State.stallExpiry, hst, hover, hnow]

theorem stallExpiry_not_due (s : State) (k : Nat)
    (h : (s.suite k).st ≠ 4 ∨ s.kernelOver k = true ∨ s.now < (s.suite k).stallFrom + (s.suite k).stall * 1000) :
    s.stallExpiry k = s := by
  refine if_neg ?_
  obtain hst | hover | hnow := h
  · simp [hst]
  · simp [hover]
  · simp [Nat.not_le_of_lt hnow]

theorem exec_stallWatchdogExpiry (s : State) (k : Nat) :
    exec (.stallWatchdogExpiry k) s = onUnit (k < 32) s (s.stallExpiry k) := rfl

theorem stallWatchdog : Claims.StallWatchdog := by
  refine fun s k hk => ⟨fun hon hst hover hnow hlen => ⟨s.stallHalt k, ?_, rfl, suite_stallHalt s k hlen⟩, fun h => ?_⟩
  · rw [exec_stallWatchdogExpiry, stallExpiry_due s k hst hover hnow, on_next s _ hon _ (decide_eq_true hk)]
  · rw [exec_stallWatchdogExpiry, stallExpiry_not_due s k h, self_next s _ (decide_eq_true hk)]

/-! ## Waits (R121, R155, R165) -/

/-- R121: the value has reached or passed the target in serial-number arithmetic. -/
theorem flagMet_iff (f v : Nat) (hv : v < 0x100000000) :
    flagMet f v = true ↔ ((f : Int) - v) % 0x100000000 < 0x80000000 := by
  have hdiff : (((f + M32 - v % M32) % M32 : Nat) : Int) = ((f : Int) - v) % 0x100000000 := by
    rw [M32]
    omega
  rw [flagMet, decide_eq_true_iff, ← hdiff]
  omega

/-- A core that holds at no wait and has nothing in flow has no work. -/
theorem work_idle (s : State) (k n : Nat) (hhold : s.tryHold k n = none) (hflow : (s.core n).seq.flow = []) : s.work k n = none := by
  have hspec : s.speculate k n = none := by
    rw [State.speculate, hflow, State.specShape, State.specFlow]
  rw [State.work, hhold, hflow, hspec]
  exact ite_self _

theorem settleFor_idle (s : State) (k n m : Nat) (h : s.work k n = none) : s.settleFor k n m = s := by
  cases m with
  | zero => rfl
  | succ m => rw [State.settleFor, h]

theorem settleFor_step {s t : State} {k n : Nat} (m : Nat) (h : s.work k n = some t) :
    s.settleFor k n (m + 1) = t.settleFor k n m := by
  rw [State.settleFor, h]

/-- The sequencer after a satisfied wait at which issue held. -/
def Seq.pastHold (q : Seq) : Seq := { (q.goto (q.pc + 1)) with hold := none }

theorem Seq.pastHold_flow (q : Seq) : q.pastHold.flow = q.flow := rfl

/-- A core that moves on past a satisfied wait makes a handshake of its suite (R165). -/
def State.passHold (s : State) (k n : Nat) : State := (s.setSeq n Seq.pastHold).handshake k

theorem passHold_seq (s : State) (k n : Nat) (hn : n < s.cores.length) :
    ((s.passHold k n).core n).seq = (s.core n).seq.pastHold := by
  rw [State.passHold, State.core_handshake, s.seq_setSeq n _ hn]

theorem tryHold_none (s : State) (k n : Nat) (h : (s.core n).seq.hold = none) : s.tryHold k n = none := by
  rw [State.tryHold, h]

section
variable {s : State} {k n no idx v : Nat} {f : FlagName} (hhold : (s.core n).seq.hold = some (no, idx, f, v))
include hhold

theorem tryHold_met (hmet : flagMet (s.flagValue f) v = true) (hflow : (s.core n).seq.flow = []) :
    s.tryHold k n = some (s.passHold k n) := by
  have hguards : (s.core n).seq.guards = 0 := by simp [Seq.guards, hflow]
  simp only [State.tryHold, hhold, hmet, hguards, if_true]
  rfl

theorem tryHold_unmet (hmet : flagMet (s.flagValue f) v = false) : s.tryHold k n = none := by
  simp [State.tryHold, hhold, hmet]

theorem settle_unmet (hmet : flagMet (s.flagValue f) v = false) (hflow : (s.core n).seq.flow = []) : s.settle k n = s :=
  settleFor_idle s k n _ (work_idle s k n (tryHold_unmet hhold hmet) hflow)

/-- A satisfied wait is the only work of a core with nothing in flow. -/
theorem settle_met (hst : (s.suite k).st = 4) (hmet : flagMet (s.flagValue f) v = true) (hflow : (s.core n).seq.flow = []) :
    s.settle k n = s.passHold k n := by
  have hn : n < s.cores.length := by
    by_contra hn
    rw [s.core_of_no_core n hn] at hhold
    cases hhold
  have hwork : s.work k n = some (s.passHold k n) := by
    simp [State.work, hst, tryHold_met hhold hmet hflow]
  have hidle : (s.passHold k n).work k n = none := by
    refine work_idle _ k n (tryHold_none _ k n ?_) ?_
    · rw [passHold_seq s k n hn, Seq.pastHold]
    · rw [passHold_seq s k n hn, Seq.pastHold_flow, hflow]
  rw [State.settle, hflow, List.length_nil, settleFor_step 15 hwork, settleFor_idle _ k n 15 hidle]

end

theorem onRunning_running {s : State} {n k : Nat} (hk : s.runningSuite n = some k) (g : Nat → State) : s.onRunning n g = g k := by
  rw [State.onRunning, hk]

theorem exec_waitSatisfied (s : State) (n k : Nat) (hon : s.on = true) (hn : n < 32) (hk : s.runningSuite n = some k) :
    exec (.waitSatisfied n) s = .next (s.sameInputs (s.settle k n)) := by
  rw [← onRunning_running hk (fun k => s.settle k n)]
  exact on_next s _ hon _ (decide_eq_true hn)

theorem exec_walkGuardSatisfied (s : State) (n e k : Nat) (hon : s.on = true) (hn : n < 32) (he : e < 4)
    (hk : s.runningSuite n = some k) : exec (.walkGuardSatisfied n e) s = .next (s.sameInputs (s.settle k n)) := by
  rw [← onRunning_running hk (fun k => s.settle k n)]
  exact on_next s _ hon _ (by simp [hn, he])

theorem waitSatisfied : Claims.WaitSatisfied := by
  refine ⟨fun f v _ hv => flagMet_iff f v hv, fun s n k no idx v f hon hn hk hst hhold hmet hflow => ?_,
    fun s n k no idx v f hon hn hk hhold hmet hflow => ?_, fun s n e k hon hn he hk => exec_walkGuardSatisfied s n e k hon hn he hk,
    fun s n k hon hn hk => exec_waitSatisfied s n k hon hn hk⟩
  · rw [exec_waitSatisfied s n k hon hn hk, settle_met hhold hst hmet hflow]
    rfl
  · rw [exec_waitSatisfied s n k hon hn hk, settle_unmet hhold hmet hflow, State.sameInputs_self]

/-- Settles O33: the watchdog's two outcomes, and the waits of a sequencer and of a walk. -/
theorem waitsAndStalls : Obligations.WaitsAndStalls := ⟨stallWatchdog, waitSatisfied⟩

/-! ## Arrivals and credits (R114 to R117, R129) -/

theorem exec_entryArrival (s : State) (n qi src : Nat) (rival : Bool) (hon : s.on = true) (hn : n < 32) (hsrc : src < 32) :
    exec (.entryArrival n qi src rival) s = .next (s.sameInputs (s.arrive n qi src rival)) :=
  on_next s _ hon _ (by simp [hn, hsrc])

theorem exec_creditReturn (s : State) (n qi src : Nat) (hon : s.on = true) (hn : n < 32) (hsrc : src < 32) :
    exec (.creditReturn n qi src) s = .next (s.sameInputs (s.returnCredit n qi src)) :=
  on_next s _ hon _ (by simp [hn, hsrc])

/-- A push of the flight stands at the end of its queue end's entries. -/
def State.received (s : State) (n qi : Nat) (p : Push) : State :=
  ({ s with flight := s.flight.erase p } : State).setQueue n qi (fun y =>
    { y with entries := y.entries ++ [p.entry], used := y.used + p.gr })

/-- The order of two producers' entries at a merge queue was a choice, which the suite counts (R117). -/
def State.countMerge (s : State) (k : Nat) : State :=
  s.setSuite k (fun y => { y with tdc := (y.tdc + 1) % M48, merged := true })

section
variable {s : State} {n qi src k : Nat} {p : Push} {x : QueueEnd} (hk : s.suiteOf n = some k)
  (hp : s.flight.find? (fun p => p.core = n && p.qi = qi && p.src = src) = some p) (hx : aGet (s.core n).queues qi = some x)
include hk hp hx

theorem arrive_halted (rival : Bool) (hst : (s.suite k).st = 5) : s.arrive n qi src rival = s.discardPush p := by
  simp only [State.arrive, hp, hk, hx, hst, if_true]

theorem arrive_unrivalled (rival : Bool) (hst : (s.suite k).st ≠ 5)
    (hchoice : x.merge = false ∨ rival = false ∨ s.rivalAt n qi src = false) :
    s.arrive n qi src rival = (s.received n qi p).onRunning n (fun j => (s.received n qi p).settle j n) := by
  have hno : (x.merge && rival && s.rivalAt n qi src) = false := by
    obtain h | h | h := hchoice <;> simp [h]
  simp only [State.arrive, hp, hk, hx, if_neg hst, hno]
  rfl

theorem arrive_merged (hst : (s.suite k).st ≠ 5) (hmerge : x.merge = true) (hrival : s.rivalAt n qi src = true) :
    s.arrive n qi src true =
      ((s.received n qi p).countMerge k).onRunning n (fun j => ((s.received n qi p).countMerge k).settle j n) := by
  simp only [State.arrive, hp, hk, hx, if_neg hst, hmerge, hrival]
  rfl

end

theorem returnCredit_found (s : State) (n qi src : Nat) (x : QueueEnd) (c : Credit) (hx : aGet (s.core n).queues qi = some x)
    (hc : x.back.find? (fun c => c.core = src) = some c) :
    let t := s.setQueue n qi (fun y =>
      { y with back := y.back.filter (fun d => d.core != src), credits := addCredit y.credits src c.n })
    s.returnCredit n qi src = t.onRunning src (fun k => t.settle k src) := by
  simp only [State.returnCredit, hx, hc]
  rfl

theorem arrivalAndCredit : Claims.ArrivalAndCredit := by
  refine ⟨fun s n qi src k rival p x hon hn hsrc hk hp hx => ?_, fun s n qi src x c hon hn hsrc hx hc => ?_⟩
  · intro t u
    rw [exec_entryArrival s n qi src rival hon hn hsrc]
    refine ⟨fun hst hchoice => ?_, fun hst hmerge hr hrival => ?_, fun hst => ?_⟩
    · rw [arrive_unrivalled hk hp hx rival hst hchoice]
      rfl
    · rw [hr, arrive_merged hk hp hx hst hmerge hrival]
      rfl
    · rw [arrive_halted hk hp hx rival hst]
      rfl
  · intro t
    rw [exec_creditReturn s n qi src hon hn hsrc, returnCredit_found s n qi src x c hx hc]

/-! ## Receivers that lag, and their fallback engines (R132, R133) -/

theorem exec_mcastLagExpiry (s : State) (k g m : Nat) (hon : s.on = true) (hk : k < 32) (hm : m < 32) (hst : (s.suite k).st = 4) :
    exec (.mcastLagExpiry k g m) s = .next (s.sameInputs (s.lagExpiry k g m)) := by
  have hrun : (if (s.suite k).st = 4 then s.lagExpiry k g m else s) = s.lagExpiry k g m := if_pos hst
  rw [← hrun]
  exact on_next s _ hon _ (by simp [hk, hm])

theorem exec_fallbackFetch (s : State) (k g m : Nat) (hon : s.on = true) (hk : k < 32) (hm : m < 32) :
    exec (.fallbackFetch k g m) s = .next (s.sameInputs (s.fallbackStep k g m)) :=
  on_next s _ hon _ (by simp [hk, hm])

/-- At the lag limit the receiver's room decides between an offer and its detachment. -/
theorem lagExpiry_due {s : State} {k g m i a : Nat} {x : GroupRun} {r : RecvRun} {e : Entry} {w : WalkRun}
    (hx : s.group? k g = some x) (hr : x.recvOf m = some (i, r)) (he : x.offered = some e)
    (hw : (s.core x.core).walks.getD x.engine none = some w) (hlag : r.lag = some a) (hatt : r.attached = true)
    (hacc : r.accepted = false) (hnow : a + (s.suite k).lag * 1000 ≤ s.now) :
    s.lagExpiry k g m = if s.room x.core (recvName r) e then s.offer k g else s.detach k g i x r w e := by
  simp only [State.lagExpiry, hx, hr, he, hw, hlag, hatt, hacc, hnow]
  rfl

/-- A fetch of an entry that memory holds and that is not the walk's last waits for room and then goes to the receiver. -/
theorem fallbackStep_fetch {s : State} {k g m : Nat} {f : Fallback} {p : WalkPlan} (hst : (s.suite k).st = 4)
    (hf : (s.core m).fallbacks.find? (fun f => f.group = g) = some f) (hp : s.runPlan k f.run = some p) (htotal : p.total ≠ 0)
    (hspans : (p.visitsOf f.next).all (fun v => s.spansOk p.d.shelf false (p.spans v)) = true) (hnext : f.next + 1 < f.total) :
    let e := s.entryAt p f.next
    let q : QName := { chip := none, core := m, idx := f.qi }
    let t := (p.visitsOf f.next).foldl (fun t v => t.touchSpans p.d.shelf (p.spans v)) s
    s.fallbackStep k g m = if s.room f.src q e then
      ((t.push f.src f.run.i.no q e).setCore m (fun c =>
        { c with fallbacks := c.fallbacks.map (fun x => if x.group = g then { x with next := x.next + 1 } else x) })).handshake k
    else s := by
  have hlast : ¬ f.total ≤ f.next + 1 := Nat.not_le_of_lt hnext
  simp only [State.fallbackStep, hst, hf, hp, if_neg htotal, hspans, if_neg hlast, if_true]
  rfl

theorem multicastOutcomes : Claims.MulticastOutcomes := by
  refine ⟨fun s k g m i a x r e w hon hk hm hst hx hr he hw hlag hatt hacc hnow => ?_,
    fun s k g m f p hon hk hm hst hf hp htotal hspans hnext => ?_⟩
  · rw [exec_mcastLagExpiry s k g m hon hk hm hst, lagExpiry_due hx hr he hw hlag hatt hacc hnow]
    exact ⟨fun hroom => by simp [hroom], fun hroom => by simp [hroom]⟩
  · intro e q t
    rw [exec_fallbackFetch s k g m hon hk hm, fallbackStep_fetch hst hf hp htotal hspans hnext]
    refine ⟨fun hroom => ?_, fun hroom => ?_⟩
    · rw [if_pos hroom]
    · rw [if_neg (ne_true_of_eq_false hroom), State.sameInputs_self]

/-- Settles O34: what stands at a queue end after an arrival and after a return of credits, and the receivers of a group. -/
theorem entriesArrive : Obligations.EntriesArrive := ⟨arrivalAndCredit, multicastOutcomes⟩

end Sys2Proof.Machine

/-! SUPPORT. Proofs about the sequencer's own instructions: waits and barriers, signals, control and shape registers, and the guards. -/

namespace Sys2Proof.Machine

/-! ## Issue of any instruction as it comes (R19, R138) -/

/-- A core that awaits its next instruction issues what it may and then runs what it can. -/
theorem exec_awaited (i : Instr) (s : State) (k n idx : Nat) (ti : TInstr) (l : List Flow) (hi : streamInstr i = some (n, idx, ti))
    (h : s.awaits k n idx l = true) :
    exec i s = .next (s.sameInputs (((s.setSeq n (fun q => q.append idx ti)).issue k n).settle k n)) := by
  obtain ⟨hon, hn, hof, hst, hrun, hend, -, -, -, hlen, hpc, hidx⟩ := awaits_elim s k n idx l h
  have hopen : ((s.suite k).st = 4 && (s.core n).seq.running && !(s.core n).seq.ended && (s.core n).seq.code.length < 65536 &&
      idx < 0x1000000) = true := by
    simp [hst, hrun, hend, hlen, hpc, hidx]
  rw [exec_streamInstr i s n idx ti hi, on_next s _ hon _ (decide_eq_true hn)]
  simp only [State.instruct, hof, hopen, if_true]
  rfl

/-- With nothing in flow the instruction is issued at once. -/
theorem exec_issued (i : Instr) (s : State) (k n idx : Nat) (ti : TInstr) (hi : streamInstr i = some (n, idx, ti))
    (h : s.awaits k n idx [] = true) :
    exec i s = .next (s.sameInputs (((s.setSeq n (fun q => q.append idx ti)).issueOne k n idx ti).settle k n)) := by
  rw [exec_awaited i s k n idx ti [] hi h, issue_appended_idle s k n idx ti h]

theorem awaits_lt_cores {s : State} {k n idx : Nat} {l : List Flow} (h : s.awaits k n idx l = true) : n < s.cores.length := by
  obtain ⟨-, -, -, -, hrun, -⟩ := awaits_elim s k n idx l h
  exact s.lt_cores_of_running n hrun

/-- The sequencer that awaits its next instruction has it at its position, and is otherwise as it was. -/
theorem appended_seq {s : State} {k n idx : Nat} {l : List Flow} (h : s.awaits k n idx l = true) (ti : TInstr) :
    ((s.setSeq n (fun q => q.append idx ti)).core n).seq = (s.core n).seq.append idx ti :=
  s.seq_setSeq n _ (awaits_lt_cores h)

theorem State.setCore_setCore (s : State) (n : Nat) (f g : Core → Core) :
    (s.setCore n f).setCore n g = s.setCore n (fun c => g (f c)) := by
  simp only [State.setCore, lMod_lMod]

/-- What an update of a core leaves its flags, it leaves every flag. -/
theorem flagValue_setCore (s : State) (n : Nat) (g : Core → Core) (f : FlagName) (h : ∀ c, (g c).flags = c.flags) :
    (s.setCore n g).flagValue f = s.flagValue f := by
  cases f with
  | core c l => exact congrArg (fun m => (aGet m l).getD 0) (s.core_setCore_keeps n c g Core.flags h)
  | shelf x l => rfl

/-! ## A core that has nothing to run -/

/-- A suite that has halted runs nothing. -/
theorem settleFor_stopped (s : State) (k n m : Nat) (hst : (s.suite k).st ≠ 4) : s.settleFor k n m = s :=
  settleFor_idle s k n m (by simp [State.work, hst])

theorem specShape_of_no_work (s : State) (k n : Nat) (l : List Flow) (h : ∀ i, Flow.work i ∉ l) (spec : Bool) (seen : List Issued)
    (taken : List Nat) : s.specShape k n spec seen taken l = none := by
  induction l generalizing spec with
  | nil => rw [State.specShape]
  | cons f t ih =>
    have ht : ∀ i, Flow.work i ∉ t := fun i hi => h i (List.mem_cons_of_mem f hi)
    cases f with
    | work i => exact absurd List.mem_cons_self (h i)
    | guard g | endRegion g | squashed g => simp [State.specShape, ih ht]

theorem specFlow_of_no_work (s : State) (k n : Nat) (l : List Flow) (h : ∀ i, Flow.work i ∉ l) (spec : Bool) (seen : List Issued) :
    s.specFlow k n spec seen l = none := by
  induction l generalizing spec with
  | nil => rw [State.specFlow]
  | cons f t ih =>
    have ht : ∀ i, Flow.work i ∉ t := fun i hi => h i (List.mem_cons_of_mem f hi)
    cases f with
    | work i => exact absurd List.mem_cons_self (h i)
    | guard g | endRegion g | squashed g => simp [State.specFlow, ih ht]

/-- Issue does not hold, and the flow is empty or has at its head an unresolved guard with no instruction behind it. -/
def Seq.AtRest (q : Seq) : Prop :=
  q.hold = none ∧ (q.flow = [] ∨ ∃ g l, q.flow = .guard g :: l ∧ ∀ i, Flow.work i ∉ l)

theorem settleFor_at_rest (s : State) (k n m : Nat) (h : (s.core n).seq.AtRest) : s.settleFor k n m = s := by
  obtain ⟨hhold, hflow⟩ := h
  have hnowork : ∀ i, Flow.work i ∉ (s.core n).seq.flow := by
    obtain hflow | ⟨g, l, hflow, hl⟩ := hflow
    · simp [hflow]
    · simpa [hflow] using hl
  have htry : s.tryFlow k n [] (s.core n).seq.flow = none := by
    obtain hflow | ⟨g, l, hflow, -⟩ := hflow <;> rw [hflow, State.tryFlow]
  refine settleFor_idle s k n m ?_
  rw [State.work, tryHold_none s k n hhold, htry, State.speculate, specShape_of_no_work s k n _ hnowork,
    specFlow_of_no_work s k n _ hnowork]
  exact ite_self _

/-- An instruction whose issue changes the sequencer only, and leaves it at rest, has no other effect. -/
theorem exec_rests (i : Instr) {s : State} {k n idx : Nat} {ti : TInstr} {l : List Flow} (g : Seq → Seq)
    (hi : streamInstr i = some (n, idx, ti)) (h : s.awaits k n idx l = true)
    (hissue : (s.setSeq n (fun q => q.append idx ti)).issue k n = (s.setSeq n (fun q => q.append idx ti)).setSeq n g)
    (hrest : (g ((s.core n).seq.append idx ti)).AtRest) :
    exec i s = .next (s.sameInputs (s.setSeq n (fun q => g (q.append idx ti)))) := by
  rw [exec_awaited i s k n idx ti l hi h, hissue, State.setSeq_setSeq, State.settle, settleFor_at_rest]
  rw [s.seq_setSeq n _ (awaits_lt_cores h)]
  exact hrest

/-! ## Waits and barriers (R155, R157) -/

/-- A legal wait with nothing in flow is where issue holds. -/
theorem issueWait_holds {s : State} {k n v : Nat} {q : Seq} {o : QWaitOp} (idx : Nat) (hq : (s.core n).seq = q) (hflow : q.flow = [])
    (hcode : s.waitCode k n o.flag = none) (htarget : targetOk o.target = true) (hv : targetVal q.sh o.target = some v) :
    s.issueWait k n idx o =
      s.setSeq n (fun q => { q with nextNo := q.nextNo + 1, hold := some (q.nextNo, idx, o.flag, v) }) := by
  simp [State.issueWait, hcode, htarget, hv, minCode, codeUnless, Seq.seqWork, hq, hflow]

/-- A legal barrier with nothing in flow counts its arrival and holds issue; its own addition waits for its turn. -/
theorem issueBarrier_holds {s : State} {k n : Nat} {q : Seq} {o : QBarrierOp} (idx : Nat) (hq : (s.core n).seq = q)
    (hflow : q.flow = []) (hopens : q.opens = []) (hcode : s.waitCode k n o.flag = none) (hshelf : isShelfFlag o.flag = true)
    (hp : 2 ≤ o.p ∧ o.p ≤ 32) :
    let m := (aGet q.barriers idx).getD 0 + 1
    s.issueBarrier k n idx o = (s.setSeq n (fun q =>
      { q with nextNo := q.nextNo + 1, barriers := aSet q.barriers idx m,
               hold := some (q.nextNo, idx, o.flag, m * o.p % M32) })).pendFlag n q.nextNo o.flag 1 := by
  simp [State.issueBarrier, hcode, hshelf, hp, hopens, minCode, codeUnless, Seq.seqWork, Seq.guards, hq, hflow]

/-- A flag change that waits for its turn holds nothing. -/
theorem pendFlag_hold (s : State) (n no : Nat) (f : FlagName) (inc : Nat) :
    ((s.pendFlag n no f inc).core n).seq.hold = (s.core n).seq.hold :=
  s.core_setCore_keeps n n _ (fun c => c.seq.hold) (fun _ => rfl)

theorem pendFlag_flow (s : State) (n no : Nat) (f : FlagName) (inc : Nat) :
    ((s.pendFlag n no f inc).core n).seq.flow = (s.core n).seq.flow :=
  s.core_setCore_keeps n n _ (fun c => c.seq.flow) (fun _ => rfl)

theorem pendFlag_flagValue (s : State) (n no : Nat) (f g : FlagName) (inc : Nat) :
    (s.pendFlag n no f inc).flagValue g = s.flagValue g :=
  flagValue_setCore s n _ g (fun _ => rfl)

theorem setSeq_flagValue (s : State) (n : Nat) (g : Seq → Seq) (f : FlagName) : (s.setSeq n g).flagValue f = s.flagValue f :=
  flagValue_setCore s n _ f (fun _ => rfl)

/-- A core that has come to hold at a wait, with nothing in flow, and how it goes on. -/
theorem settle_held {s t : State} {k n no idx v : Nat} {f : FlagName} (hseq : (t.core n).seq.hold = some (no, idx, f, v))
    (hflow : (t.core n).seq.flow = []) (hst : (t.suite k).st = 4) (hflag : t.flagValue f = s.flagValue f) :
    (flagMet (s.flagValue f) v = false → t.settle k n = t) ∧ (flagMet (s.flagValue f) v = true → t.settle k n = t.passHold k n) := by
  rw [← hflag]
  exact ⟨fun hmet => settle_unmet hseq hmet hflow, fun hmet => settle_met hseq hst hmet hflow⟩

/-- Settles O28: the instruction is where issue holds, and a flag that satisfies it lets issue pass. -/
theorem waitAndBarrierHold : Obligations.WaitAndBarrierHold := by
  constructor
  · intro s k n idx v o h hcode htarget hv held passed
    obtain ⟨-, -, -, hst, -, -, -, -, hflow, -⟩ := awaits_elim s k n idx [] h
    have hissue : (s.setSeq n (fun q => q.append idx (.qWait o))).issueOne k n idx (.qWait o) = held :=
      (issueWait_holds idx (appended_seq h _) hflow hcode htarget hv).trans (State.setSeq_setSeq s n _ _)
    have hseq : (held.core n).seq = _ := s.seq_setSeq n _ (awaits_lt_cores h)
    obtain ⟨hunmet, hmet⟩ := settle_held (s := s) (t := held) (k := k) (congrArg Seq.hold hseq)
      ((congrArg Seq.flow hseq).trans hflow) hst (setSeq_flagValue ..)
    rw [exec_issued (.qWait n idx o) s k n idx (.qWait o) rfl h, hissue]
    refine ⟨fun hf => by rw [hunmet hf], fun hf => ?_⟩
    rw [hmet hf, State.passHold, State.setSeq_setSeq]
    rfl
  · intro s k n idx o h hcode hshelf hp2 hp32 hopens m held
    obtain ⟨-, -, -, hst, -, -, -, -, hflow, -⟩ := awaits_elim s k n idx [] h
    have hissue : (s.setSeq n (fun q => q.append idx (.qBarrier o))).issueOne k n idx (.qBarrier o) = held :=
      (issueBarrier_holds idx (appended_seq h _) hflow hopens hcode hshelf ⟨hp2, hp32⟩).trans
        (congrArg (fun t => State.pendFlag t n (s.core n).seq.nextNo o.flag 1) (State.setSeq_setSeq s n _ _))
    have hseq := s.seq_setSeq n (fun q => { (q.append idx (.qBarrier o)) with
      nextNo := q.nextNo + 1, barriers := aSet q.barriers idx m, hold := some (q.nextNo, idx, o.flag, m * o.p % M32) })
      (awaits_lt_cores h)
    obtain ⟨hunmet, hmet⟩ := settle_held (s := s) (t := held) (k := k) ((pendFlag_hold ..).trans (congrArg Seq.hold hseq))
      ((pendFlag_flow ..).trans ((congrArg Seq.flow hseq).trans hflow)) hst
      ((pendFlag_flagValue ..).trans (setSeq_flagValue ..))
    rw [exec_issued (.qBarrier n idx o) s k n idx (.qBarrier o) rfl h, hissue]
    exact ⟨fun hf => by rw [hunmet hf], fun hf => by rw [hmet hf]; rfl⟩

/-! ## Signals (R123, R156, R235) -/

/-- An instruction of the sequencer that completes leaves the core with nothing to run where it stood alone in flow. -/
theorem settleFor_completed_alone (s : State) (k n m : Nat) (i j : Issued) (hhold : (s.core n).seq.hold = none)
    (hflow : (s.core n).seq.flow = [.work j]) (hno : j.no = i.no) (hunit : unitOf i.instr = 8) (hsig : (clausesOf i.instr).signal = none) :
    (s.completed n i).settleFor k n m = s.completed n i := by
  have hdone : s.completed n i = s.setSeq n (fun q => q.drop i.no) := by
    simp [State.completed, hunit, hsig, State.pendSignal]
  have hseq := s.seq_setSeq n (fun q => q.drop i.no) (s.lt_cores_of_flow n (by simp [hflow]))
  rw [hdone]
  refine settleFor_at_rest _ k n m ?_
  rw [hseq]
  exact ⟨hhold, .inl (by simp [Seq.drop, hflow, hno])⟩

/-- A halt stops the suite. -/
theorem settleFor_haltAt (s : State) (k n m cause c idx : Nat) (hk : k < s.suites.length) :
    (s.haltAt k cause c idx).settleFor k n m = s.haltAt k cause c idx := by
  refine settleFor_stopped _ k n m ?_
  rw [State.haltAt, (suite_haltSuite s k cause c idx _ hk).1]
  decide

theorem settleFor_skipSequencer (s : State) (k n m idx code : Nat) (hk : k < s.suites.length) :
    (s.skipSequencer k n idx code).settleFor k n m = s.skipSequencer k n idx code :=
  settleFor_haltAt _ k n m 3 n idx (by simpa [State.logSkip] using hk)

theorem exec_qSignal {s : State} {k n idx : Nat} (o : QSignalOp) (h : s.awaits k n idx [] = true) :
    let s1 := s.entered n idx (.qSignal o)
    let iss := s.issuedAs n idx (.qSignal o)
    exec (.qSignal n idx o) s = .next (s.sameInputs (s1.goesOn k n iss (s1.trySignal k n iss o) 16)) := by
  intro s1 iss
  rw [exec_idle (.qSignal n idx o) s k n idx (.qSignal o) rfl h (.inr ⟨o, rfl⟩)]
  rfl

/-- The flags that a core of suite k may signal (R109, R156). -/
theorem signalCode_core (s : State) (k c l : Nat) :
    s.signalCode k (.core c l) = none ↔ c < 32 ∧ bit s.health.present c = true ∧ bit (s.suite k).mask c = true ∧ l < 1024 := by
  unfold State.signalCode State.flagHome State.maySignal codeUnless
  by_cases hc : c < 32 <;> by_cases hp : bit s.health.present c = true <;> simp [hc, hp]

theorem signalCode_shelf (s : State) (k x l : Nat) :
    s.signalCode k (.shelf x l) = none ↔ clusterFitted s.fuses.grade x = true ∧ s.shelfFlagIn k x l = true := by
  unfold State.signalCode State.flagHome State.maySignal codeUnless
  by_cases hx : clusterFitted s.fuses.grade x = true <;> simp [hx]

theorem signalCompletes : Claims.SignalCompletes := by
  intro s k n idx o h iss s1
  have hruns := entered_runsOnly s k n idx (.qSignal o) h
  refine ⟨fun hcode hinc => ?_, fun c hc => ?_, signalCode_core s k, signalCode_shelf s k⟩
  · have htry : s1.trySignal k n iss o = .go true (s1.pendFlag n iss.no o.flag o.inc) := by
      have hlegal : s1.qSignalCode k o = none := by
        have : s1.signalCode k o.flag = none := hcode
        simp [State.qSignalCode, this, minCode, codeUnless, hinc]
      rw [State.trySignal, hlegal]
    rw [exec_qSignal o h, htry]
    exact congrArg (fun t => Host.Outcome.next (s.sameInputs t)) (settleFor_completed_alone _ k n 16 iss iss
      ((pendFlag_hold ..).trans hruns.hold) ((pendFlag_flow ..).trans hruns.flow) rfl rfl rfl)
  · have htry : s1.trySignal k n iss o = .skip c s1 := by
      have hcode : s1.qSignalCode k o = some c := hc
      rw [State.trySignal, hcode]
    rw [exec_qSignal o h, htry]
    exact congrArg (fun t => Host.Outcome.next (s.sameInputs t))
      (settleFor_skipSequencer s1 k n 16 idx c (s1.lt_suites_of_running k hruns.running))

theorem exec_flagSignalEffect (s : State) (n j : Nat) (hon : s.on = true) (hn : n < 32) :
    exec (.flagSignalEffect n j) s =
      .next (s.sameInputs ((s.signalEffect n j).onRunning n (fun k => (s.signalEffect n j).settle k n))) :=
  on_next s _ hon _ (decide_eq_true hn)

/-- R123: a flag change takes effect in its turn and not before. -/
theorem signalEffect_pending {s : State} {n j k : Nat} {p : PendFlag} (hk : s.suiteOf n = some k) (hst : (s.suite k).st = 4)
    (hp : (s.core n).seq.flags[j]? = some p) :
    s.signalEffect n j = if s.ordered n p.no then
      ((s.setCore n (fun c => { c with seq := { c.seq with flags := c.seq.flags.eraseIdx j } })).addFlag p.flag p.inc).handshake k
    else s := by
  simp only [State.signalEffect, hp, hk, hst]
  rfl

theorem flagValue_addFlag_core (s : State) (c l inc : Nat) (h : c < s.cores.length) :
    (s.addFlag (.core c l) inc).flagValue (.core c l) = (s.flagValue (.core c l) + inc) % 2 ^ 32 := by
  simp [State.addFlag, State.flagValue, s.core_setCore c _ h, aGet_aSet_same, M32]

theorem flagSignalOutcomes : Claims.FlagSignalOutcomes := by
  intro s n j k p hon hn hk hst hp
  refine ⟨fun hturn => ?_, fun hearly => ?_, fun c l hflag hc => ?_⟩
  · intro t
    have ht : s.signalEffect n j = t := by rw [signalEffect_pending hk hst hp, if_pos hturn]
    rw [exec_flagSignalEffect s n j hon hn, ht]
  · have ht : s.signalEffect n j = s := by rw [signalEffect_pending hk hst hp, if_neg (ne_true_of_eq_false hearly)]
    rw [exec_flagSignalEffect s n j hon hn, ht]
  · rw [hflag]
    exact flagValue_addFlag_core s c l p.inc hc

/-- Settles O29: one attempt at the signal leaves its addition waiting, and the addition takes effect in its turn. -/
theorem signalRule : Obligations.SignalRule := ⟨signalCompletes, flagSignalOutcomes⟩

/-! ## Loops, regions and the end of a kernel (R158 to R160) -/

theorem issueLoop_enters {s : State} {k n c : Nat} {q : Seq} {o : CtlLoopOp} (idx : Nat) (hq : (s.core n).seq = q)
    (hbody : 1 ≤ o.body ∧ o.body ≤ 4096) (hframes : q.frames.length < 8) (hok : extOk o.count = true)
    (hc : extVal q.sh o.count = some c) : s.issueLoop k n idx o = s.setSeq n (fun q => q.enterLoop o (c % M32)) := by
  simp [State.issueLoop, hq, hbody, hframes, hok, hc]

theorem enterLoop_atRest (q : Seq) (o : CtlLoopOp) (c : Nat) (hhold : q.hold = none) (hflow : q.flow = []) :
    (q.enterLoop o c).AtRest := by
  unfold Seq.enterLoop
  dsimp only
  split <;> exact ⟨hhold, .inl hflow⟩

theorem issueGuard_enters {s : State} {k n : Nat} {q : Seq} {o : CtlGuardOp} (idx : Nat) (hq : (s.core n).seq = q)
    (hflow : q.flow = []) (hsh : o.sh < 16) (hopens : q.opens.length < 4) :
    s.issueGuard k n idx o = s.setSeq n (fun q => q.enterGuard idx o) := by
  simp [State.issueGuard, Seq.guards, hq, hflow, hsh, hopens]

theorem enterGuard_atRest (q : Seq) (idx : Nat) (o : CtlGuardOp) (hhold : q.hold = none) (hflow : q.flow = []) :
    (q.enterGuard idx o).AtRest :=
  ⟨hhold, .inr ⟨_, [], congrArg (· ++ _) hflow, fun _ => List.not_mem_nil⟩⟩

/-- A commit adds at most the mark of a region's end to the flow, and none without an unresolved guard there. -/
theorem enterCommit_flow (q : Seq) :
    q.enterCommit.flow = q.flow ∨ q.flow ≠ [] ∧ ∃ g, q.enterCommit.flow = q.flow ++ [.endRegion g] := by
  unfold Seq.enterCommit
  cases q.opens with
  | nil => exact .inl rfl
  | cons g r =>
    dsimp only
    split
    · rename_i hopen
      refine .inr ⟨fun h => ?_, g, rfl⟩
      simp [h] at hopen
    · exact .inl rfl

theorem enterCommit_hold (q : Seq) : q.enterCommit.hold = q.hold := by
  unfold Seq.enterCommit
  cases q.opens <;> rfl

theorem enterCommit_atRest (q : Seq) (h : q.AtRest) : q.enterCommit.AtRest := by
  obtain ⟨hhold, hflow⟩ := h
  refine ⟨(enterCommit_hold q).trans hhold, ?_⟩
  obtain hsame | ⟨hne, m, hmore⟩ := enterCommit_flow q
  · rwa [hsame]
  · obtain hnil | ⟨g, l, hg, hl⟩ := hflow
    · exact absurd hnil hne
    · exact .inr ⟨g, l ++ [.endRegion m], by rw [hmore, hg, List.cons_append], fun i hi => hl i (by simpa using hi)⟩

/-- A core whose stream has ended by a `ctl.halt`: the last one of a program ramps the array down (R75, R160). -/
def Core.streamEnded (fin : Bool) (c : Core) : Core :=
  { c with seq := { c.seq with ended := true, fin := fin, nextNo := c.seq.nextNo + 1, pc := c.seq.pc + 1 },
           arr := if fin then c.arr.windDown else c.arr }

/-- With no region open and nothing in flow a `ctl.halt` ends the stream. -/
theorem issueHalt_ends {s : State} {k n : Nat} {q : Seq} (idx : Nat) (fin : Bool) (hq : (s.core n).seq = q)
    (hflow : q.flow = []) (hopens : q.opens = []) :
    s.issueHalt k n idx fin = (s.setCore n (Core.streamEnded fin)).handshake k := by
  have hhalt : s.issueHalt k n idx fin = ((s.setSeq n (fun q =>
      { q with ended := true, fin := fin, nextNo := q.nextNo + 1, pc := q.pc + 1 })).endArray n).handshake k := by
    simp [State.issueHalt, Seq.seqWork, Seq.guards, hq, hflow, hopens]
  rw [hhalt, State.endArray, State.setSeq, State.setCore_setCore]
  refine congrArg (fun t => State.handshake t k) (s.setCore_congr n _ _ ?_)
  cases fin <;> simp [Seq.programOver, Core.streamEnded, hq, hflow]

/-- Behind one unresolved guard the sequencer issues what comes within 1,024 instructions of it (R165). -/
theorem issue_appended_guard (s : State) (k n idx : Nat) (ti : TInstr) (g : GuardMark) (h : s.awaits k n idx [.guard g] = true)
    (hno : (s.core n).seq.nextNo ≤ g.no + 1024) :
    (s.setSeq n (fun q => q.append idx ti)).issue k n = (s.setSeq n (fun q => q.append idx ti)).issueOne k n idx ti := by
  obtain ⟨-, -, -, -, -, -, -, -, hflow, -⟩ := awaits_elim s k n idx _ h
  have hseq := appended_seq h ti
  have hflow' : ((s.setSeq n (fun q => q.append idx ti)).core n).seq.flow = [.guard g] := by
    rw [hseq]
    exact hflow
  have hmay : ((s.setSeq n (fun q => q.append idx ti)).core n).seq.mayIssue = true := by
    rw [Seq.mayIssue, Seq.firstGuard, hflow', hseq]
    simp [Seq.append, hno]
  rw [issue_appended s k n idx ti _ h, if_pos]
  rw [hmay, State.specOverruns, specShape_of_no_work _ k n _ (by simp [hflow'])]
  rfl

/-- Settles O30: each instruction is issued as it comes, and with no instruction in flow nothing else happens. -/
theorem controlIssued : Obligations.ControlIssued := by
  refine ⟨?_, ?_, ?_, ?_, ?_⟩
  · intro s k n idx c o h hbody1 hbody hframes hok hc
    obtain ⟨-, -, -, -, -, -, hhold, -, hflow, -⟩ := awaits_elim s k n idx [] h
    have hissue := issueLoop_enters (k := k) idx (appended_seq h (.ctlLoop o)) ⟨hbody1, hbody⟩ hframes hok hc
    exact exec_rests _ _ rfl h ((issue_appended_idle s k n idx (.ctlLoop o) h).trans hissue) (enterLoop_atRest _ o _ hhold hflow)
  · intro s k n idx o h hsh hopens
    obtain ⟨-, -, -, -, -, -, hhold, -, hflow, -⟩ := awaits_elim s k n idx [] h
    have hissue := issueGuard_enters (k := k) idx (appended_seq h (.ctlGuard o)) hflow hsh hopens
    exact exec_rests _ _ rfl h ((issue_appended_idle s k n idx (.ctlGuard o) h).trans hissue)
      (enterGuard_atRest _ idx o hhold hflow)
  · intro s k n idx h
    obtain ⟨-, -, -, -, -, -, hhold, -, hflow, -⟩ := awaits_elim s k n idx [] h
    exact exec_rests _ _ rfl h (issue_appended_idle s k n idx _ h) (enterCommit_atRest _ ⟨hhold, .inl hflow⟩)
  · intro s k n idx g h hno
    obtain ⟨-, -, -, -, -, -, hhold, -, hflow, -⟩ := awaits_elim s k n idx _ h
    exact exec_rests _ _ rfl h (issue_appended_guard s k n idx _ g h hno)
      (enterCommit_atRest _ ⟨hhold, .inr ⟨g, [], hflow, fun _ => List.not_mem_nil⟩⟩)
  · intro s k n idx fin h hopens
    obtain ⟨-, -, -, -, -, -, hhold, -, hflow, -⟩ := awaits_elim s k n idx [] h
    have hseq := appended_seq h (.ctlHalt fin)
    have hcore := (s.setSeq n (fun q => q.append idx (.ctlHalt fin))).core_setCore n (Core.streamEnded fin)
      (by simpa [State.setSeq] using awaits_lt_cores h)
    rw [exec_issued (.ctlHalt n idx fin) s k n idx (.ctlHalt fin) rfl h, State.issueOne, issueHalt_ends idx fin hseq hflow hopens,
      State.settle, settleFor_at_rest]
    · rw [State.setSeq, State.setCore_setCore]
      rfl
    · rw [State.core_handshake, hcore]
      exact ⟨(congrArg Seq.hold hseq).trans hhold, .inl ((congrArg Seq.flow hseq).trans hflow)⟩

/-! ## Shape registers (R145) -/

/-- The state in which an issued `ctl.shape` stands alone in flow. -/
def State.shaping (s : State) (n idx : Nat) (o : CtlShapeOp) : State :=
  s.setSeq n (fun q => (q.append idx (.ctlShape o)).enterShape idx o)

theorem shaping_runsOnly {s : State} {k n idx : Nat} (o : CtlShapeOp) (h : s.awaits k n idx [] = true) :
    (s.shaping n idx o).RunsOnly k n (s.issuedAs n idx (.ctlShape o)) := by
  obtain ⟨-, -, -, hst, -, -, hhold, -, hflow, -⟩ := awaits_elim s k n idx [] h
  have hq := s.seq_setSeq n (fun q => (q.append idx (.ctlShape o)).enterShape idx o) (awaits_lt_cores h)
  exact ⟨hst, (congrArg Seq.hold hq).trans hhold, (congrArg Seq.flow hq).trans (congrArg (· ++ _) hflow)⟩

section
variable {s : State} {n : Nat} {o : CtlShapeOp} (hlegal : s.shapeCode n o = none)
include hlegal

theorem tryShape_word {w : Nat} (k : Nat) (i : Issued) (hsrc : o.src = .word w) :
    s.tryShape k n i o = s.writeShape s k n i o ((s.suite k).words.getD w 0) := by
  simp only [State.tryShape, hlegal, hsrc]

theorem tryShape_reg {r v : Nat} (k : Nat) (i : Issued) (hsrc : o.src = .reg r) (hv : shVal i.sh r = some v) :
    s.tryShape k n i o = s.writeShape s k n i o v := by
  simp only [State.tryShape, hlegal, hsrc, hv]

theorem tryShape_extent {q : QName} {x : Nat} {e : Entry} (k : Nat) (i : Issued) (hsrc : o.src = .extent q x)
    (he : s.head? n q.idx = some e) : s.tryShape k n i o = s.writeShape (s.handshake k) k n i o (shapeExtent e x) := by
  simp only [State.tryShape, hlegal, hsrc, he]

theorem tryShape_popped {q : QName} {w v : Nat} {e : Entry} {t : State} (k : Nat) (i : Issued) (hsrc : o.src = .popped q w)
    (he : s.pop n q.idx = some (e, t)) (hv : shapeWord e w = some v) :
    s.tryShape k n i o = s.writeShape (t.handshake k) k n i o v := by
  simp only [State.tryShape, hlegal, hsrc, he, hv]

end

/-- A `ctl.shape` with parameters in range is legal where its queue end, if it has one, may be popped. -/
theorem shapeCode_legal {s : State} {n : Nat} {o : CtlShapeOp} {src : ShapeSrc} (hok : shapeOk o = true) (hsrc : o.src = src)
    (hpop : ∀ q, shapeQueue { o with src := src } = some q → s.popCode n q = none) : s.shapeCode n o = none := by
  subst hsrc
  cases hq : shapeQueue o with
  | none => simp [State.shapeCode, hok, hq]
  | some q => simp [State.shapeCode, hok, hq, hpop q hq]

/-- On an idle core one attempt at a `ctl.shape` decides the next state. -/
theorem exec_ctlShape {s : State} {k n idx : Nat} (o : CtlShapeOp) (h : s.awaits k n idx [] = true) :
    let s1 := s.shaping n idx o
    let iss := s.issuedAs n idx (.ctlShape o)
    exec (.ctlShape n idx o) s = .next (s.sameInputs (s1.goesOn k n iss (s1.tryShape k n iss o) 16)) := by
  intro s1 iss
  have hruns : s1.RunsOnly k n iss := shaping_runsOnly o h
  have hissue : (s.setSeq n (fun q => q.append idx (.ctlShape o))).issueOne k n idx (.ctlShape o) = s1 :=
    State.setSeq_setSeq s n (fun q => q.append idx (.ctlShape o)) (fun q => q.enterShape idx o)
  have hsettle : s1.settle k n = s1.goesOn k n iss (s1.tryShape k n iss o) 16 := by
    rw [State.settle, hruns.flow]
    exact hruns.settleFor_attempt rfl 16
  rw [exec_issued (.ctlShape n idx o) s k n idx (.ctlShape o) rfl h, hissue, hsettle]

/-- The value of a `ctl.shape` lies between 0 and the planned maximum of its register. -/
def Suite.shapeFits (x : Suite) (o : CtlShapeOp) (v : Nat) : Prop := 0 ≤ shapeResult o v ∧ shapeResult o v ≤ (x.shMax o.sh : Int)

theorem writeShape_fits {s : State} {k v : Nat} {o : CtlShapeOp} (t : State) (n : Nat) (i : Issued) (h : (s.suite k).shapeFits o v) :
    s.writeShape t k n i o v = .go true (t.setSeq n (fun q => q.fill i.no (shapeResult o v).toNat)) := by
  obtain ⟨hlo, hhi⟩ := h
  simp [State.writeShape, Int.not_lt.mpr hlo, Int.not_lt.mpr hhi]

theorem writeShape_overruns {s : State} {k v : Nat} {o : CtlShapeOp} (t : State) (n : Nat) (i : Issued) (h : ¬ (s.suite k).shapeFits o v) :
    s.writeShape t k n i o v = .overrun t := by
  have hout : shapeResult o v < 0 ∨ ((s.suite k).shMax o.sh : Int) < shapeResult o v := by
    rw [Suite.shapeFits] at h
    omega
  simp [State.writeShape, hout]

/-- A `ctl.shape` that stands alone in flow completes with its value. -/
theorem settleFor_shaped {t : State} {k n : Nat} {i : Issued} {o : CtlShapeOp} (v m : Nat) (hhold : (t.core n).seq.hold = none)
    (hflow : (t.core n).seq.flow = [.work i]) (hi : i.instr = .ctlShape o) :
    ((t.setSeq n (fun q => q.fill i.no v)).completed n i).settleFor k n m = (t.setSeq n (fun q => q.fill i.no v)).completed n i := by
  have hseq := t.seq_setSeq n (fun q => q.fill i.no v) (t.lt_cores_of_flow n (by simp [hflow]))
  refine settleFor_completed_alone _ k n m i { i with sh := fillSh i.no v i.sh } ((congrArg Seq.hold hseq).trans hhold) ?_ rfl
    (by rw [hi]; rfl) (by rw [hi]; rfl)
  rw [hseq, Seq.fill, hflow]
  rfl

section
variable {s : State} {k n idx : Nat} {o : CtlShapeOp} (h : s.awaits k n idx [] = true)
include h

/-- A value that fits is written, wherever the attempt found it. -/
theorem exec_ctlShape_fits {t : State} {v : Nat} (hseq : (t.core n).seq = ((s.shaping n idx o).core n).seq)
    (hfits : (s.suite k).shapeFits o v)
    (htry : (s.shaping n idx o).tryShape k n (s.issuedAs n idx (.ctlShape o)) o =
      (s.shaping n idx o).writeShape t k n (s.issuedAs n idx (.ctlShape o)) o v) :
    exec (.ctlShape n idx o) s = .next (s.sameInputs
      ((t.setSeq n (fun q => q.fill (s.core n).seq.nextNo (shapeResult o v).toNat)).completed n (s.issuedAs n idx (.ctlShape o)))) := by
  have hruns := shaping_runsOnly o h
  rw [exec_ctlShape o h, htry, writeShape_fits (s := s.shaping n idx o) t n _ hfits]
  exact congrArg (fun u => Host.Outcome.next (s.sameInputs u))
    (settleFor_shaped _ 16 (hseq ▸ hruns.hold) (hseq ▸ hruns.flow) rfl)

theorem exec_ctlShape_overruns {v : Nat} (hfits : ¬ (s.suite k).shapeFits o v)
    (htry : (s.shaping n idx o).tryShape k n (s.issuedAs n idx (.ctlShape o)) o =
      (s.shaping n idx o).writeShape (s.shaping n idx o) k n (s.issuedAs n idx (.ctlShape o)) o v) :
    exec (.ctlShape n idx o) s = .next (s.sameInputs ((s.shaping n idx o).haltAt k 1 n idx)) := by
  rw [exec_ctlShape o h, htry, writeShape_overruns (s := s.shaping n idx o) _ n _ hfits]
  exact congrArg (fun u => Host.Outcome.next (s.sameInputs u))
    (settleFor_haltAt _ k n 16 1 n idx (State.lt_suites_of_running _ k (shaping_runsOnly o h).running))

end

/-- Settles O31: what one attempt at the `ctl.shape` finds at each kind of source. -/
theorem shapeCompletes : Obligations.ShapeCompletes := by
  intro s k n idx o h hok no iss s1 done fits
  refine ⟨fun w hsrc hfits => ?_, fun r v hsrc hv hfits => ?_, fun q x e hsrc hpop hhead hfits => ?_,
    fun q w e v t hsrc hpop hentry hv hfits => ?_, fun w hsrc hfits => ?_⟩
  · exact exec_ctlShape_fits h rfl hfits (tryShape_word (shapeCode_legal hok hsrc nofun) k iss hsrc)
  · exact exec_ctlShape_fits h rfl hfits (tryShape_reg (shapeCode_legal hok hsrc nofun) k iss hsrc hv)
  · refine exec_ctlShape_fits h rfl hfits (tryShape_extent (shapeCode_legal hok hsrc ?_) k iss hsrc hhead)
    rintro _ ⟨⟩
    exact hpop
  · refine exec_ctlShape_fits h (pop_keeps s1 t n q.idx e hentry n).2 hfits
      (tryShape_popped (shapeCode_legal hok hsrc ?_) k iss hsrc hentry hv)
    rintro _ ⟨⟩
    exact hpop
  · exact exec_ctlShape_overruns h hfits (tryShape_word (shapeCode_legal hok hsrc nofun) k iss hsrc)

/-! ## Guards (R161, R162, R164, R237) -/

theorem exec_guardCommit (s : State) (n g : Nat) (hon : s.on = true) (hn : n < 32) :
    exec (.guardCommit n g) s = .next (s.sameInputs (s.commitGuard n g)) :=
  on_next s _ hon _ (decide_eq_true hn)

theorem exec_guardSquash (s : State) (n g : Nat) (hon : s.on = true) (hn : n < 32) :
    exec (.guardSquash n g) s = .next (s.sameInputs (s.squashGuard n g)) :=
  on_next s _ hon _ (decide_eq_true hn)

section
variable {s : State} {n g k v : Nat} {b a : List Flow} {m : GuardMark} (hk : s.runningSuite n = some k)
  (hsplit : splitGuard (s.core n).seq.flow g [] = some (b, m, a)) (hreg : m.reg = .known v)
include hk hsplit hreg

/-- A guard commits when its comparison holds and no guard around it is unresolved. -/
theorem commitGuard_known : s.commitGuard n g =
    if guardHolds m.cmp v m.imm && !enclosed b then
      let t := s.setSeq n (fun q => { q with flow := b ++ a.filter (fun f => f != .endRegion m.no) })
      (if (guardsIn b).isEmpty then t.examine k n (freed a) else t).settle k n
    else s := by
  simp only [State.commitGuard, onRunning_running hk, hsplit, hreg]

/-- A guard squashes when its comparison fails. -/
theorem squashGuard_known : s.squashGuard n g =
    if !guardHolds m.cmp v m.imm then
      (((s.squashSeats n b a).setCore n (fun c =>
        { c.dropSpec m.no with
          seq := { c.seq with flow := b ++ [.squashed (squashCount m.no a)], pc := m.pc + 1, frames := m.frames, sh := m.sh,
                              opens := m.opens, hold := none, skipping := some 1 } })).setSeq n Seq.passOver).settle k n
    else s := by
  simp only [State.squashGuard, onRunning_running hk, hsplit, hreg]

end

/-- Settles O32: the guard's comparison decides which of the two events has an effect. -/
theorem guardOutcomes : Obligations.GuardOutcomes := by
  intro s n g k v b a m hon hn hk hsplit hreg
  rw [exec_guardCommit s n g hon hn, exec_guardSquash s n g hon hn, commitGuard_known hk hsplit hreg, squashGuard_known hk hsplit hreg]
  refine ⟨fun hholds henclosed => ?_, fun hfails => ?_⟩
  · rw [hholds, henclosed]
    exact ⟨rfl, rfl⟩
  · rw [hfails]
    exact ⟨rfl, rfl⟩

end Sys2Proof.Machine

/-! SUPPORT. Proofs about the vector and stream instructions on an idle core, and about a walk that goes on. -/

namespace Sys2Proof.Machine

/-! ## Vector instructions (R19, R148 to R152, R199 to R213) -/

/-- The instructions with a vector plan are engine instructions, and an attempt at one is the attempt at its plan. -/
theorem vplan_elim {s : State} {k : Nat} {ti : TInstr} {v : VPlan} (h : s.vplan k ti = some v) :
    pushesOrStores ti = true ∧ ∀ (n : Nat) (dry : Bool) (i : Issued), i.instr = ti → s.attempt k n dry i = s.tryVector k n i v := by
  cases ti with
  | vxMap o | vxDw o | vxPool o | vxReduce o | vxBoxdec o | vxNms o | vxSort o =>
    refine ⟨rfl, fun n dry i hi => ?_⟩
    rw [State.attempt, hi]
    simp only [h]
  | _ => cases h

/-- Taking up a wait clause changes no plan. -/
theorem vplan_readied (s : State) (k n : Nat) (i : Issued) (ti : TInstr) : (s.readied k n i).1.vplan k ti = s.vplan k ti := by
  have hflush : ((s.readied k n i).1.suite k).flush = (s.suite k).flush := by
    unfold State.readied
    split
    · exact State.suite_setSuite_keeps _ k k _ Suite.flush (fun _ => rfl)
    · rfl
  have hfab : (s.readied k n i).1.fab = s.fab := by
    unfold State.readied
    split <;> rfl
  unfold State.vplan
  rw [hflush, hfab]

/-- A vector instruction whose operands are all there and whose outputs have space runs. -/
theorem tryVector_runs {s t : State} {k n : Nat} {i : Issued} {v : VPlan} {x : List Nat} {es : List Entry} {m : Made}
    (hcode : s.vectorCode k n v = none) (hx : extVals i.sh v.exts = some x) (hlim : v.lim x = true)
    (hwait : s.clauseWait i v.cl = some [])
    (hops : s.missing n [] (v.pops.map QName.idx) = [] ∧ s.spaceWaits k n [] (v.outs.zip (v.size x) ++ statsDemand v.stats) = [])
    (hpop : s.popAll n (v.pops.map QName.idx) = .inl (es, t)) (hrun : v.run x es = some m)
    (hroom : s.spaceWaits k n [] (demandOf (s.withRecord k n i.idx 3 false (v.outs.zip m.outs) v.stats m.counts)) = []) :
    s.tryVector k n i v = .go true
      (((t.sendAll n i.no (s.withRecord k n i.idx 3 false (v.outs.zip m.outs) v.stats m.counts)).commitOp n i.idx m.counts).handshake
        k) := by
  obtain ⟨hmissing, hspace⟩ := hops
  simp only [State.tryVector, hcode, hx, hwait, hlim, hmissing, hspace, hpop, hrun, hroom]
  rfl

/-- Settles O21: one attempt at the instruction completes it. -/
theorem vectorInstructionCompletes : Obligations.VectorInstructionCompletes := by
  intro i s k n idx ti v hi h hv r x es m t hcode hx hlim hwait hmissing hspace hpop hrun outs hroom
  have hv' : r.1.vplan k ti = some v := (vplan_readied _ k n _ ti).trans hv
  obtain ⟨hpushes, htry⟩ := vplan_elim hv'
  have hidx : r.2.1.idx = idx := readied_idx _ k n _
  rw [exec_idle i s k n idx ti hi h (.inl hpushes), htry n false r.2.1 (readied_instr _ k n _),
    tryVector_runs hcode hx hlim hwait ⟨hmissing, hspace⟩ hpop hrun (by rw [hidx]; exact hroom), hidx]
  rfl

/-! ## What a fetch of items leaves as it is (R178, R181) -/

/-- From s to t suite k keeps its state and its program, and core n its sequencer and its walks. -/
structure State.KeepsWalks (k n : Nat) (s t : State) : Prop where
  st : (t.suite k).st = (s.suite k).st
  prog : (t.suite k).prog = (s.suite k).prog
  seq : (t.core n).seq = (s.core n).seq
  walks : (t.core n).walks = (s.core n).walks

theorem State.KeepsWalks.trans {k n : Nat} {s t u : State} (h : State.KeepsWalks k n s t) (g : State.KeepsWalks k n t u) :
    State.KeepsWalks k n s u :=
  ⟨g.st.trans h.st, g.prog.trans h.prog, g.seq.trans h.seq, g.walks.trans h.walks⟩

theorem State.KeepsWalks.of_same {k n : Nat} {s t : State} (hsuites : t.suites = s.suites) (hseq : (t.core n).seq = (s.core n).seq)
    (hwalks : (t.core n).walks = (s.core n).walks) : State.KeepsWalks k n s t := by
  have hsuite : t.suite k = s.suite k := congrArg (fun l => l.getD k Suite.free) hsuites
  exact ⟨congrArg Suite.st hsuite, congrArg Suite.prog hsuite, hseq, hwalks⟩

theorem handshake_keepsWalks (s : State) (k n : Nat) : State.KeepsWalks k n s (s.handshake k) :=
  ⟨s.suite_setSuite_keeps k k _ Suite.st (fun _ => rfl), s.suite_setSuite_keeps k k _ Suite.prog (fun _ => rfl), rfl, rfl⟩

theorem setQueue_walks (s : State) (n qi m : Nat) (f : QueueEnd → QueueEnd) :
    ((s.setQueue n qi f).core m).walks = (s.core m).walks :=
  s.core_setCore_keeps n m _ Core.walks (fun _ => rfl)

theorem giveBack_walks (s : State) (n qi m : Nat) (x : QueueEnd) (e : Entry) :
    ((s.giveBack n qi x e).core m).walks = (s.core m).walks := by
  unfold State.giveBack
  split
  · unfold State.oweCredit
    split <;> rfl
  · split
    · rfl
    · split <;> exact setQueue_walks s n qi m _

theorem popAt_keepsWalks {s t : State} {n qi j : Nat} {e : Entry} (k m : Nat) (h : s.popAt n qi j = some (e, t)) :
    State.KeepsWalks k m s t := by
  unfold State.popAt at h
  split at h
  · cases h
  · rename_i x _
    split at h
    · cases h
    · rename_i e' _
      cases h
      obtain ⟨hsuites, hseq⟩ := giveBack_keeps (s.setQueue n qi (fun y =>
        { y with entries := y.entries.eraseIdx j, used := y.used - e.granules })) n qi x e m
      exact .of_same hsuites (hseq.trans (s.core_setCore_keeps n m _ Core.seq (fun _ => rfl)))
        ((giveBack_walks _ n qi m x e).trans (setQueue_walks s n qi m _))

theorem tryGuard_keepsWalks {s t : State} {k n v : Nat} {p : WalkPlan} {sh : List ShVal} {held : Option Nat} {g : GuardRec}
    (h : s.tryGuard k n p sh held g v = .inl t) : State.KeepsWalks k n s t := by
  unfold State.tryGuard at h
  split at h
  · split at h
    · rename_i u hpop
      cases h
      exact (popAt_keepsWalks k n hpop).trans (handshake_keepsWalks u k n)
    · cases h
  all_goals
    split at h
    · cases h
      exact handshake_keepsWalks s k n
    · cases h

theorem tryGuards_keepsWalks (s : State) (k n v : Nat) (p : WalkPlan) (sh : List ShVal) (held : Option Nat) (l : List GuardRec)
    (at_ : Nat) : State.KeepsWalks k n s (s.tryGuards k n p sh held v at_ l).1 := by
  induction l generalizing s at_ with
  | nil => exact .of_same rfl rfl rfl
  | cons g l ih =>
    unfold State.tryGuards
    split
    · split
      · rename_i u hg
        exact (tryGuard_keepsWalks hg).trans (ih u (at_ + 1))
      · exact .of_same rfl rfl rfl
    · exact ih s (at_ + 1)

theorem touchSpans_keepsWalks (s : State) (k n : Nat) (shelf : Bool) (l : List (Nat × Int × Nat)) :
    State.KeepsWalks k n s (s.touchSpans shelf l) := by
  unfold State.touchSpans
  split
  · exact .of_same rfl rfl rfl
  · refine List.foldlRecOn (motive := State.KeepsWalks k n s) _ _ (.of_same rfl rfl rfl) (fun t ht e _ => ht.trans ?_)
    obtain ⟨c, m, d, h⟩ := touchAll_frame t e.2.1.toNat e.2.2
    rw [h]
    exact .of_same rfl rfl rfl

/-- A walk goes on as the same walk: its instruction, its descriptor and its bases are captured at its start (R177). -/
structure WalkRun.GoesOn (r q : WalkRun) : Prop where
  i : q.i = r.i
  walk : q.walk = r.walk
  bases : q.bases = r.bases
  spec : q.spec = r.spec

theorem WalkRun.next_goesOn (r : WalkRun) (p : WalkPlan) (items : List (List Nat × Nat)) : r.GoesOn (r.next p items) := by
  unfold WalkRun.next
  dsimp only
  split <;> exact ⟨rfl, rfl, rfl, rfl⟩

/-- Items that are formed change a walk's own progress, and what its guards take. -/
theorem fetchVisits_keeps {k n fuel : Nat} {p : WalkPlan} {s t : State} {r q : WalkRun}
    (h : s.fetchVisits k n p r fuel = (t, q, .none)) : State.KeepsWalks k n s t ∧ r.GoesOn q := by
  induction fuel generalizing s r with
  | zero =>
    cases h
    exact ⟨.of_same rfl rfl rfl, rfl, rfl, rfl, rfl⟩
  | succ fuel ih =>
    rw [State.fetchVisits] at h
    have hguards := tryGuards_keepsWalks s k n r.visit p r.i.sh none (p.d.guards.drop r.guardAt) r.guardAt
    split at h
    · cases h
    · rename_i u _ hu
      rw [hu] at hguards
      dsimp only at h
      split at h
      · cases h
      · have hitem := r.next_goesOn p ((u.readItem p r.visit).reverse ++ r.items)
        have hstep := hguards.trans (touchSpans_keepsWalks u k n p.d.shelf (p.spans r.visit))
        split at h
        · cases h
          exact ⟨hstep, hitem⟩
        · obtain ⟨hkeeps, hgoes⟩ := ih h
          exact ⟨hstep.trans hkeeps, hgoes.i.trans hitem.i, hgoes.walk.trans hitem.walk, hgoes.bases.trans hitem.bases,
            hgoes.spec.trans hitem.spec⟩

/-! ## Attempts at a walk (R153, R178, R181, R186) -/

theorem seq_setWalk (s : State) (n u m : Nat) (r : Option WalkRun) : ((s.setWalk n u r).core m).seq = (s.core m).seq :=
  s.core_setCore_keeps n m _ Core.seq (fun _ => rfl)

theorem walks_setWalk (s : State) (n u : Nat) (r : Option WalkRun) (h : n < s.cores.length) :
    ((s.setWalk n u r).core n).walks = (s.core n).walks.set u r := by
  rw [State.setWalk, s.core_setCore n _ h]

/-- An engine of a core has the walk that was put there. -/
theorem walk_setWalk {s : State} {n u : Nat} (r : Option WalkRun) (h : n < s.cores.length) (hu : u < (s.core n).walks.length) :
    ((s.setWalk n u r).core n).walks.getD u none = r := by
  rw [walks_setWalk s n u r h]
  simp [List.getD, hu]

theorem runPlan_congr {s t : State} {k : Nat} {r q : WalkRun} (hprog : (t.suite k).prog = (s.suite k).prog) (h : r.GoesOn q) :
    t.runPlan k q = s.runPlan k r := by
  rw [State.runPlan, State.runPlan, Suite.walkDesc, Suite.walkDesc, hprog, h.i, h.walk, h.bases]

/-- A walk at its start has the plan that its instruction captured. -/
theorem runPlan_startRun {s : State} {k w : Nat} {i : Issued} {bases : List BaseSrc} {p : WalkPlan}
    (h : s.walkPlanOf k i w bases = some p) : s.runPlan k (startRun i w p) = some p := by
  unfold State.walkPlanOf at h
  split at h
  · rename_i d hd
    split at h
    · unfold walkPlan at h
      split at h
      · rename_i b e o hb he ho
        cases h
        simp [State.runPlan, startRun, hd, walkPlan, hb, he, ho]
      · cases h
    · cases h
  · cases h

section
variable {s t : State} {k n : Nat} {i : Issued} {o : StWalkOp} {p : WalkPlan} {r q : WalkRun}

theorem tryWalk_starts {d : QName} (hdest : o.dest = .queue d) (hfree : (s.core n).walks.getD o.unit none = none)
    (hcode : s.walkCode k n o = none) (hplan : s.walkPlanOf k i o.walk o.bases = some p) (hwait : s.clauseWait i o.cl = some [])
    (htotal : p.total < M32) (hpos : p.total ≠ 0) (hlegal : s.planCode k p [] = none) :
    s.tryWalk k n i o = .go false (s.setWalk n o.unit (some (startRun i o.walk p))) := by
  simp only [State.tryWalk, hfree, hcode, hplan, hwait, Nat.not_le.mpr htotal, hlegal, State.beginDest, hdest, fetchRun, if_neg hpos]
  rfl

theorem tryWalk_fetches (hrun : (s.core n).walks.getD o.unit none = some r) (hplan : s.runPlan k r = some p) (hspec : r.spec = false)
    (hready : r.ready = []) (hmay : r.mayFetch p = true) (hfetch : s.fetchVisits k n p r p.pass = (t, q, .none)) :
    s.tryWalk k n i o = .go false (t.setWalk n o.unit (some q)) := by
  simp only [State.tryWalk, hrun, hplan, hspec, State.stepFetch, hready, hmay, hfetch]
  rfl

theorem tryWalk_delivers {d : QName} {e : Entry} (hdest : o.dest = .queue d) (hrun : (s.core n).walks.getD o.unit none = some r)
    (hplan : s.runPlan k r = some p) (hspec : r.spec = false) (hready : r.ready = [e]) (hlast : p.total ≤ r.visit)
    (hroom : s.free_ k n (s.localName d) e = true) :
    s.tryWalk k n i o = .go true (((s.push n r.i.no (s.localName d) e).handshake k).setWalk n o.unit none) := by
  simp only [State.tryWalk, hrun, hplan, hspec, State.stepFetch, hready, State.deliverEntry, hdest, hroom, hlast]
  rfl

end

/-! ## A walk of one entry on an idle core (R153) -/

section
variable {s u : State} {k n : Nat} {i : Issued}

theorem State.RunsOnly.settleFor_advances (h : s.RunsOnly k n i) (hc : s.takesClause k n i = false)
    (ha : s.attempt k n false i = .go false u) (m : Nat) : s.settleFor k n (m + 1) = u.settleFor k n m := by
  rw [h.settleFor_attempt hc, ha]
  rfl

theorem State.RunsOnly.settleFor_completes (h : s.RunsOnly k n i) (hc : s.takesClause k n i = false)
    (ha : s.attempt k n false i = .go true u) (m : Nat) : s.settleFor k n (m + 1) = (u.completed n i).settleFor k n m := by
  rw [h.settleFor_attempt hc, ha]
  rfl

/-- The core runs its instruction on where the suite runs and the sequencer is the same. -/
theorem State.RunsOnly.of_same_seq (h : s.RunsOnly k n i) (hst : (u.suite k).st = (s.suite k).st)
    (hseq : (u.core n).seq = (s.core n).seq) : u.RunsOnly k n i :=
  ⟨hst.trans h.running, hseq ▸ h.hold, hseq ▸ h.flow⟩

theorem clauseWait_unmet {w : WaitClause} (hmet : i.met = false) (hclause : (clausesOf i.instr).wait = some w) :
    s.clauseWait i (clausesOf i.instr) =
      (targetVal i.sh w.target).map (fun v => if flagMet (s.flagValue w.flag) v then [] else [flagWaitWord w.flag]) := by
  rw [State.clauseWait, hmet, hclause]
  rfl

theorem clauseReady_unmet {w : WaitClause} (hmet : i.met = false) (hclause : (clausesOf i.instr).wait = some w) :
    s.clauseReady i = (targetVal i.sh w.target).any (flagMet (s.flagValue w.flag)) := by
  rw [State.clauseReady, hmet, hclause]
  rfl

/-- A target that is known and reached leaves nothing to wait for, and nothing else does. -/
theorem any_of_no_waits {met : Nat → Bool} {target : Option Nat} {word : Nat}
    (h : target.map (fun v => if met v then [] else [word]) = some []) : target.any met = true := by
  obtain ⟨v, hv, hmet⟩ := Option.map_eq_some_iff.mp h
  simpa [hv] using hmet

/-- An instruction whose clause is satisfied and not to be taken up has no clause, or has it taken up already. -/
theorem clauseReady_settled (t : State) (hwait : s.clauseWait i (clausesOf i.instr) = some []) (hready : s.clauseReady i = false) :
    t.clauseReady i = false := by
  cases hmet : i.met with
  | true => simp [State.clauseReady, hmet]
  | false =>
    cases hclause : (clausesOf i.instr).wait with
    | none => simp [State.clauseReady, hclause]
    | some w =>
      rw [clauseWait_unmet hmet hclause] at hwait
      rw [clauseReady_unmet hmet hclause, any_of_no_waits hwait] at hready
      cases hready

/-- After `readied` the clause of a legal instruction whose clause is satisfied is not to be taken up. -/
theorem readied_settled (hcode : (s.readied k n i).1.codeOf k n (s.readied k n i).2.1 = none)
    (hwait : (s.readied k n i).1.clauseWait (s.readied k n i).2.1 (clausesOf i.instr) = some []) (t : State) :
    t.takesClause k n (s.readied k n i).2.1 = false := by
  unfold State.readied at hcode hwait ⊢
  split
  · exact takesClause_met rfl
  · rename_i hno
    rw [if_neg hno] at hcode hwait
    have hready : s.clauseReady i = false := by simpa [hcode] using hno
    rw [State.takesClause, clauseReady_settled t hwait hready]
    rfl

theorem readied_fuel (s : State) (k n : Nat) (i : Issued) : 2 ≤ (s.readied k n i).2.2 := by
  unfold State.readied
  split <;> exact Nat.le_of_ble_eq_true rfl

end

theorem startRun_mayFetch (i : Issued) (w : Nat) (p : WalkPlan) (h : p.total ≠ 0) : (startRun i w p).mayFetch p = true := by
  simp [WalkRun.mayFetch, WalkRun.staged, startRun, Nat.pos_of_ne_zero h]

/-- Settles O26: the first attempt at the walk starts it, the second forms its entry, and the third delivers that and completes. -/
theorem walkCompletes : Obligations.WalkCompletes := by
  intro s k n idx o q hdest h r p t2 r2 e hunit hfree hn hlen hcode hplan hwait htotal hpos hpass hlegal r1 t1 hfetch hready hvisit t3
    hroom
  have hinstr : r.2.1.instr = .stWalk o := readied_instr _ k n _
  have hattempt : ∀ t : State, t.attempt k n false r.2.1 = t.tryWalk k n r.2.1 o := fun t => by rw [State.attempt, hinstr]
  have hclause : ∀ t : State, t.takesClause k n r.2.1 = false :=
    readied_settled (by rw [State.codeOf, hinstr]; exact hcode) hwait
  obtain ⟨hkeeps, hgoes⟩ := fetchVisits_keeps hfetch
  have hruns : r.1.RunsOnly k n r.2.1 := (entered_runsOnly s k n idx _ h).readied
  have hruns1 : t1.RunsOnly k n r.2.1 := hruns.of_same_seq rfl (seq_setWalk r.1 n o.unit n _)
  have hruns2 : t2.RunsOnly k n r.2.1 := hruns1.of_same_seq hkeeps.st hkeeps.seq
  have hruns3 : t3.RunsOnly k n r.2.1 := hruns2.of_same_seq rfl (seq_setWalk t2 n o.unit n _)
  have hplan1 : t1.runPlan k r1 = some p := runPlan_startRun hplan
  have hplan3 : t3.runPlan k r2 = some p := (runPlan_congr (s := t1) hkeeps.prog hgoes).trans hplan1
  have hwalk1 : (t1.core n).walks.getD o.unit none = some r1 := walk_setWalk _ hn (hlen ▸ hunit)
  have hunit2 : o.unit < (t2.core n).walks.length := by
    rw [hkeeps.walks, walks_setWalk r.1 n o.unit _ hn, List.length_set, hlen]
    exact hunit
  have hwalk3 : (t3.core n).walks.getD o.unit none = some r2 :=
    walk_setWalk _ (t2.lt_cores_of_flow n (by simp [hruns2.flow])) hunit2
  have hstart : r.1.attempt k n false r.2.1 = .go false t1 :=
    (hattempt _).trans (tryWalk_starts hdest hfree hcode hplan hwait htotal hpos hlegal)
  have hform : t1.attempt k n false r.2.1 = .go false t3 :=
    (hattempt _).trans (tryWalk_fetches hwalk1 hplan1 rfl rfl (startRun_mayFetch _ _ p hpos) hfetch)
  have hdeliver := (hattempt _).trans (tryWalk_delivers hdest hwalk3 hplan3 hgoes.spec hready hvisit.ge hroom)
  obtain ⟨m, hm⟩ : ∃ m, r.2.2 = m + 2 := Nat.exists_eq_add_of_le' (readied_fuel _ k n _)
  rw [exec_idle (.stWalk n idx o) s k n idx (.stWalk o) rfl h (.inl rfl), hstart, hm, Nat.add_sub_cancel,
    ← hruns3.settleFor_completes (hclause t3) hdeliver m, ← hruns1.settleFor_advances (hclause t1) hform (m + 1)]
  rfl

end Sys2Proof.Machine

/-! SUPPORT. Proofs about suites: a kernel's start and its end. -/

namespace Sys2Proof.Machine

/-! ## The start and the end of a kernel (R138, R244, R253) -/

theorem suite_startKernel (s : State) (k j : Nat) (hk : k < s.suites.length) :
    (s.startKernel k j).suite k =
      { s.suite k with st := 4, stallFrom := s.now, disp := (s.suite k).disp.map (fun d => { d with kernel := j }) } :=
  s.suite_setSuite k _ hk

theorem suite_startKernel_other (s : State) (k j i : Nat) (hi : i ≠ k) : (s.startKernel k j).suite i = s.suite i :=
  s.suite_setSuite_other k i _ hi

/-- A kernel starts on the cores of its suite, and nothing happens on another one. -/
theorem core_startKernel (s : State) (k j n : Nat) (hn : n < s.cores.length) :
    (s.startKernel k j).core n = if bit (s.suite k).mask n then (s.core n).startKernel else s.core n := by
  simp [State.startKernel, State.core, List.getD, hn]

theorem core_startKernel_outside (s : State) (k j n : Nat) (h : bit (s.suite k).mask n = false) :
    (s.startKernel k j).core n = s.core n := by
  by_cases hn : n < s.cores.length
  · rw [core_startKernel s k j n hn, h]
    rfl
  · rw [s.core_of_no_core n hn, State.core_of_no_core _ n (by simpa [State.startKernel] using hn)]

theorem startKernelEffect : Claims.StartKernelEffect := by
  intro s k j hk t
  have hsuite := suite_startKernel s k j hk
  refine ⟨congrArg Suite.st hsuite, (congrArg Suite.mask hsuite :), suite_startKernel_other s k j, fun n hn hbit => ?_,
    core_startKernel_outside s k j, rfl⟩
  have hcore : t.core n = (s.core n).startKernel := by rw [core_startKernel s k j n hn, if_pos hbit]
  rw [hcore]
  exact ⟨rfl, rfl, rfl, rfl, rfl, rfl, rfl, rfl⟩

theorem exec_kernelComplete (s : State) (k : Nat) (hfw : s.firmwareActs = true) (hk : k < 32) :
    exec (.kernelComplete k) s = .next (s.sameInputs (s.kernelEnd k)) :=
  on_next s _ (on_of_firmwareActs s hfw) _ (decide_eq_true hk)

theorem kernelOver_iff (s : State) (k : Nat) : s.kernelOver k = true ↔ ∀ n, n ∈ coresOf (s.suite k).mask → s.coreDone n = true :=
  List.all_eq_true

section
variable {s : State} {k : Nat} {d : Disp} (hfw : s.firmwareActs = true) (hst : (s.suite k).st = 4) (hd : (s.suite k).disp = some d)
include hd

theorem kernelEnd_not_over (hover : s.kernelOver k = false) : s.kernelEnd k = s := by
  simp [State.kernelEnd, hd, hover]

include hfw hst

/-- A kernel that is complete on every core gives place to the next, or it was the last of its entry or step. -/
theorem kernelEnd_over (hover : s.kernelOver k = true) :
    let e : Disp := { d with done := d.done + 1 }
    let t := s.setSuite k (fun x => { x with disp := some e })
    s.kernelEnd k = if d.kernel < d.last then t.startKernel k (d.kernel + 1) else t.entryDone k e := by
  simp [State.kernelEnd, hd, hover, hst, hfw]

end

theorem kernelEndOutcomes : Claims.KernelEndOutcomes := by
  intro s k d hk hfw hst hd e t
  rw [exec_kernelComplete s k hfw hk]
  refine ⟨fun hdone hmore => ?_, fun hdone hlast => ?_, fun ⟨n, hn, hbusy⟩ => ?_⟩
  · rw [kernelEnd_over hfw hst hd ((kernelOver_iff s k).mpr hdone), if_pos hmore]
  · rw [kernelEnd_over hfw hst hd ((kernelOver_iff s k).mpr hdone), if_neg (Nat.not_lt.mpr hlast)]
  · have hover : s.kernelOver k = false := by
      rw [Bool.eq_false_iff]
      exact fun h => ne_true_of_eq_false hbusy ((kernelOver_iff s k).mp h n hn)
    rw [kernelEnd_not_over hd hover, State.sameInputs_self]

/-- Settles O15: what the start of a kernel sets, and the three ends of a kernel. -/
theorem kernelStartAndEnd : Obligations.KernelStartAndEnd := ⟨startKernelEffect, kernelEndOutcomes⟩

end Sys2Proof.Machine

/-! SUPPORT. Proofs about the commands of suites, rings, steps and functions: the effect of each where nothing stands in its way. -/

namespace Sys2Proof.Machine

/-! ## Walks whose guards are satisfied (R121, R181, R186) -/

/-- A walk that stands alone in flow with nothing staged forms its next entry. -/
theorem settle_walk_fetches {s t : State} {k n : Nat} {i : Issued} {o : StWalkOp} {p : WalkPlan} {r q : WalkRun}
    (h : s.RunsOnly k n i) (hi : i.instr = .stWalk o) (hmet : i.met = true) (hrun : (s.core n).walks.getD o.unit none = some r)
    (hplan : s.runPlan k r = some p) (hspec : r.spec = false) (hready : r.ready = []) (hmay : r.mayFetch p = true)
    (hfetch : s.fetchVisits k n p r p.pass = (t, q, .none)) :
    s.settle k n = (t.setWalk n o.unit (some q)).settleFor k n 16 := by
  have hattempt : s.attempt k n false i = .go false (t.setWalk n o.unit (some q)) := by
    rw [State.attempt, hi]
    exact tryWalk_fetches hrun hplan hspec hready hmay hfetch
  rw [State.settle, h.flow]
  exact h.settleFor_advances (takesClause_met hmet) hattempt 16

/-- A flag that has reached its target satisfies the guard that names it (R121). -/
theorem tryGuard_flag_met {s : State} {k n v w : Nat} {p : WalkPlan} {sh : List ShVal} {held : Option Nat} {f : FlagName} {g : GuardRec}
    (hw : p.guardTarget sh g v = some w) (hf : guardFlag g = some f) (hmet : flagMet (s.flagValue f) w = true) :
    s.tryGuard k n p sh held g v = .inl (s.handshake k) := by
  cases g with
  | entry l q => cases hf
  | flag | row =>
    cases hf
    rw [State.tryGuard, hw]
    exact if_pos hmet

/-! ## The end of a reseat (R416) -/

theorem noticeAll_keeps (s : State) (type : Nat) (body : List Byte) :
    (s.noticeAll type body).health = s.health ∧ (s.noticeAll type body).fab = s.fab := by
  refine List.foldlRecOn (motive := fun (t : State) => t.health = s.health ∧ t.fab = s.fab) _ _ ⟨rfl, rfl⟩ (fun t ht f _ => ?_)
  rwa [State.notice_health, State.notice_fab]

/-- A device whose reseat ends is out of service, or it is ready again with a core and the new epoch. -/
theorem endReseat_ready (s : State) (r : TestResults) (e : Nat) :
    (s.endReseat r e).reseating = false ∧
      ((s.endReseat r e).health.phase = 6 ∨
        (s.endReseat r e).health.phase = 4 ∧ (s.endReseat r e).health.present ≠ 0 ∧ (s.endReseat r e).fab.epoch = e) := by
  unfold State.endReseat
  dsimp only
  split
  · exact ⟨rfl, .inl rfl⟩
  · split
    · exact ⟨rfl, .inl rfl⟩
    · rename_i hcores
      rw [State.reseating, (noticeAll_keeps _ _ _).1, (noticeAll_keeps _ _ _).2]
      exact ⟨rfl, .inr ⟨rfl, hcores, rfl⟩⟩

theorem exec_reseatReady (s : State) (r : TestResults) (e : Nat) (hre : s.reseating = true) (hfw : s.firmwareActs = true)
    (htrip : s.power.trip = false) : exec (.reseatReady r e) s = .next (s.sameInputs (s.endReseat r e)) := by
  have hend : s.reseatReady r e = s.endReseat r e := by simp [State.reseatReady, hre, hfw, htrip]
  rw [← hend]
  exact whenOn_next s _ (on_of_firmwareActs s hfw)

/-! ## Rings (R246, R248, R253) -/

/-- A ring setup whose checks pass stands with what its number keeps of the ring before it (R246, R268). -/
theorem actRingSetup_stands (s : State) (r : Req) :
    let n := fld r.body 0 2
    let g : Ring := { ringOf r.fn r.body with rejected := s.ringRejected n, media := ((s.ring? n).map Ring.media).getD false }
    s.ownsRing r.fn n = true → (∀ o, s.ring? n = some o → o.owner = r.fn ∧ o.suite = none) → ringRange r.body = true → 16 ≤ g.base →
    s.inFn r.fn (g.base - 16) (16 + 2 ^ (g.slotLog + g.cntLog)) = true →
    actRingSetup s r =
      ({ s with rings := aSet s.rings n g, ringRejects := s.ringRejects.filter (· != n) }, some (0, [])) := by
  intro n g howns hold hrange hbase hin
  have hmine : (!s.ownsRing r.fn n || (match s.ring? n with | some o => o.owner != r.fn | none => false)) = false := by
    cases hring : s.ring? n with
    | none => simp [howns]
    | some o => simp [howns, (hold o hring).1]
  have hunbound : (match s.ring? n with | some o => o.suite.isSome | none => false) = false := by
    cases hring : s.ring? n with
    | none => rfl
    | some o => simp [(hold o hring).2]
  have hplace : (g.base < 16 || !s.inFn r.fn (g.base - 16) (16 + 2 ^ (g.slotLog + g.cntLog))) = false := by
    rw [hin]
    simpa using hbase
  have hmedia : (match s.ring? n with | some o => o.media | none => false) = ((s.ring? n).map Ring.media).getD false := by
    cases s.ring? n <;> rfl
  unfold actRingSetup
  dsimp only
  refine (if_neg (ne_true_of_eq_false hmine)).trans ((if_neg (ne_true_of_eq_false hunbound)).trans ((if_neg ?_).trans
    ((if_neg (ne_true_of_eq_false hplace)).trans ?_)))
  · rw [hrange]
    exact Bool.false_ne_true
  · exact congrArg (fun m : Bool =>
      (({ s with
          rings := aSet s.rings n { ringOf r.fn r.body with rejected := s.ringRejected n, media := m }
          ringRejects := s.ringRejects.filter (· != n) } : State), some (0, ([] : List Byte)))) hmedia

/-- The owner's doorbell that keeps the ring between empty and full moves the host's P. -/
theorem doorbell_submits {s : State} {f rn v : Nat} {r : Ring} (hr : s.ring? rn = some r) (howner : r.owner = f)
    (hkind : (r.kind = 0 ∧ (s.func f).orphan = false) ∨ r.kind = 3) (hv : (v + M32 - r.c) % M32 ≤ r.slots) :
    s.doorbell f rn v = (s.setRing rn (fun x => { x with p := v })).ringFlag rn
      (if (v + M32 - r.p) % M32 ≤ r.slots then (v + M32 - r.p) % M32 else 0) := by
  have hmay : (r.owner != f || (r.kind = 0 && (s.func f).orphan)) = false := by
    obtain ⟨hk, ho⟩ | hk := hkind
    · simp [howner, ho]
    · simp [howner, hk]
  have hhost : (r.kind = 0 || r.kind = 3) = true := by
    obtain ⟨hk, -⟩ | hk := hkind <;> simp [hk]
  simp only [State.doorbell, hr, hmay, hhost, Nat.not_lt.mpr hv]
  rfl

/-- A completion entry that is due is written once its ring has a free slot. -/
theorem writeComp_written {s : State} {rn : Nat} {c : Comp} {r : Ring} (hc : s.comps.find? (fun c => c.ring = rn) = some c)
    (hr : s.ring? rn = some r) (hfree : r.free ≠ 0) (hrun : r.stopped = false) (hfw : s.firmwareActs = true)
    (hwrites : s.ringWrites r (r.slotAddr r.p) 32 = true) (hafter : c.after = .none) :
    s.writeComp rn = ({ s with comps := s.comps.erase c } : State).ringAppend rn c.bytes := by
  simp [State.writeComp, hc, hr, hfree, hrun, hfw, hwrites, hafter]

/-! ## Entries and steps (R252 to R258) -/

theorem firmwareActs_of_suiteIdle {s : State} {k : Nat} (h : s.suiteIdle k = true) : s.firmwareActs = true := by
  simp only [State.suiteIdle, Bool.and_eq_true] at h
  exact h.1.1.1.1

/-- An entry that is good, whose pins hold and whose reservations are free starts its first kernel. -/
theorem dispatch_starts {s : State} {k : Nat} {r : Ring} (hidle : s.suiteIdle k = true) (hstarted : (s.suite k).started = false)
    (hassembled : (s.suite k).assembled = false) (hr : s.ring? (s.suite k).subRing = some r) (hheld : r.held ≠ 0)
    (hrun : r.stopped = false) (hreads : s.ringReads r (r.slotAddr r.c) 256 = true) :
    let e := parseEntry (s.devRead (r.slotAddr r.c) 256)
    let t := s.touchPins e.recs (s.touchAll (r.slotAddr r.c) 256)
    t.badEntry k e = false → e.recs.all t.pinHolds = true → t.resvFits k e.resv = true →
    s.dispatch k = ((t.reserve k e.resv).setSuite k (fun x => { x with
      disp := some { isStep := false, index := r.c, first := e.first, last := e.last, kernel := e.first, words := e.words,
                     notify := decide (e.flags = 1), resv := e.resv,
                     pins := e.recs.map (fun p => { ring := p.1, index := p.2.1 }), done := 0 } })).beginRun k e.first := by
  intro e t hgood hpins hfits
  have hmay : (!s.suiteIdle k || (s.suite k).started || (s.suite k).assembled || r.held = 0 || r.stopped) = false := by
    simp [hidle, hstarted, hassembled, hheld, hrun]
  have hread : ¬ (!s.ringReads r (r.slotAddr r.c) 256) = true := by simp [hreads]
  have hpinned : ¬ (!e.recs.all t.pinHolds) = true := by rw [hpins]; exact Bool.false_ne_true
  have hfree : ¬ (!t.resvFits k e.resv) = true := by rw [hfits]; exact Bool.false_ne_true
  simp only [State.dispatch, hr]
  rw [if_neg (ne_true_of_eq_false hmay), if_neg hread, if_neg (ne_true_of_eq_false hgood), if_neg hpinned, if_neg hfree]

/-- An assembled step whose reservation is free is dispatched. -/
theorem assemble_dispatches {s : State} {k : Nat} (hidle : s.suiteIdle k = true) (hbatch : (s.suite k).batching = true)
    (hlast : (s.suite k).lastStep < (s.suite k).kernels) (hassembled : (s.suite k).assembled = true)
    (hfits : s.resvFits k (s.suite k).stepResv = true) :
    let x := s.suite k
    s.assemble k = ((s.reserve k x.stepResv).setSuite k (fun y =>
      { y with stepNo := y.stepNo + 1, assembled := false,
               disp := some { isStep := true, index := x.stepNo % M32, first := x.firstStep, last := x.lastStep, kernel := x.firstStep,
                              words := stepWords x.stepBuf x.stepNo x.rows, notify := false, resv := x.stepResv, pins := [],
                              done := 0 } })).beginRun k x.firstStep := by
  simp [State.assemble, State.stepDispatch, hidle, hbatch, hlast, hassembled, hfits]

/-! ## Functions (R262 to R266) -/

/-- A function whose last heartbeat lies 300 ms back becomes an orphan. -/
theorem orphanize_late {s : State} {f b : Nat} (hf : f < 17) (hfw : s.firmwareActs = true) (hbeat : (s.func f).beat = some b)
    (horphan : (s.func f).orphan = false) (hlate : b + 300000000 ≤ s.now) :
    s.orphanize f =
      ((s.setFunc f (fun x => { x with orphan := true })).logE 0x0030 0 f 0xff 0 0 (b % M32) (b / M32) 0).dueEvent f 0x01 := by
  simp [State.orphanize, hf, hfw, hbeat, horphan, hlate]

/-- A function that is no orphan gets the records of its rings and suites in its buffer. -/
theorem actAdopt_records (s : State) (r : Req) :
    let a := fld r.body 0 8
    let n := fld r.body 8 4
    let recs := (s.ringsOf r.fn).flatMap ringRecord ++ (s.suitesOf r.fn).flatMap s.suiteRecord
    a % 16 = 0 → 65536 ≤ n → n ≤ 2097152 → n % 16 = 0 → fld r.body 12 4 = 0 → s.inFn r.fn a n = true → recs.length ≤ n →
    s.writable a recs.length = true → (s.func r.fn).orphan = false →
    actAdopt s r = (s.hubWrite a recs, some (0, toLE 4 (s.ringsOf r.fn).length ++ toLE 4 (s.suitesOf r.fn).length)) := by
  intro a n recs ha hlo hhi hn hres hin hfits hwritable horphan
  have hrange : (a % 16 != 0 || n < 65536 || 2097152 < n || n % 16 != 0 || fld r.body 12 4 != 0 || !s.inFn r.fn a n) = false := by
    simp [ha, hn, hres, hin]
    omega
  have hwritten : ¬ (!s.writable a recs.length) = true := by simp [hwritable]
  unfold actAdopt
  dsimp only
  rw [if_neg (ne_true_of_eq_false hrange), if_neg (Nat.not_lt.mpr hfits), if_neg hwritten, if_neg (ne_true_of_eq_false horphan)]

theorem actAllocation_stands {s : State} {r : Req} (hrange : allocRange r.body = true)
    (hover : s.allocOverlaps (byteAt r.body 0) (allocOf r.body) = false)
    (hwith : s.allocWithdraws (byteAt r.body 0) (allocOf r.body) = false) :
    actAllocation s r = (s.setFunc (byteAt r.body 0) (fun x => { x with alloc := allocOf r.body }), some (0, [])) := by
  simp [actAllocation, hrange, hover, hwith]

/-! ## Each command of suites, rings, steps and functions completes -/

/-- Settles O55: the gate of each command answers its effect, and a rule about that effect says what it is. -/
theorem suiteCommandsComplete : Obligations.SuiteCommandsComplete := by
  unfold Obligations.SuiteCommandsComplete
  refine ⟨?stall, ?wait, ?walk, ?guard, ?reseat, ?ringSetup, ?doorbell, ?dispatch, ?completion, ?step, ?heartbeat, ?adopt, ?allocation⟩
  case stall =>
    intro s k hk hon hst hover hnow hlen
    obtain ⟨hst5, hcause, -⟩ := suite_stallHalt s k hlen
    rw [exec_stallWatchdogExpiry, stallExpiry_due s k hst hover hnow, on_next s _ hon _ (decide_eq_true hk)]
    exact ⟨_, rfl, hst5, hcause⟩
  case wait =>
    intro s n k no idx v f hon hn hk hst hhold hmet hflow
    rw [exec_waitSatisfied s n k hon hn hk, settle_met hhold hst hmet hflow]
    rfl
  case walk =>
    intro s t n k i o r q p hon hn hu hk hst hhold hflow hi hmet hrun hspec hready hplan hmay hfetch
    rw [exec_walkGuardSatisfied s n o.unit k hon hn hu hk,
      settle_walk_fetches ⟨hst, hhold, hflow⟩ hi hmet hrun hplan hspec hready hmay hfetch]
  case guard =>
    exact fun s k n v w p sh f g hw hf hmet => tryGuard_flag_met hw hf hmet
  case reseat =>
    intro s r e hre hfw htrip
    obtain ⟨hdone, hphase⟩ := endReseat_ready s r e
    refine ⟨_, exec_reseatReady s r e hre hfw htrip, hdone, ?_⟩
    obtain hout | ⟨hready, hcores, hepoch⟩ := hphase
    · exact ⟨.inr hout, fun h4 => absurd (hout.symm.trans h4) (by decide)⟩
    · exact ⟨.inl hready, fun _ => ⟨hcores, hepoch⟩⟩
  case ringSetup =>
    intro s p r h n g howns hold hrange hbase hin
    exact accepted_message_answer s p _ _ r _ _ _ h (actRingSetup_stands (s.accepted r) r howns hold hrange hbase hin)
  case doorbell =>
    intro s f rn v r hon hf hrn hv hr howner hkind hslots
    have hexec : exec (.ringDoorbell f rn v) s = .next (s.sameInputs (s.doorbell f rn (v % M32))) :=
      on_next s _ hon _ (by simp [hf, hrn])
    rw [hexec, Nat.mod_eq_of_lt hv, doorbell_submits hr howner hkind hslots]
  case dispatch =>
    intro s k r hk hidle hstarted hassembled hr hheld hrun hreads e t hgood hpins hfits
    have hexec : exec (.dispatchEntry k) s = .next (s.sameInputs (s.dispatch k)) :=
      on_next s _ (on_of_firmwareActs s (firmwareActs_of_suiteIdle hidle)) _ (decide_eq_true hk)
    rw [hexec, dispatch_starts hidle hstarted hassembled hr hheld hrun hreads hgood hpins hfits]
  case completion =>
    intro s rn c r hon hrn hc hr hfree hrun hfw hwrites hafter
    have hexec : exec (.completionEntryWrite rn) s = .next (s.sameInputs (s.writeComp rn)) := on_next s _ hon _ (decide_eq_true hrn)
    rw [hexec, writeComp_written hc hr hfree hrun hfw hwrites hafter]
  case step =>
    intro s k hk hidle hbatch hlast _ hassembled hfits x
    have hexec : exec (.stepAssembly k) s = .next (s.sameInputs (s.assemble k)) :=
      on_next s _ (on_of_firmwareActs s (firmwareActs_of_suiteIdle hidle)) _ (decide_eq_true hk)
    rw [hexec, assemble_dispatches hidle hbatch hlast hassembled hfits]
  case heartbeat =>
    intro s f b hf hfw hbeat horphan hlate
    have hexec : exec (.heartbeatTimeout f) s = .next (s.sameInputs (s.orphanize f)) :=
      on_next s _ (on_of_firmwareActs s hfw) _ (decide_eq_true hf)
    rw [hexec, orphanize_late hf hfw hbeat horphan hlate]
  case adopt =>
    intro s p r h a n recs ha hlo hhi hn hres hin hfits hwritable horphan
    exact accepted_message_answer s p _ _ r _ _ _ h
      (actAdopt_records (s.accepted r) r ha hlo hhi hn hres hin hfits hwritable horphan)
  case allocation =>
    intro s p r h hrange hover hwith
    exact accepted_message_answer s p _ _ r _ _ _ h (actAllocation_stands (s := s.accepted r) hrange hover hwith)

end Sys2Proof.Machine

/-! SUPPORT. Proofs about the loading of a program: the load message, the digest of its image, the broadcast and its rounds. -/

namespace Sys2Proof.Machine

/-! ## The load message (R233, R263) -/

theorem actLoad_begins {s : State} {r : Req} (g : Program) (hst : (s.suite r.suite).st = 1) (howner : (s.suite r.suite).owner = r.fn)
    (hrange : s.loadRange r = true) :
    actLoad g s r = (s.setSuite r.suite (fun x => { x with
      st := 2, load := some { pair := r.pair, addr := fld r.body 0 8, len := fld r.body 8 4, prog := g, image := [], phase := 0,
                              round := 0, sent := [], seen := [], missing := [] } }), none) := by
  simp [actLoad, hst, howner, hrange]

theorem actLoad_foreign {s : State} {r : Req} (g : Program) (hst : (s.suite r.suite).st ≠ 0)
    (howner : (s.suite r.suite).owner ≠ r.fn) :
    actLoad g s r = (s, some (0x04, loadFields 0xff 0 0 [])) := by
  simp [actLoad, hst, howner]

theorem actLoad_wrong_state {s : State} {r : Req} (g : Program) (hst : (s.suite r.suite).st ≠ 1)
    (hforeign : ¬ ((s.suite r.suite).st ≠ 0 ∧ (s.suite r.suite).owner ≠ r.fn)) :
    actLoad g s r = (s, some (0x64, loadFields 0xff 0 0 [])) := by
  simp only [actLoad, bne_iff_ne, Bool.and_eq_true]
  rw [if_neg hforeign, if_pos hst]

theorem actLoad_out_of_range {s : State} {r : Req} (g : Program) (hst : (s.suite r.suite).st = 1)
    (howner : (s.suite r.suite).owner = r.fn) (hrange : s.loadRange r = false) :
    actLoad g s r = (s, some (0x65, loadFields 0xff 0 0 [])) := by
  simp [actLoad, hst, howner, hrange]

/-- The four outcomes of a load request: an acceptance changes its pair only, so that the suite and the range are as before it. -/
theorem loadOutcomes : Claims.LoadOutcomes := by
  intro s p g r h
  obtain ⟨-, hreq, -, -⟩ := accepts_elim s p _ r h
  obtain ⟨-, rfl, -⟩ := request_eq s p r hreq
  refine ⟨fun ⟨hst, howner⟩ hrange => ?begins, fun ⟨hst, howner⟩ => ?foreign, fun hmay hforeign => ?state,
    fun ⟨hst, howner⟩ hrange => ?range⟩
  case begins => exact accepted_message_silent s _ _ _ r _ h (actLoad_begins (s := s.accepted r) g hst howner hrange)
  case foreign => exact accepted_message_answer s _ _ _ r _ _ _ h (actLoad_foreign (s := s.accepted r) g hst howner)
  case state =>
    have hst : (s.suite r.suite).st ≠ 1 := fun h1 => hforeign ⟨by omega, fun howner => hmay ⟨h1, howner⟩⟩
    exact accepted_message_answer s _ _ _ r _ _ _ h (actLoad_wrong_state (s := s.accepted r) g hst hforeign)
  case range => exact accepted_message_answer s _ _ _ r _ _ _ h (actLoad_out_of_range (s := s.accepted r) g hst howner hrange)

/-! ## The digest of a staged image (R226, R230) -/

theorem on_of_fwOn (s : State) (h : s.fwOn = true) : s.on = true := by
  simp only [State.fwOn, Bool.and_eq_true] at h
  exact h.1

theorem exec_loadDigestDone (s : State) (k : Nat) (hon : s.on = true) (hk : k < 32) :
    exec (.loadDigestDone k) s = .next (s.sameInputs (s.digestDone k)) :=
  on_next s _ hon _ (decide_eq_true hk)

/-- The digest of everything before the trailer of the image that a load names. -/
def State.imageDigest (s : State) (l : Load) : List Byte := sha384 ((s.devRead l.addr l.len).take (l.len - 48))

/-- The trailer of that image. -/
def State.imageTrailer (s : State) (l : Load) : List Byte := (s.devRead l.addr l.len).drop (l.len - 48)

/-- The image has been read for its digest, and the suite shows the digest. -/
def State.digested (s : State) (k : Nat) (l : Load) : State :=
  (s.touchAll l.addr l.len).setSuite k (fun x => { x with digest := s.imageDigest l })

/-- The load ends because its digest differs from the trailer. -/
def State.digestRefused (s : State) (k : Nat) (l : Load) : State :=
  ((s.digested k l).setLoad k (fun l => { l with phase := 1 })).failLoad k 0x60 0xff

section
variable {s : State} {k : Nat} {l : Load} (hst : (s.suite k).st = 2) (hload : (s.suite k).load = some l) (hphase : l.phase = 0)
  (hfw : s.fwOn = true) (hupdate : s.fw.update ≠ 4)
include hst hload hphase hfw hupdate

theorem digestDone_equal (hd : s.imageDigest l = s.imageTrailer l) :
    s.digestDone k = ((s.digested k l).applySections k (imageProgram (s.devRead l.addr l.len) l.prog)).setLoad k (fun l' =>
      { l' with phase := 1, image := s.devRead l.addr l.len }) := by
  rw [State.imageDigest, State.imageTrailer] at hd
  simp [State.digestDone, State.digested, State.imageDigest, hload, hst, hphase, hfw, hupdate, hd]

theorem digestDone_differs (hd : s.imageDigest l ≠ s.imageTrailer l) : s.digestDone k = s.digestRefused k l := by
  rw [State.imageDigest, State.imageTrailer] at hd
  simp [State.digestDone, State.digestRefused, State.digested, State.imageDigest, hload, hst, hphase, hfw, hupdate, hd]

end

theorem digestOutcomes : Claims.DigestOutcomes := by
  intro s k l hk hfw hupdate hst hload hphase image d t
  rw [exec_loadDigestDone s k (on_of_fwOn s hfw) hk]
  refine ⟨fun hequal => ?_, fun hdiffers => ?_⟩
  · rw [digestDone_equal hst hload hphase hfw hupdate hequal]
    rfl
  · rw [digestDone_differs hst hload hphase hfw hupdate hdiffers]
    rfl

/-- Settles O17: the outcomes of the load message, and those of the digest. -/
theorem loadBegins : Obligations.LoadBegins := ⟨loadOutcomes, digestOutcomes⟩

/-! ## The end of a load (R229, R230, R233) -/

@[simp] theorem State.pair_setSuite (s : State) (k p : Nat) (f : Suite → Suite) : (s.setSuite k f).pair p = s.pair p := rfl

theorem touchAll_suites (s : State) (a n : Nat) : (s.touchAll a n).suites = s.suites := by
  obtain ⟨c, m, d, h⟩ := touchAll_frame s a n
  rw [h]

theorem length_suites_digested (s : State) (k : Nat) (l : Load) : (s.digested k l).suites.length = s.suites.length := by
  simp [State.digested, touchAll_suites]

theorem suite_digested (s : State) (k : Nat) (l : Load) (hk : k < s.suites.length) :
    (s.digested k l).suite k = { s.suite k with digest := s.imageDigest l } := by
  rw [State.digested, State.suite_setSuite _ _ _ (by rwa [touchAll_suites]), State.suite, touchAll_suites, State.suite]

/-- The look-ups of the image and its digest change translation's cache and the suites. -/
theorem digested_frame (s : State) (k : Nat) (l : Load) :
    ∃ x m d, s.digested k l = { s with suites := x, xlt := m, free := d } := by
  obtain ⟨c, m, d, h⟩ := touchAll_frame s l.addr l.len
  exact ⟨_, _, _, by rw [State.digested, h]; rfl⟩

/-- An answer changes the pairs, the functions' pending vectors and what is sent out. -/
theorem answerLate_frame (s : State) (p status : Nat) (e : List Byte) :
    ∃ ps fs o, s.answerLate p status e = { s with pairs := ps, funcs := fs, out := o } := by
  unfold State.answerLate
  split
  · exact ⟨_, _, _, deliver_frame _ _ _⟩
  · exact ⟨s.pairs, s.funcs, s.out, rfl⟩

theorem answerLate_suite (s : State) (p status k : Nat) (e : List Byte) : (s.answerLate p status e).suite k = s.suite k := by
  obtain ⟨ps, fs, o, h⟩ := answerLate_frame s p status e
  rw [h]
  rfl

/-- A reply holds its status behind a header of 16 bytes (R376, R378). -/
theorem replyBytes_status (s : State) (r : Req) (status : Nat) (e : List Byte) :
    ∃ h, s.replyBytes r status e = h ++ toLE 4 status ++ e ∧ h.length = 16 := by
  simp only [State.replyBytes, mkMessage, ← List.append_assoc]
  exact ⟨_, rfl, rfl⟩

theorem pair_irq (s : State) (f v p : Nat) : (s.irq f v).pair p = s.pair p := by
  rw [State.pair, State.irq_pairs, State.pair]

theorem deliver_stored (s : State) (p : Nat) (m : List Byte) (hp : p < s.pairs.length) :
    ((s.deliver p m).pair p).stored = (s.pair p).stored := by
  unfold State.deliver
  split
  · rw [State.pair_setPair _ _ _ hp]
  · rw [pair_irq, State.pair_setPair _ _ _ hp]

/-- An answer that was still due is the reply that its pair keeps (R379). -/
theorem answerLate_stored (s : State) (p status : Nat) (e : List Byte) (hp : p < s.pairs.length) (hbusy : (s.pair p).busy = true) :
    ((s.answerLate p status e).pair p).stored = s.replyBytes (parseReq p (s.pair p).asked) status e := by
  rw [State.answerLate, if_pos hbusy, State.answer]
  exact (deliver_stored _ p _ (by simpa using hp)).trans (congrArg Pair.stored (State.pair_setPair _ _ _ hp))

section
variable {s : State} {k : Nat} {l : Load} (hload : (s.suite k).load = some l) (hphase : l.phase ≠ 2) (status core : Nat)
include hload hphase

/-- A load that fails is over: its message is answered, and the suite is in state 1. -/
theorem failLoad_answers : ∃ e, s.failLoad k status core =
    ((s.setSuite k (fun x => { x with load := none })).answerLate l.pair status e).setSuite k (fun x => { x with st := 1 }) := by
  simp only [State.failLoad, State.endLoad, hload, if_neg hphase]
  exact ⟨_, rfl⟩

theorem suite_failLoad (hk : k < s.suites.length) :
    (s.failLoad k status core).suite k = { s.suite k with st := 1, load := none } := by
  obtain ⟨e, h⟩ := failLoad_answers hload hphase status core
  obtain ⟨ps, fs, o, hframe⟩ := answerLate_frame (s.setSuite k (fun x => { x with load := none })) l.pair status e
  have hlen : k < ((s.setSuite k (fun x => { x with load := none })).answerLate l.pair status e).suites.length := by
    simpa [hframe] using hk
  rw [h, State.suite_setSuite _ _ _ hlen, answerLate_suite, State.suite_setSuite _ _ _ hk]

/-- The end of a load changes suites, pairs, pending vectors and what is sent out. -/
theorem failLoad_frame : ∃ x ps fs o, s.failLoad k status core = { s with suites := x, pairs := ps, funcs := fs, out := o } := by
  obtain ⟨e, h⟩ := failLoad_answers hload hphase status core
  obtain ⟨ps, fs, o, hframe⟩ := answerLate_frame (s.setSuite k (fun x => { x with load := none })) l.pair status e
  exact ⟨_, ps, fs, o, by rw [h, hframe]; rfl⟩

theorem failLoad_stored (hpair : l.pair < s.pairs.length) (hbusy : (s.pair l.pair).busy = true) :
    ∃ h e, ((s.failLoad k status core).pair l.pair).stored = h ++ toLE 4 status ++ e ∧ h.length = 16 := by
  obtain ⟨e, heq⟩ := failLoad_answers hload hphase status core
  obtain ⟨h, hreply, hlen⟩ := replyBytes_status (s.setSuite k (fun x => { x with load := none }))
    (parseReq l.pair (s.pair l.pair).asked) status e
  refine ⟨h, e, ?_, hlen⟩
  rw [heq, State.pair_setSuite]
  exact (answerLate_stored (s.setSuite k (fun x => { x with load := none })) l.pair status e hpair hbusy).trans hreply

end

theorem suite_setLoad (s : State) (k : Nat) (f : Load → Load) (hk : k < s.suites.length) :
    (s.setLoad k f).suite k = { s.suite k with load := (s.suite k).load.map f } :=
  State.suite_setSuite s k _ hk

/-- Step 3 names the suite's program and its groups; its state and its digest stay. -/
theorem suite_applySections (s : State) (k : Nat) (g : Program) (hk : k < s.suites.length) :
    (s.applySections k g).suite k = { s.suite k with groups := groupsOf g, prog := some g } :=
  State.suite_setSuite _ k _ hk

/-- A suite's record in a report ends with its digest, behind 16 bytes (R374). -/
theorem attestSuite_digest (s : State) (k : Nat) (h : (s.suite k).prog.isSome = true) :
    (s.attestSuite k).drop 16 = padTo 48 (s.suite k).digest := by
  simp only [State.attestSuite, if_pos h]
  rfl

section
variable {s : State} {k : Nat} {l : Load} (hk : k < s.suites.length) (hload : (s.suite k).load = some l)
include hk hload

/-- A load whose digest is known and differs is still a load in progress. -/
theorem suite_digested_setLoad : ((s.digested k l).setLoad k (fun l => { l with phase := 1 })).suite k =
    { s.suite k with digest := s.imageDigest l, load := some { l with phase := 1 } } := by
  rw [suite_setLoad _ k _ (by rwa [length_suites_digested]), suite_digested s k l hk, hload, Option.map_some]

theorem suite_digestRefused :
    (s.digestRefused k l).suite k = { s.suite k with digest := s.imageDigest l, st := 1, load := none } := by
  have hloading := suite_digested_setLoad hk hload
  rw [State.digestRefused, suite_failLoad (congrArg Suite.load hloading) (by simp) 0x60 0xff
    (by simpa [State.setLoad, length_suites_digested] using hk), hloading]

/-- A refused load writes no hardware (R230): what it changes are suites, the translation cache, pairs and what is sent out. -/
theorem digestRefused_hardware : (s.digestRefused k l).cores = s.cores ∧ (s.digestRefused k l).clusters = s.clusters ∧
    (s.digestRefused k l).shelf = s.shelf ∧ (s.digestRefused k l).flight = s.flight := by
  obtain ⟨y, m, d, hdigested⟩ := digested_frame s k l
  obtain ⟨x, ps, fs, o, hfail⟩ := failLoad_frame (congrArg Suite.load (suite_digested_setLoad hk hload)) (by simp) 0x60 0xff
  rw [State.digestRefused, hfail, State.setLoad, hdigested]
  exact ⟨rfl, rfl, rfl, rfl⟩

theorem digestRefused_stored (hpair : l.pair < s.pairs.length) (hbusy : (s.pair l.pair).busy = true) :
    ∃ h e, ((s.digestRefused k l).pair l.pair).stored = h ++ [0x60, 0, 0, 0] ++ e ∧ h.length = 16 := by
  obtain ⟨y, m, d, hdigested⟩ := digested_frame s k l
  have hpairs : ((s.digested k l).setLoad k (fun l => { l with phase := 1 })).pairs = s.pairs := by
    rw [State.setLoad, State.setSuite_pairs, hdigested]
  exact failLoad_stored (congrArg Suite.load (suite_digested_setLoad hk hload)) (by simp) 0x60 0xff (by rwa [hpairs])
    (by rwa [State.pair, hpairs])

end

/-- Step 3 and the start of the broadcast keep the suite's state and the digest of step 2. -/
theorem suite_sectionsApplied {s : State} {k : Nat} (hk : k < s.suites.length) (l : Load) (g : Program) (f : Load → Load) :
    ((((s.digested k l).applySections k g).setLoad k f).suite k).digest = s.imageDigest l ∧
    ((((s.digested k l).applySections k g).setLoad k f).suite k).st = (s.suite k).st := by
  have hread : k < (s.digested k l).suites.length := by rwa [length_suites_digested]
  have happlied : k < ((s.digested k l).applySections k g).suites.length := by simpa [State.applySections] using hread
  rw [suite_setLoad _ k f happlied, suite_applySections _ k g hread, suite_digested s k l hk]
  exact ⟨rfl, rfl⟩

/-- Settles O18: a refused load leaves the hardware as it was, and a loaded image leaves its digest. -/
theorem digestMismatch : Obligations.DigestMismatch := by
  unfold Obligations.DigestMismatch
  refine ⟨?_, attestSuite_digest⟩
  intro s k l hk hlen hfw hupdate hst hload hphase hpair hbusy image d
  rw [exec_loadDigestDone s k (on_of_fwOn s hfw) hk]
  refine ⟨fun hdiffers => ?_, fun hequal => ?_⟩
  · rw [digestDone_differs hst hload hphase hfw hupdate hdiffers]
    have hsuite := suite_digestRefused hlen hload
    have hstored := digestRefused_stored hlen hload hpair hbusy
    obtain ⟨hcores, hclusters, hshelf, hflight⟩ := digestRefused_hardware hlen hload
    exact ⟨_, rfl, congrArg Suite.st hsuite, congrArg Suite.load hsuite, hcores, hclusters, hshelf, hflight,
      (congrArg Suite.prog hsuite :), hstored⟩
  · rw [digestDone_equal hst hload hphase hfw hupdate hequal]
    obtain ⟨hdigest, hstate⟩ := suite_sectionsApplied hlen l (imageProgram image l.prog)
      (fun l => { l with phase := 1, image := image })
    exact ⟨_, rfl, hdigest, hstate.trans hst⟩

/-! ## Segments (R227) -/

theorem exec_segmentFrame (s : State) (k n : Nat) (f : SegFrame) (hon : s.on = true) (hk : k < 32) (hn : n < 32) :
    exec (.segmentFrame k n f) s = .next (s.sameInputs (s.takeSegment k n f)) :=
  on_next s _ hon _ (by simp [hk, hn])

/-- A frame is good when its number, its bytes, its length and its check are right. -/
theorem Load.good_iff (l : Load) (n : Nat) (f : SegFrame) : l.good n f = true ↔
    mapBit (l.sends n) f.segment = true ∧ f.payload = segBytes l.image f.segment ∧ f.payload.length = f.length ∧
      crc32c f.payload = f.check := by
  simp [Load.good, and_assoc]

theorem takeSegment_broadcast {s : State} {k n : Nat} {l : Load} (f : SegFrame) (h : s.broadcast k n = some l) :
    s.takeSegment k n f = if l.good n f then s.setCore n (fun c => c.keepSegment l n f.segment f.payload) else s := by
  simp [State.takeSegment, h]

theorem segmentOutcomes : Claims.SegmentOutcomes := by
  intro s k n f l hon hk hn hload good mine
  rw [exec_segmentFrame s k n f hon hk hn, takeSegment_broadcast f hload]
  refine ⟨fun hgood => ?_, fun hbad => ?_⟩
  · rw [if_pos ((l.good_iff n f).mpr hgood)]
    rfl
  · rw [if_neg (fun h => hbad ((l.good_iff n f).mp h)), State.sameInputs_self]

/-! ## Reports (R228) -/

theorem exec_missingSegmentReport (s : State) (k n : Nat) (hon : s.on = true) (hk : k < 32) (hn : n < 32) :
    exec (.missingSegmentReport k n) s = .next (s.sameInputs (s.report k n (fun l => (s.core n).missingSegs l.len))) :=
  on_next s _ hon _ (by simp [hk, hn])

theorem exec_bitmapReportTimeout (s : State) (k n : Nat) (hon : s.on = true) (hk : k < 32) (hn : n < 32) :
    exec (.bitmapReportTimeout k n) s = .next (s.sameInputs (s.report k n (fun l => l.sends n))) :=
  on_next s _ hon _ (by simp [hk, hn])

section
variable {s : State} {k n : Nat} {l : Load} (hload : s.broadcast k n = some l) (miss : Load → List Byte)
include hload

theorem report_first (hseen : l.seen.contains n = false) : s.report k n miss = (s.setLoad k (fun l' => { l' with
    seen := l'.seen ++ [n], missing := if allZero (miss l) then l'.missing else aSet l'.missing n (miss l) })).roundEnd k := by
  simp only [State.report, hload, hseen, Bool.false_eq_true, if_false]

theorem report_again (hseen : l.seen.contains n = true) : s.report k n miss = s := by
  simp only [State.report, hload, hseen, if_true]

end

theorem reportOutcomes : Claims.ReportOutcomes := by
  intro s k n l hon hk hn hload heard
  rw [exec_missingSegmentReport s k n hon hk hn, exec_bitmapReportTimeout s k n hon hk hn]
  refine ⟨fun hfirst => ?_, fun hagain => ?_⟩
  · rw [report_first hload _ hfirst, report_first hload _ hfirst]
    exact ⟨rfl, rfl⟩
  · rw [report_again hload _ hagain, report_again hload _ hagain, State.sameInputs_self]
    exact ⟨rfl, rfl⟩

/-! ## The end of a round (R226, R229, R231) -/

theorem oweCredit_suites (s : State) (chip qword g : Nat) : (s.oweCredit chip qword g).suites = s.suites := by
  unfold State.oweCredit
  split <;> rfl

theorem grantRemote_suites (s : State) (k : Nat) : (s.grantRemote k).suites = s.suites :=
  List.foldlRecOn (motive := fun (t : State) => t.suites = s.suites) _ _ rfl
    (fun t ht r _ => (oweCredit_suites t r.1 r.2.1 r.2.2).trans ht)

/-- A suite whose load has ended with every segment held is idle (R231). -/
theorem suite_loaded_st (s : State) (k : Nat) (l : Load) (hk : k < s.suites.length) : ((s.loaded k l).suite k).st = 3 := by
  rw [State.loaded, answerLate_suite, State.suite, grantRemote_suites]
  exact congrArg Suite.st (State.suite_setSuite s k _ hk)

section
variable {s : State} {k : Nat} {l : Load} (hload : (s.suite k).load = some l)
include hload

theorem roundEnd_waits (hwait : ∃ n, n ∈ coresOf (s.suite k).mask ∧ l.seen.contains n = false) : s.roundEnd k = s := by
  obtain ⟨n, hn, hunheard⟩ := hwait
  have hall : (coresOf (s.suite k).mask).all l.seen.contains = false := List.all_eq_false.mpr ⟨n, hn, ne_true_of_eq_false hunheard⟩
  simp only [State.roundEnd, hload, hall, Bool.not_false, if_true]

/-- A round that every core of the suite has reported on ends the load or gives place to one more round. -/
theorem roundEnd_heard (hheard : ∀ n, n ∈ coresOf (s.suite k).mask → l.seen.contains n = true) :
    s.roundEnd k =
      let bad := (coresOf (s.suite k).mask).filter (fun n => (aGet l.missing n).isSome)
      let count := fun n => ((List.range (segCount l.len)).filter (mapBit ((aGet l.missing n).getD []))).length
      if l.missing = [] then s.loaded k l
      else if 8 ≤ l.round then (bad.foldl (fun (t : State) n => t.faultyCore k n (count n)) s).failLoad k 0x61 (bad.headD 0xff)
      else s.setLoad k (fun l => { l with
        round := l.round + 1, sent := l.missing, seen := l.seen.filter (fun n => (aGet l.missing n).isNone), missing := [] }) := by
  have hall : (coresOf (s.suite k).mask).all l.seen.contains = true := List.all_eq_true.mpr hheard
  simp only [State.roundEnd, hload, hall, Bool.not_true, Bool.false_eq_true, if_false, List.isEmpty_iff]

end

theorem roundEndOutcomes : Claims.RoundEndOutcomes := by
  intro s k l hload cs bad count
  refine ⟨roundEnd_waits hload, fun hheard hnone => ?idle, fun hheard hmiss hround => ?another, fun hheard hmiss hround => ?faulty⟩
  case idle =>
    have hend : s.roundEnd k = s.loaded k l := by rw [roundEnd_heard hload hheard, if_pos hnone]
    exact ⟨fun hk => hend ▸ suite_loaded_st s k l hk, hend⟩
  case another => rw [roundEnd_heard hload hheard, if_neg hmiss, if_neg (Nat.not_le.mpr hround)]
  case faulty => rw [roundEnd_heard hload hheard, if_neg hmiss, if_pos hround]

/-- Settles O19: what a core keeps of a segment frame, how its reports count, and the four ends of a round. -/
theorem loadRounds : Obligations.LoadRounds := ⟨segmentOutcomes, reportOutcomes, roundEndOutcomes⟩

end Sys2Proof.Machine

/-! SUPPORT. Proofs about the services of a mailbox: negotiation, heartbeat, refusals, acknowledgement and notices. -/

namespace Sys2Proof.Machine

/-! ## Negotiation and heartbeat (R264, R383) -/

theorem serveReq_accepted {s t : State} {r : Req} {act : Act} {st : Nat} {b : List Byte} (hv : s.verdict r = .ok)
    (hact : act (s.accepted r) r = (t, some (st, b))) : s.serveReq r act = t.answer r st b := by
  have haccept : s.serveReq r act = match (act (s.accepted r) r).2 with
      | some a => (act (s.accepted r) r).1.answer r a.1 a.2
      | none => (act (s.accepted r) r).1 := by
    simp only [State.serveReq, hv]
    rfl
  rw [haccept, hact]

theorem serveReq_refused {s : State} {r : Req} {st : Nat} {e : List Byte} (act : Act) (hv : s.verdict r = .refuse st e) :
    s.serveReq r act = (s.take r.pair).deliver r.pair (s.replyBytes r st e) := by
  simp only [State.serveReq, hv]

/-- The firmware's only minor is 0, and so every minor that a request lists for its major meets at 0 (R383). -/
theorem actNegotiate_listed {s : State} {r : Req} {m : Nat} (hm : listedMinor r.body = some m) :
    actNegotiate s r = (s.setPair r.pair (fun x => { x with major := 1, minor := 0, lastSeq := r.seq }),
      some (0, toLE 1 1 ++ toLE 1 0 ++ toLE 4 s.fwVersion ++ toLE 1 r.fn ++ toLE 1 (noticePair r.fn) ++
        [1, 0, 0, 0, 0, 0, 0, 0] ++ [1, 0] ++ [1, 0])) := by
  simp only [actNegotiate, hm, mailboxMajor, mailboxMinor, Nat.min_zero]

section
variable {s : State} {p : Nat} {r : Req} (h : s.accepts p 0x0001 r = true)
include h

theorem exec_versionNegotiation_accepted : exec (.versionNegotiation p) s = .next (s.sameInputs (serveNegotiate s p)) := by
  obtain ⟨hon, hreq, -, -⟩ := accepts_elim s p _ r h
  exact on_next s _ hon _ (decide_eq_true (request_eq s p r hreq).1)

theorem serveNegotiate_listed {m : Nat} (hm : listedMinor r.body = some m) :
    serveNegotiate s p = s.serveReq r actNegotiate := by
  obtain ⟨-, hreq, htype, hv⟩ := accepts_elim s p _ r h
  simp only [serveNegotiate, hreq, htype, hv, hm, if_true]

theorem serveNegotiate_unlisted (hm : listedMinor r.body = none) :
    serveNegotiate s p = (s.take p).deliver p (s.replyBytes r 0xf1 []) := by
  obtain ⟨-, hreq, htype, hv⟩ := accepts_elim s p _ r h
  simp only [serveNegotiate, hreq, htype, hv, hm, if_true]

theorem exec_versionNegotiation_listed {m : Nat} (hm : listedMinor r.body = some m) :
    exec (.versionNegotiation p) s = .next (s.sameInputs
      (((s.accepted r).setPair p (fun x => { x with major := 1, minor := 0, lastSeq := r.seq })).answer r 0
        (toLE 1 1 ++ toLE 1 0 ++ toLE 4 s.fwVersion ++ toLE 1 r.fn ++ toLE 1 (noticePair r.fn) ++
          [1, 0, 0, 0, 0, 0, 0, 0] ++ [1, 0] ++ [1, 0]))) := by
  obtain ⟨-, hreq, -, hv⟩ := accepts_elim s p _ r h
  obtain ⟨-, hpair, -⟩ := request_eq s p r hreq
  rw [exec_versionNegotiation_accepted h, serveNegotiate_listed h hm,
    serveReq_accepted hv (actNegotiate_listed (s := s.accepted r) hm), hpair]
  rfl

end

theorem exec_heartbeat_accepted {s : State} {p : Nat} {r : Req} (h : s.accepts p 0x0002 r = true) :
    exec (.heartbeat p) s = .next (s.sameInputs
      (((s.accepted r).setFunc r.fn (fun f => { f with beat := some s.now })).answer r 0 [])) :=
  accepted_message_answer s p _ _ r _ _ _ h rfl

theorem negotiationAndHeartbeat : Claims.NegotiationAndHeartbeat := by
  refine ⟨fun s p m r h hm => exec_versionNegotiation_listed h hm, fun s p r h hm => ?_, fun s p r h => exec_heartbeat_accepted h⟩
  rw [exec_versionNegotiation_accepted h, serveNegotiate_unlisted h hm]

/-! ## Refusals, acknowledgement and notices (R377, R378, R380) -/

theorem exec_undefinedTypeRequest_refused {s : State} {p st : Nat} {e : List Byte} {r : Req} (hon : s.on = true)
    (hreq : s.request p = some r) (hv : s.verdict r = .refuse st e) :
    exec (.undefinedTypeRequest p) s = .next (s.sameInputs ((s.take p).deliver p (s.replyBytes r st e))) := by
  obtain ⟨hp, hpair, -⟩ := request_eq s p r hreq
  have hserve : serveUndefined s p = (s.take p).deliver p (s.replyBytes r st e) := by
    simp only [serveUndefined, hreq, hv]
    rw [serveReq_refused _ hv, hpair]
  rw [← hserve]
  exact on_next s _ hon _ (decide_eq_true hp)

/-- Through a function that does not own the pair the write is ignored (R393). -/
theorem exec_mbxReplyAck (s : State) (f p : Nat) (hon : s.on = true) (hf : f < 17) (hp : p < 64) :
    exec (.mbxReplyAck f p) s = .next (s.sameInputs (if f = 0 ∨ pairOwner p = f then s.ackReply p else s)) := by
  have hmay : (if f = 0 ∨ pairOwner p = f then s.ackReply p else s) = if f = 0 || pairOwner p = f then s.ackReply p else s := by
    simp only [Bool.or_eq_true, decide_eq_true_eq]
  rw [hmay]
  exact on_next s _ hon _ (by simp [hf, hp])

theorem ackReply_last {s : State} {p : Nat} (hv : (s.pair p).replyV = true) (hdue : (s.pair p).due = none) :
    s.ackReply p = s.setPair p (fun x => { x with replyV := false, due := none }) := by
  simp only [State.ackReply, hv, hdue, if_true]

theorem ackReply_more {s : State} {p : Nat} {m : List Byte} (hv : (s.pair p).replyV = true) (hdue : (s.pair p).due = some m) :
    s.ackReply p = (s.setPair p (fun x => { x with replyV := false, due := none })).deliver p m := by
  simp only [State.ackReply, hv, hdue, if_true]

/-- The oldest notice of a function is delivered on its free notice pair, under the number of the function's own series. -/
theorem exec_noticeDelivery_oldest {s : State} {f : Nat} {n : Notice} {rest : List Notice} (hf : f < 17) (hfw : s.fwOn = true)
    (hupdate : s.fw.update ≠ 4) (hnotices : (s.func f).notices = n :: rest) (hfree : (s.pair (noticePair f)).replyV = false)
    (hdue : (s.pair (noticePair f)).due = none) :
    exec (.noticeDelivery f) s = .next (s.sameInputs
      ((s.setFunc f (fun y => { y with notices := rest, noticeNo := (y.noticeNo + 1) % 65536 })).deliver (noticePair f)
        (mkMessage (s.pair (noticePair f)).major (s.pair (noticePair f)).minor n.type (s.func f).noticeNo n.suite n.body))) := by
  have hmay : (s.fwOn && s.fw.update != 4 && !(s.pair (noticePair f)).replyV && (s.pair (noticePair f)).due.isNone) = true := by
    simp [hfw, hupdate, hfree, hdue]
  have hdeliver : s.deliverNotice f = (s.setFunc f (fun y => { y with notices := rest, noticeNo := (y.noticeNo + 1) % 65536 })).deliver
      (noticePair f)
      (mkMessage (s.pair (noticePair f)).major (s.pair (noticePair f)).minor n.type (s.func f).noticeNo n.suite n.body) := by
    simp only [State.deliverNotice, hnotices]
    rw [if_pos hmay]
  rw [← hdeliver]
  exact on_next s _ (on_of_fwOn s hfw) _ (decide_eq_true hf)

theorem refusalAckAndNotice : Claims.RefusalAckAndNotice := by
  refine ⟨fun s p st e r hon hreq hv => exec_undefinedTypeRequest_refused hon hreq hv, ?ack, ?foreign,
    fun s f n rest hf hfw hupdate hnotices hfree hdue => exec_noticeDelivery_oldest hf hfw hupdate hnotices hfree hdue⟩
  case ack =>
    intro s f p hon hf hp howner hv
    rw [exec_mbxReplyAck s f p hon hf hp, if_pos howner]
    refine ⟨fun hdue => ?_, fun m hdue => ?_⟩
    · rw [ackReply_last hv hdue, State.sameInputs_setPair]
    · rw [ackReply_more hv hdue]
  case foreign =>
    intro s f p hon hf hp hf0 howner
    rw [exec_mbxReplyAck s f p hon hf hp, if_neg (not_or.mpr ⟨hf0, howner⟩), State.sameInputs_self]

/-- Settles O8: each command serves the request, the acknowledgement or the notice that stands at its pair. -/
theorem mailboxServices : Obligations.MailboxServices := ⟨negotiationAndHeartbeat, refusalAckAndNotice⟩

end Sys2Proof.Machine

/-! SUPPORT. Proofs about allocations, the setup of rings, and doorbells. -/

namespace Sys2Proof.Machine

/-! ## Allocations (R262, R382) -/

section
variable {s : State} {r : Req}

theorem actAllocation_out_of_range (hrange : allocRange r.body = false) : actAllocation s r = (s, some (0x80, [])) := by
  simp [actAllocation, hrange]

theorem actAllocation_overlaps (hrange : allocRange r.body = true) (hover : s.allocOverlaps (byteAt r.body 0) (allocOf r.body) = true) :
    actAllocation s r = (s, some (0x81, [])) := by
  simp [actAllocation, hrange, hover]

theorem actAllocation_withdraws (hrange : allocRange r.body = true)
    (hover : s.allocOverlaps (byteAt r.body 0) (allocOf r.body) = false)
    (hwith : s.allocWithdraws (byteAt r.body 0) (allocOf r.body) = true) : actAllocation s r = (s, some (0x82, [])) := by
  simp [actAllocation, hrange, hover, hwith]

end

theorem allocationOutcomes : Claims.AllocationOutcomes := by
  intro s p r h f a
  refine ⟨fun hrange hover hwith => ?stands, fun hrange => ?range, fun hrange hover => ?overlaps, fun hrange hover hwith => ?withdraws⟩
  case stands => exact accepted_message_answer s p _ _ r _ _ _ h (actAllocation_stands (s := s.accepted r) hrange hover hwith)
  case range => exact accepted_message_answer s p _ _ r _ _ _ h (actAllocation_out_of_range hrange)
  case overlaps => exact accepted_message_answer s p _ _ r _ _ _ h (actAllocation_overlaps (s := s.accepted r) hrange hover)
  case withdraws => exact accepted_message_answer s p _ _ r _ _ _ h (actAllocation_withdraws (s := s.accepted r) hrange hover hwith)

/-! ## Ring setup (R246) -/

/-- The ring number of a setup is the sender's, and a ring that is set up under it is the sender's too. -/
def State.RingMine (s : State) (f n : Nat) : Prop := s.ownsRing f n = true ∧ ∀ o, s.ring? n = some o → o.owner = f

/-- No suite is bound to a ring that is set up under the number. -/
def State.RingUnbound (s : State) (n : Nat) : Prop := ∀ o, s.ring? n = some o → o.suite = none

/-- The ring's slots and its index word lie in the windows of a function. -/
def State.RingPlaced (s : State) (f : Nat) (g : Ring) : Prop :=
  16 ≤ g.base ∧ s.inFn f (g.base - 16) (16 + 2 ^ (g.slotLog + g.cntLog)) = true

section
variable {s : State} {r : Req}

theorem actRingSetup_foreign (hmine : ¬ s.RingMine r.fn (fld r.body 0 2)) : actRingSetup s r = (s, some (0x04, [])) := by
  cases hring : s.ring? (fld r.body 0 2) with
  | none =>
    have howns : s.ownsRing r.fn (fld r.body 0 2) = false := by
      simpa [State.RingMine, hring] using hmine
    simp [actRingSetup, hring, howns]
  | some o =>
    have hforeign : s.ownsRing r.fn (fld r.body 0 2) = true → o.owner ≠ r.fn := by
      simpa [State.RingMine, hring] using hmine
    by_cases howns : s.ownsRing r.fn (fld r.body 0 2) = true
    · simp [actRingSetup, hring, howns, hforeign howns]
    · simp [actRingSetup, hring, howns]

/-- Past the check of the owner: a ring that a suite holds stays as it is. -/
theorem actRingSetup_bound (hmine : s.RingMine r.fn (fld r.body 0 2)) (hbound : ¬ s.RingUnbound (fld r.body 0 2)) :
    actRingSetup s r = (s, some (0x07, [])) := by
  obtain ⟨howns, howner⟩ := hmine
  simp only [State.RingUnbound, not_forall] at hbound
  obtain ⟨o, hring, hsuite⟩ := hbound
  simp [actRingSetup, hring, howns, howner o hring, Option.isSome_iff_ne_none, hsuite]

/-- Past the checks of the owner and the suite: fields in range and a place in the sender's windows are asked for. -/
theorem actRingSetup_refused (hmine : s.RingMine r.fn (fld r.body 0 2)) (hunbound : s.RingUnbound (fld r.body 0 2))
    (h : ringRange r.body = true → ¬ s.RingPlaced r.fn (ringOf r.fn r.body)) :
    actRingSetup s r = (s, some (if ringRange r.body = true then 0x08 else 0x80, [])) := by
  obtain ⟨howns, howner⟩ := hmine
  have hplace : ringRange r.body = true → ((ringOf r.fn r.body).base < 16 ∨ s.inFn r.fn ((ringOf r.fn r.body).base - 16)
      (16 + 2 ^ ((ringOf r.fn r.body).slotLog + (ringOf r.fn r.body).cntLog)) = false) := by
    intro hrange
    have hplaced := h hrange
    rwa [State.RingPlaced, not_and_or, Nat.not_le, Bool.not_eq_true] at hplaced
  cases hring : s.ring? (fld r.body 0 2) with
  | none => by_cases hrange : ringRange r.body = true <;> simp [actRingSetup, hring, howns, hrange, hplace]
  | some o =>
    by_cases hrange : ringRange r.body = true <;>
      simp [actRingSetup, hring, howns, howner o hring, hunbound o hring, hrange, hplace]

end

theorem ringSetupOutcomes : Claims.RingSetupOutcomes := by
  intro s p r h n g mine unbound placed
  refine ⟨fun hmine hunbound hrange hplaced => ?stands, fun hmine => ?foreign, fun hmine hunbound => ?bound,
    fun hmine hunbound hrange => ?range, fun hmine hunbound hrange hplaced => ?misplaced, rfl, rfl, rfl, rfl⟩
  case stands =>
    exact accepted_message_answer s p _ _ r _ _ _ h (actRingSetup_stands (s.accepted r) r hmine.1
      (fun o ho => ⟨hmine.2 o ho, hunbound o ho⟩) hrange hplaced.1 hplaced.2)
  case foreign => exact accepted_message_answer s p _ _ r _ _ _ h (actRingSetup_foreign (s := s.accepted r) hmine)
  case bound => exact accepted_message_answer s p _ _ r _ _ _ h (actRingSetup_bound (s := s.accepted r) hmine hunbound)
  case range =>
    have hact := actRingSetup_refused (s := s.accepted r) hmine hunbound (fun ht => absurd (hrange.symm.trans ht) Bool.false_ne_true)
    rw [hrange] at hact
    exact accepted_message_answer s p _ _ r _ _ _ h hact
  case misplaced =>
    have hact := actRingSetup_refused (s := s.accepted r) hmine hunbound (fun _ => hplaced)
    rw [hrange] at hact
    exact accepted_message_answer s p _ _ r _ _ _ h hact

/-- Settles O10: the checks of the allocation and of the ring setup, in their order, and what stands when they pass. -/
theorem allocationAndRings : Obligations.AllocationAndRings := ⟨allocationOutcomes, ringSetupOutcomes⟩

/-! ## Doorbells (R248) -/

theorem exec_ringDoorbell {s : State} {f rn v : Nat} (hon : s.on = true) (hf : f < 17) (hrn : rn < 65536) (hv : v < M32) :
    exec (.ringDoorbell f rn v) s = .next (s.sameInputs (s.doorbell f rn v)) := by
  have hexec : exec (.ringDoorbell f rn v) s = .next (s.sameInputs (s.doorbell f rn (v % M32))) :=
    on_next s _ hon _ (by simp [hf, hrn])
  rwa [Nat.mod_eq_of_lt hv] at hexec

theorem doorbell_unset {s : State} {f rn v : Nat} (hr : s.ring? rn = none) :
    s.doorbell f rn v = { (s.logE 0x0020 4 f 0xff 9 rn v 0 0) with
      ringRejects := if s.ringRejects.contains rn then s.ringRejects else s.ringRejects ++ [rn] } := by
  simp only [State.doorbell, State.doorbellReject, hr]

theorem doorbellReject_ring {s : State} {f rn v : Nat} {r : Ring} (hr : s.ring? rn = some r) :
    s.doorbellReject f rn v = (s.setRing rn (fun x => { x with rejected := true })).logE 0x0020 4 f 0xff 9 rn v r.p r.c := by
  simp only [State.doorbellReject, hr]

/-- The function may ring the doorbell: it owns the ring, and an orphan rings none of kind 0 (R248, R265). -/
def State.MayRing (s : State) (f : Nat) (r : Ring) : Prop := r.owner = f ∧ ¬ (r.kind = 0 ∧ (s.func f).orphan = true)

section
variable {s : State} {f rn v : Nat} {r : Ring} (hr : s.ring? rn = some r)
include hr

/-- The owner's doorbell that keeps the ring between empty and full moves the host's C. -/
theorem doorbell_consumes (howned : s.MayRing f r) (h0 : r.kind ≠ 0) (h3 : r.kind ≠ 3) (hv : (r.p + M32 - v) % M32 ≤ r.slots) :
    s.doorbell f rn v = (s.setRing rn (fun x => { x with c := v })).ringFlag rn
      (if r.kind = 2 ∧ (v + M32 - r.c) % M32 ≤ r.slots then (v + M32 - r.c) % M32 else 0) := by
  simp [State.doorbell, hr, howned.1, h0, h3, Nat.not_lt.mpr hv]

theorem doorbell_foreign (howned : ¬ s.MayRing f r) : s.doorbell f rn v = s.doorbellReject f rn v := by
  have hnot : (r.owner != f || (r.kind = 0 && (s.func f).orphan)) = true := by
    simpa [State.MayRing, imp_iff_not_or] using howned
  simp only [State.doorbell, hr, hnot, if_true]

/-- A host's P that lies past the last slot, and a host's C that lies past P, is rejected whoever writes it. -/
theorem doorbell_beyond (h : ((r.kind = 0 ∨ r.kind = 3) ∧ r.slots < (v + M32 - r.c) % M32) ∨
      (r.kind ≠ 0 ∧ r.kind ≠ 3 ∧ r.slots < (r.p + M32 - v) % M32)) : s.doorbell f rn v = s.doorbellReject f rn v := by
  by_cases howned : s.MayRing f r
  · have hmay : ¬ (r.owner != f || (r.kind = 0 && (s.func f).orphan)) = true := by
      simpa [State.MayRing] using howned
    simp only [State.doorbell, hr, if_neg hmay]
    obtain ⟨hkind, hpast⟩ | ⟨h0, h3, hpast⟩ := h
    · simp [hkind, hpast]
    · simp [h0, h3, hpast]
  · exact doorbell_foreign hr howned

end

/-- Settles O13: the doorbell of a ring that is not set up, the owner's two accepted writes, and every other write. -/
theorem doorbellOutcomes : Obligations.DoorbellOutcomes := by
  refine ⟨fun s f rn v hon hf hrn hv hr => ?_, ?_⟩
  · rw [exec_ringDoorbell hon hf hrn hv, doorbell_unset hr]
  · intro s f rn v r hon hf hrn hv hr owned advP advC
    rw [exec_ringDoorbell hon hf hrn hv]
    refine ⟨fun howned hkind hslots => ?submits, fun howned h0 h3 hslots => ?consumes, fun h => ?rejected⟩
    case submits =>
      have hmay : (r.kind = 0 ∧ (s.func f).orphan = false) ∨ r.kind = 3 :=
        hkind.imp (fun h0 => ⟨h0, Bool.eq_false_iff.mpr (fun ho => howned.2 ⟨h0, ho⟩)⟩) id
      rw [doorbell_submits hr howned.1 hmay hslots]
    case consumes => rw [doorbell_consumes hr howned h0 h3 hslots]
    case rejected =>
      have hreject : s.doorbell f rn v = s.doorbellReject f rn v := h.elim (doorbell_foreign hr) (doorbell_beyond hr)
      rw [hreject, doorbellReject_ring hr]

end Sys2Proof.Machine

/-! SUPPORT. Proofs about the life of a suite: its creation, and what its end leaves as it is. -/

namespace Sys2Proof.Machine

/-! ## Suite create (R242, R243) -/

/-- The status of the first of the six checks of R243 that fails, or 0. -/
def State.createStatus (s : State) (r : Req) : Nat :=
  if (s.suite r.suite).st ≠ 0 then 0x01
  else if s.createCores r.fn (fld r.body 4 4) = false then 0x02
  else if s.createGrants r.fn (parseGrants r.body 40) = false then 0x03
  else if s.createRings r.fn r.body = false then 0x04
  else if createRange r.suite r.body = false then 0x05
  else if s.reseating = true then 0x06
  else 0

theorem actSuiteCreate_refused {s : State} {r : Req} (h : s.createStatus r ≠ 0) :
    actSuiteCreate s r = (s, some (s.createStatus r, [])) := by
  unfold State.createStatus at h ⊢
  simp only [actSuiteCreate, bne_iff_ne, Bool.not_eq_true']
  split_ifs at h ⊢ <;> trivial

theorem actSuiteCreate_stands {s : State} {r : Req} (h : s.createStatus r = 0) :
    let k := createSuite r.fn r.body
    actSuiteCreate s r = (((s.vacate k.mask).setSuite r.suite (fun _ => k)).bindRings k.ringList (some r.suite),
      some (0, toLE 8 (s.suiteKey k.mode))) := by
  unfold State.createStatus at h
  simp only [actSuiteCreate, bne_iff_ne, Bool.not_eq_true']
  split_ifs at h ⊢
  rfl

theorem suiteCreateOutcomes : Claims.SuiteCreateOutcomes := by
  intro s p r h k status
  refine ⟨fun hstatus => ?_, fun hstatus => ?_, rfl, rfl, rfl, rfl, rfl⟩
  · exact accepted_message_answer s p _ _ r _ _ _ h (actSuiteCreate_refused (s := s.accepted r) hstatus)
  · exact accepted_message_answer s p _ _ r _ _ _ h (actSuiteCreate_stands (s := s.accepted r) hstatus)

/-! ## What stays within one suite

An operation on a suite, on rings, mailboxes, memory or the log leaves the time, the firmware, the health and the supply of the device
as they are, and every suite but the one. -/

/-- What t changes of s touches no suite but k, and neither the time base, the firmware, the health nor the supply. -/
structure State.ConfinedTo (k : Nat) (s t : State) : Prop where
  ts : t.ts = s.ts
  fw : t.fw = s.fw
  health : t.health = s.health
  power : t.power = s.power
  functions : t.funcs.length = s.funcs.length
  length : t.suites.length = s.suites.length
  others : ∀ j, j ≠ k → t.suite j = s.suite j

namespace State.ConfinedTo
variable {k : Nat} {s t u : State}

theorem refl (k : Nat) (s : State) : s.ConfinedTo k s := ⟨rfl, rfl, rfl, rfl, rfl, rfl, fun _ _ => rfl⟩

theorem trans (h : State.ConfinedTo k s t) (g : State.ConfinedTo k t u) : State.ConfinedTo k s u :=
  ⟨g.ts.trans h.ts, g.fw.trans h.fw, g.health.trans h.health, g.power.trans h.power, g.functions.trans h.functions,
    g.length.trans h.length, fun j hj => (g.others j hj).trans (h.others j hj)⟩

theorem of_suites (ts : t.ts = s.ts) (fw : t.fw = s.fw) (health : t.health = s.health) (power : t.power = s.power)
    (functions : t.funcs.length = s.funcs.length) (suites : t.suites = s.suites) : State.ConfinedTo k s t :=
  ⟨ts, fw, health, power, functions, congrArg List.length suites, fun _ _ => by rw [State.suite, suites, State.suite]⟩

theorem foldl {α : Type} (l : List α) (f : State → α → State) (hf : ∀ t a, State.ConfinedTo k t (f t a)) :
    State.ConfinedTo k s (l.foldl f s) :=
  List.foldlRecOn (motive := State.ConfinedTo k s) l f (refl k s) (fun t ht a _ => ht.trans (hf t a))

end State.ConfinedTo

section
variable (k : Nat) (s : State)

theorem setSuite_confined (f : Suite → Suite) : s.ConfinedTo k (s.setSuite k f) :=
  ⟨rfl, rfl, rfl, rfl, rfl, length_lMod _ _ _, fun j hj => s.suite_setSuite_other k j f hj⟩

theorem setFunc_confined (n : Nat) (f : Func → Func) : s.ConfinedTo k (s.setFunc n f) :=
  .of_suites rfl rfl rfl rfl (length_lMod _ _ _) rfl

theorem setRing_confined (n : Nat) (f : Ring → Ring) : s.ConfinedTo k (s.setRing n f) := .of_suites rfl rfl rfl rfl rfl rfl

theorem setPair_confined (p : Nat) (f : Pair → Pair) : s.ConfinedTo k (s.setPair p f) := .of_suites rfl rfl rfl rfl rfl rfl

theorem due_confined (rn tag kind status cause suite count : Nat) (a : After) :
    s.ConfinedTo k (s.due rn tag kind status cause suite count a) := .of_suites rfl rfl rfl rfl rfl rfl

/-! ### Interrupts, the event log and notices -/

theorem irq_confined (f v : Nat) : s.ConfinedTo k (s.irq f v) := by
  unfold State.irq
  split
  · exact .of_suites rfl rfl rfl rfl rfl rfl
  · exact .of_suites rfl rfl rfl rfl (length_lMod _ _ _) rfl

theorem ringIrq_confined (f v : Nat) : s.ConfinedTo k (s.ringIrq f v) := by
  unfold State.ringIrq
  split
  · exact irq_confined k s f v
  · exact .refl k s

theorem logE_confined (code cls fn suite kind unit a b c : Nat) : s.ConfinedTo k (s.logE code cls fn suite kind unit a b c) := by
  unfold State.logE
  dsimp only
  have hlog : ∀ l, s.ConfinedTo k { s with log := l } := fun l => .of_suites rfl rfl rfl rfl rfl rfl
  split
  · exact ((hlog _).trans (irq_confined k _ 0 1)).trans (irq_confined k _ fn 1)
  · exact (hlog _).trans (irq_confined k _ 0 1)

theorem notice_confined (f type suite : Nat) (body : List Byte) : s.ConfinedTo k (s.notice f type suite body) :=
  (setFunc_confined k s f _).trans (logE_confined k _ _ _ _ _ _ _ _ _ _)

theorem noticeAll_confined (type : Nat) (body : List Byte) : s.ConfinedTo k (s.noticeAll type body) :=
  .foldl _ _ (fun t f => notice_confined k t f type _ body)

theorem logDiscard_confined (qword chip : Nat) : s.ConfinedTo k (s.logDiscard qword chip) := by
  unfold State.logDiscard
  dsimp only
  split
  · exact logE_confined k s _ _ _ _ _ _ _ _ _
  · exact logE_confined k s _ _ _ _ _ _ _ _ _

/-! ### Answers -/

theorem deliver_confined (p : Nat) (m : List Byte) : s.ConfinedTo k (s.deliver p m) := by
  unfold State.deliver
  split
  · exact setPair_confined k s p _
  · exact (setPair_confined k s p _).trans (irq_confined k _ _ 0)

theorem answer_confined (r : Req) (status : Nat) (e : List Byte) : s.ConfinedTo k (s.answer r status e) :=
  (setPair_confined k s r.pair _).trans (deliver_confined k _ _ _)

theorem answerLate_confined (p status : Nat) (e : List Byte) : s.ConfinedTo k (s.answerLate p status e) := by
  unfold State.answerLate
  split
  · exact answer_confined k s _ status e
  · exact .refl k s

/-! ### Writes of device memory -/

theorem touchAll_confined (a n : Nat) : s.ConfinedTo k (s.touchAll a n) := by
  obtain ⟨c, m, d, h⟩ := touchAll_frame s a n
  rw [h]
  exact .of_suites rfl rfl rfl rfl rfl rfl

theorem hbmPut_confined (key : Nat) (b : Byte) : s.ConfinedTo k (s.hbmPut key b) := by
  unfold State.hbmPut
  dsimp only
  split
  · exact .of_suites rfl rfl rfl rfl rfl rfl
  · exact .of_suites rfl rfl rfl rfl rfl rfl

theorem devPut_confined (a : Nat) (b : Byte) : s.ConfinedTo k (s.devPut a b) := by
  unfold State.devPut
  split
  · exact hbmPut_confined k s _ b
  · split
    · exact .of_suites rfl rfl rfl rfl rfl rfl
    · exact .refl k s
  · exact .refl k s

theorem devWrite_confined (l : List Byte) (a : Nat) : s.ConfinedTo k (s.devWrite a l) := by
  induction l generalizing s a with
  | nil => exact .refl k s
  | cons b l ih => exact (devPut_confined k s a b).trans (ih _ _)

theorem logHostFail_confined (a n : Nat) : s.ConfinedTo k (s.logHostFail a n) := by
  refine .foldl _ _ (fun t v => ?_)
  split
  · split
    · exact .refl k t
    · exact logE_confined k t _ _ _ _ _ _ _ _ _
  · exact .refl k t

theorem hubWrite_confined (a : Nat) (b : List Byte) : s.ConfinedTo k (s.hubWrite a b) :=
  ((touchAll_confined k s a _).trans (devWrite_confined k _ b a)).trans (logHostFail_confined k _ a _)

/-! ### Rings -/

theorem ringStop_confined (rn page : Nat) : s.ConfinedTo k (s.ringStop rn page) := by
  unfold State.ringStop
  split
  · exact .refl k s
  · exact (setRing_confined k s rn _).trans (logE_confined k _ _ _ _ _ _ _ _ _ _)

theorem ringIndexWord_confined (rn : Nat) : s.ConfinedTo k (s.ringIndexWord rn) := by
  unfold State.ringIndexWord
  split
  · exact .refl k s
  · split
    · exact hubWrite_confined k s _ _
    · exact ringStop_confined k s rn _

theorem ringSignal_confined (rn : Nat) : s.ConfinedTo k (s.ringSignal rn) := by
  unfold State.ringSignal
  split
  · exact .refl k s
  · split
    · exact ringIrq_confined k s _ _
    · exact .refl k s

theorem ringAdvanced_confined (rn : Nat) : s.ConfinedTo k (s.ringAdvanced rn) := by
  unfold State.ringAdvanced
  split
  · exact .refl k s
  · split
    · exact (ringIndexWord_confined k s rn).trans (ringSignal_confined k _ rn)
    · exact ringIndexWord_confined k s rn

theorem ringAdvC_confined (rn : Nat) : s.ConfinedTo k (s.ringAdvC rn) :=
  (setRing_confined k s rn _).trans (ringAdvanced_confined k _ rn)

theorem unreserve_confined (j : Nat) (resv : List Nat) : s.ConfinedTo k (s.unreserve j resv) := by
  refine .foldl _ _ (fun t e => ?_)
  split
  · exact setRing_confined k t _ _
  · exact .refl k t

theorem bindRings_confined (l : List Nat) (j : Option Nat) : s.ConfinedTo k (s.bindRings l j) :=
  .foldl _ _ (fun t n => setRing_confined k t n _)

theorem vacate_confined (mask : Nat) : s.ConfinedTo k (s.vacate mask) := by
  have hlogged : s.ConfinedTo k ((s.flight.filter (fromOutside mask)).foldl
      (fun (t : State) p => t.logDiscard (queueWord p.core p.qi p.src) s.fab.chip) s) :=
    .foldl _ _ (fun t _ => logDiscard_confined k t _ _)
  exact hlogged.trans (.of_suites rfl rfl rfl rfl rfl rfl)

/-! ## The end of a suite (R245, R256) -/

theorem consumeEntry_confined : s.ConfinedTo k (s.consumeEntry k) := by
  unfold State.consumeEntry
  dsimp only
  refine .trans ?_ (ringAdvC_confined k _ _)
  refine .trans ?_ (setSuite_confined k _ _)
  split
  · exact unreserve_confined k s k _
  · exact .refl k s

theorem consumePending_confined : s.ConfinedTo k (s.consumePending k) := by
  have hcomps : ∀ l, s.ConfinedTo k { s with comps := l } := fun l => .of_suites rfl rfl rfl rfl rfl rfl
  unfold State.consumePending
  split
  · exact (hcomps _).trans (consumeEntry_confined k _)
  · exact .refl k s

theorem endEntry_confined (status : Nat) : s.ConfinedTo k (s.endEntry k status) := by
  unfold State.endEntry
  split
  · split
    · exact (unreserve_confined k s k _).trans (setSuite_confined k _ _)
    · exact (due_confined k s _ _ _ _ _ _ _ _).trans (consumeEntry_confined k _)
  · exact .refl k s

theorem endRows_confined (status cause : Nat) : s.ConfinedTo k (s.endRows k status cause) := by
  refine .trans (.foldl _ _ (fun t r => ?_)) (setSuite_confined k _ _)
  split
  · exact due_confined k t _ _ _ _ _ _ _ _
  · exact .refl k t

theorem endLoad_confined (status core : Nat) : s.ConfinedTo k (s.endLoad k status core) := by
  unfold State.endLoad
  split
  · split
    · exact setSuite_confined k s _
    · exact (setSuite_confined k s _).trans (answerLate_confined k _ _ _ _)
  · exact .refl k s

/-- What was in progress in a suite ends with its status. -/
def State.endWork (s : State) (k status loadStatus : Nat) : State :=
  ((((s.consumePending k).endEntry k status).endRows k status 0).endLoad k loadStatus 0xff).dueState k 0 0

/-- The rings, the cores and the remote credits of a suite return. -/
def State.endHold (s : State) (k mask : Nat) : State :=
  ((s.bindRings (s.suite k).ringList none).vacate mask).dropCredits mask

theorem endWork_confined (status loadStatus : Nat) : s.ConfinedTo k (s.endWork k status loadStatus) := by
  refine .trans ?_ (due_confined k _ _ _ _ _ _ _ _ _)
  refine .trans ?_ (endLoad_confined k _ _ _)
  refine .trans ?_ (endRows_confined k _ _ _)
  exact (consumePending_confined k s).trans (endEntry_confined k _ _)

theorem dropCredits_confined (mask : Nat) : s.ConfinedTo k (s.dropCredits mask) := .of_suites rfl rfl rfl rfl rfl rfl

theorem endHold_confined (mask : Nat) : s.ConfinedTo k (s.endHold k mask) :=
  ((bindRings_confined k s _ _).trans (vacate_confined k _ mask)).trans (dropCredits_confined k _ mask)

theorem freeSuite_eq (status loadStatus : Nat) (h : (s.suite k).st ≠ 0) : s.freeSuite k status loadStatus =
    ((s.endWork k status loadStatus).endHold k (s.suite k).mask).setSuite k (fun _ => Suite.free) :=
  if_neg h

theorem freeSuite_ended (status loadStatus : Nat) :
    s.ConfinedTo k ((s.endWork k status loadStatus).endHold k (s.suite k).mask) :=
  (endWork_confined k s status loadStatus).trans (endHold_confined k _ _)

theorem freeSuite_confined (status loadStatus : Nat) : s.ConfinedTo k (s.freeSuite k status loadStatus) := by
  by_cases h : (s.suite k).st = 0
  · rw [State.freeSuite, if_pos h]
    exact .refl k s
  · rw [freeSuite_eq k s status loadStatus h]
    exact (freeSuite_ended k s status loadStatus).trans (setSuite_confined k _ _)

theorem suite_freeSuite (status loadStatus : Nat) (h : (s.suite k).st ≠ 0) (hk : k < s.suites.length) :
    (s.freeSuite k status loadStatus).suite k = Suite.free := by
  rw [freeSuite_eq k s status loadStatus h, State.suite_setSuite _ _ _ (by rwa [(freeSuite_ended k s status loadStatus).length])]

end

/-! ## Suite release (R245) -/

section
variable {s : State} {r : Req}

theorem actSuiteRelease_free (h : (s.suite r.suite).st = 0) : actSuiteRelease s r = (s, some (0x01, [])) := by
  simp [actSuiteRelease, h]

theorem actSuiteRelease_foreign (h : (s.suite r.suite).st ≠ 0) (howner : (s.suite r.suite).owner ≠ r.fn) (hf : r.fn ≠ 0) :
    actSuiteRelease s r = (s, some (0x04, [])) := by
  simp [actSuiteRelease, h, howner, hf]

theorem actSuiteRelease_frees (h : (s.suite r.suite).st ≠ 0) (howner : (s.suite r.suite).owner = r.fn ∨ r.fn = 0) :
    actSuiteRelease s r = (s.freeSuite r.suite 0x02 0x66, some (0, [])) := by
  have hmay : ¬ ((s.suite r.suite).owner != r.fn && r.fn != 0) = true := by
    simpa [or_iff_not_imp_left] using howner
  rw [actSuiteRelease, if_neg h, if_neg hmay]

end

theorem suiteReleaseOutcomes : Claims.SuiteReleaseOutcomes := by
  intro s p r h
  refine ⟨fun hst => ?free, fun hst howner hf => ?foreign, fun hst howner hlen => ?frees⟩
  case free => exact accepted_message_answer s p _ _ r _ _ _ h (actSuiteRelease_free (s := s.accepted r) hst)
  case foreign => exact accepted_message_answer s p _ _ r _ _ _ h (actSuiteRelease_foreign (s := s.accepted r) hst howner hf)
  case frees =>
    exact ⟨_, accepted_message_answer s p _ _ r _ _ _ h (actSuiteRelease_frees (s := s.accepted r) hst howner), rfl,
      suite_freeSuite r.suite (s.accepted r) _ _ hst hlen, (freeSuite_confined r.suite (s.accepted r) _ _).others⟩

/-- Settles O11: the checks of a suite's creation and what stands when they pass, and the three outcomes of its release. -/
theorem suiteLifetime : Obligations.SuiteLifetime := ⟨suiteCreateOutcomes, suiteReleaseOutcomes⟩

end Sys2Proof.Machine

/-! SUPPORT. Proofs about orphan mode, and about the work of a suite: its entries, its completion entries and its steps. -/

namespace Sys2Proof.Machine

/-! ## The heartbeat timeout (R264) -/

/-- A function that never sent a heartbeat, that is an orphan or whose heartbeat is younger than 300 ms. -/
theorem orphanize_stays {s : State} {f : Nat}
    (h : (s.func f).beat = none ∨ (s.func f).orphan = true ∨ ∃ b, (s.func f).beat = some b ∧ s.now < b + 300000000) :
    s.orphanize f = s := by
  cases hbeat : (s.func f).beat with
  | none => simp only [State.orphanize, hbeat]
  | some b =>
    have hnot : ¬ (s.firmwareActs && !(s.func f).orphan && f < 17 && b + 300000000 ≤ s.now) = true := by
      obtain hnone | horphan | ⟨b', hb', hyoung⟩ := h
      · exact absurd (hbeat.symm.trans hnone) (Option.some_ne_none b)
      · simp [horphan]
      · obtain rfl : b = b' := Option.some.inj (hbeat.symm.trans hb')
        simp [hyoung]
    simp only [State.orphanize, hbeat]
    rw [if_neg hnot]

theorem heartbeatTimeout : Claims.HeartbeatTimeout := by
  refine ⟨fun s f b hf hfw hbeat horphan hlate => ?_, fun s f hf h => ?_⟩
  · rw [← orphanize_late hf hfw hbeat horphan hlate]
    exact on_next s _ (on_of_firmwareActs s hfw) _ (decide_eq_true hf)
  · have hexec := self_next s (f < 17) (decide_eq_true hf)
    rwa [← congrArg (onUnit (f < 17) s) (orphanize_stays h)] at hexec

/-! ## Adopt (R266) -/

/-- A buffer that an adopt message may name: aligned, of a length in range, in the sender's windows. -/
def State.AdoptGood (s : State) (r : Req) : Prop :=
  fld r.body 0 8 % 16 = 0 ∧ 65536 ≤ fld r.body 8 4 ∧ fld r.body 8 4 ≤ 2097152 ∧ fld r.body 8 4 % 16 = 0 ∧ fld r.body 12 4 = 0 ∧
    s.inFn r.fn (fld r.body 0 8) (fld r.body 8 4) = true

/-- The records of the rings and suites of a function. -/
def State.adoptRecords (s : State) (f : Nat) : List Byte :=
  (s.ringsOf f).flatMap ringRecord ++ (s.suitesOf f).flatMap s.suiteRecord

/-- How many rings and suites they are. -/
def State.adoptCounts (s : State) (f : Nat) : List Byte := toLE 4 (s.ringsOf f).length ++ toLE 4 (s.suitesOf f).length

/-- The loads that a function's suites hold after their acknowledgement end. -/
def State.dropHeld (s : State) (l : List Nat) : State :=
  l.foldl (fun t k => match (t.suite k).load with
    | some l => if l.phase = 2 then t.setSuite k (fun x => { x with load := none }) else t
    | none => t) s

/-- A function leaves orphan mode with a fresh heartbeat time. -/
def State.adopted (s : State) (f now : Nat) : State := s.setFunc f (fun x => { x with orphan := false, beat := some now })

section
variable {s : State} {r : Req}

theorem actAdopt_out_of_range (h : ¬ s.AdoptGood r) : actAdopt s r = (s, some (0x71, zeros 8)) := by
  have hbad : (fld r.body 0 8 % 16 != 0 || fld r.body 8 4 < 65536 || 2097152 < fld r.body 8 4 || fld r.body 8 4 % 16 != 0 ||
      fld r.body 12 4 != 0 || !s.inFn r.fn (fld r.body 0 8) (fld r.body 8 4)) = true := by
    by_contra hgood
    simp only [Bool.or_eq_true, bne_iff_ne, decide_eq_true_eq, Bool.not_eq_true', not_or, ne_eq, not_not, Nat.not_lt,
      Bool.not_eq_false, and_assoc] at hgood
    exact h hgood
  exact if_pos hbad

variable (h : s.AdoptGood r)
include h

theorem actAdopt_good : actAdopt s r =
    if fld r.body 8 4 < (s.adoptRecords r.fn).length then (s, some (0x70, s.adoptCounts r.fn))
    else if !s.writable (fld r.body 0 8) (s.adoptRecords r.fn).length then (s, some (0x71, zeros 8))
    else if (s.func r.fn).orphan then
      ((((s.hubWrite (fld r.body 0 8) (s.adoptRecords r.fn)).adopted r.fn s.now).dropHeld (s.suitesOf r.fn)).dueEvent r.fn 0x02,
        some (0, s.adoptCounts r.fn))
    else (s.hubWrite (fld r.body 0 8) (s.adoptRecords r.fn), some (0, s.adoptCounts r.fn)) := by
  obtain ⟨ha, hlo, hhi, hn, hres, hin⟩ := h
  have hgood : ¬ (fld r.body 0 8 % 16 != 0 || fld r.body 8 4 < 65536 || 2097152 < fld r.body 8 4 || fld r.body 8 4 % 16 != 0 ||
      fld r.body 12 4 != 0 || !s.inFn r.fn (fld r.body 0 8) (fld r.body 8 4)) = true := by
    simp [ha, hlo, hhi, hn, hres, hin]
  exact if_neg hgood

theorem actAdopt_too_small (hsmall : fld r.body 8 4 < (s.adoptRecords r.fn).length) :
    actAdopt s r = (s, some (0x70, s.adoptCounts r.fn)) := by
  rw [actAdopt_good h, if_pos hsmall]

variable (hfits : (s.adoptRecords r.fn).length ≤ fld r.body 8 4)
include hfits

theorem actAdopt_unwritable (hw : s.writable (fld r.body 0 8) (s.adoptRecords r.fn).length = false) :
    actAdopt s r = (s, some (0x71, zeros 8)) := by
  rw [actAdopt_good h, if_neg (Nat.not_lt.mpr hfits), if_pos (by rw [hw]; rfl)]

theorem actAdopt_orphan (hw : s.writable (fld r.body 0 8) (s.adoptRecords r.fn).length = true)
    (horphan : (s.func r.fn).orphan = true) :
    actAdopt s r = ((((s.hubWrite (fld r.body 0 8) (s.adoptRecords r.fn)).adopted r.fn s.now).dropHeld (s.suitesOf r.fn)).dueEvent
      r.fn 0x02, some (0, s.adoptCounts r.fn)) := by
  rw [actAdopt_good h, if_neg (Nat.not_lt.mpr hfits), if_neg (by rw [hw]; decide), if_pos horphan]

end

/-- The end of held loads changes suites only. -/
theorem dropHeld_frame (s : State) (l : List Nat) : ∃ x, s.dropHeld l = { s with suites := x } := by
  refine List.foldlRecOn (motive := fun (t : State) => ∃ x, t = { s with suites := x }) _ _ ⟨s.suites, rfl⟩ (fun t ht k _ => ?_)
  obtain ⟨x, rfl⟩ := ht
  split
  · split
    · exact ⟨_, rfl⟩
    · exact ⟨_, rfl⟩
  · exact ⟨_, rfl⟩

/-- A completion entry on each of some rings changes the entries that are due, by the rings and the instant alone. -/
theorem dueRings_frame (l : List (Nat × Ring)) (status : Nat) (s : State) :
    ∃ e : Nat → List Comp, ∀ x fs, l.foldl (fun (t : State) e => t.due e.1 0 3 status 0 0xff 0 .none) { s with suites := x, funcs := fs } =
      { s with suites := x, funcs := fs, comps := s.comps ++ e s.now } := by
  induction l generalizing s with
  | nil => exact ⟨fun _ => [], fun x fs => by simp⟩
  | cons a l ih =>
    obtain ⟨e, he⟩ := ih (s.due a.1 0 3 status 0 0xff 0 .none)
    refine ⟨fun now => { ring := a.1, tag := 0, kind := 3, status := status, cause := 0, suite := 0xff, count := 0, stamp := s.now,
                         after := .none } :: e now, fun x fs => (he x fs).trans ?_⟩
    simp [State.due, State.now]

/-- The events of a function's rings do not depend on suites and functions, and leave them as they are. -/
theorem dueEvent_frame (s : State) (f status : Nat) (x : List Suite) (fs : List Func) :
    ({ s with suites := x, funcs := fs } : State).dueEvent f status =
      { s with suites := x, funcs := fs, comps := (s.dueEvent f status).comps } := by
  obtain ⟨e, he⟩ := dueRings_frame ((s.ringsOf f).filter (fun e => e.2.kind = 1)) status s
  have hself : s.dueEvent f status = { s with comps := s.comps ++ e s.now } := he s.suites s.funcs
  rw [hself]
  exact he x fs

/-- What an adoption by an orphan leaves: its heartbeat time and its events are new, and the memory is as it was written. -/
theorem adoption_leaves (s : State) (f now : Nat) (l : List Nat) :
    let t := ((s.adopted f now).dropHeld l).dueEvent f 0x02
    t.hbm = s.hbm ∧ t.comps = (s.dueEvent f 0x02).comps ∧
      (f < s.funcs.length → (t.func f).orphan = false ∧ (t.func f).beat = some now) := by
  intro t
  obtain ⟨x, hx⟩ := dropHeld_frame (s.adopted f now) l
  have ht : t = { s with suites := x, funcs := (s.adopted f now).funcs, comps := (s.dueEvent f 0x02).comps } := by
    rw [← dueEvent_frame]
    exact congrArg (fun (u : State) => u.dueEvent f 0x02) hx
  rw [ht]
  refine ⟨rfl, rfl, fun hf => ?_⟩
  have hfunc := s.func_setFunc f (fun x => { x with orphan := false, beat := some now }) hf
  exact ⟨congrArg Func.orphan hfunc, congrArg Func.beat hfunc⟩

theorem adoptOutcomes : Claims.AdoptOutcomes := by
  intro s p r h a n recs counts good
  refine ⟨fun hbad => ?range, fun hgood hsmall => ?small, fun hgood hfits hw => ?unwritable, fun hgood hfits hw horphan => ?records,
    fun hgood hfits hw horphan => ?orphan⟩
  case range => exact accepted_message_answer s p _ _ r _ _ _ h (actAdopt_out_of_range (s := s.accepted r) hbad)
  case small => exact accepted_message_answer s p _ _ r _ _ _ h (actAdopt_too_small (s := s.accepted r) hgood hsmall)
  case unwritable => exact accepted_message_answer s p _ _ r _ _ _ h (actAdopt_unwritable (s := s.accepted r) hgood hfits hw)
  case records =>
    obtain ⟨ha, hlo, hhi, hn, hres, hin⟩ := hgood
    exact accepted_message_answer s p _ _ r _ _ _ h
      (actAdopt_records (s.accepted r) r ha hlo hhi hn hres hin hfits hw horphan)
  case orphan =>
    obtain ⟨hhbm, hcomps, hfunc⟩ := adoption_leaves ((s.accepted r).hubWrite a recs) r.fn s.now (s.suitesOf r.fn)
    have hlen := (hubWrite_confined 0 (s.accepted r) a recs).functions
    exact ⟨_, accepted_message_answer s p _ _ r _ _ _ h (actAdopt_orphan (s := s.accepted r) hgood hfits hw horphan), hhbm,
      fun hf => hfunc (hf.trans_eq hlen.symm), hcomps⟩

/-- Settles O12: a late heartbeat makes an orphan, and an adoption ends its orphan mode. -/
theorem orphanMode : Obligations.OrphanMode := ⟨heartbeatTimeout, adoptOutcomes⟩

/-! ## Submission entries (R251 to R255) -/

theorem exec_dispatchEntry {s : State} {k : Nat} (hk : k < 32) (hidle : s.suiteIdle k = true) :
    exec (.dispatchEntry k) s = .next (s.sameInputs (s.dispatch k)) :=
  on_next s _ (on_of_firmwareActs s (firmwareActs_of_suiteIdle hidle)) _ (decide_eq_true hk)

section
variable {s : State} {k : Nat} {r : Ring} (hidle : s.suiteIdle k = true) (hstarted : (s.suite k).started = false)
  (hassembled : (s.suite k).assembled = false) (hr : s.ring? (s.suite k).subRing = some r) (hheld : r.held ≠ 0)
  (hrun : r.stopped = false)
include hidle hstarted hassembled hr hheld hrun

theorem dispatch_unreadable (hreads : s.ringReads r (r.slotAddr r.c) 256 = false) :
    s.dispatch k = s.ringStop (s.suite k).subRing (pageOf (r.slotAddr r.c)) := by
  simp [State.dispatch, hr, hidle, hstarted, hassembled, hheld, hrun, hreads]

/-- What a suite that may take the oldest entry of its ring does with it: the first check that fails decides. -/
theorem dispatch_taken (hreads : s.ringReads r (r.slotAddr r.c) 256 = true) :
    let e := parseEntry (s.devRead (r.slotAddr r.c) 256)
    let t := s.touchPins e.recs (s.touchAll (r.slotAddr r.c) 256)
    (t.badEntry k e = true → s.dispatch k = t.due (t.suite k).compRing r.c 0 0x05 0 k 0 (.consume k)) ∧
    (t.badEntry k e = false → e.recs.all t.pinHolds = false →
      s.dispatch k = t.due (t.suite k).compRing r.c 0 0x04 0 k 0 (.consume k)) ∧
    (t.badEntry k e = false → e.recs.all t.pinHolds = true → t.resvFits k e.resv = false → s.dispatch k = t) := by
  intro e t
  have hmay : (!s.suiteIdle k || (s.suite k).started || (s.suite k).assembled || r.held = 0 || r.stopped) = false := by
    simp [hidle, hstarted, hassembled, hheld, hrun]
  have hread : ¬ (!s.ringReads r (r.slotAddr r.c) 256) = true := by simp [hreads]
  simp only [State.dispatch, hr]
  rw [if_neg (ne_true_of_eq_false hmay), if_neg hread]
  refine ⟨fun hbad => if_pos hbad, fun hgood hpins => ?_, fun hgood hpins hfits => ?_⟩
  · have hloose : (!e.recs.all t.pinHolds) = true := by rw [hpins]; rfl
    rw [if_neg (ne_true_of_eq_false hgood), if_pos hloose]
  · have hpinned : ¬ (!e.recs.all t.pinHolds) = true := by rw [hpins]; exact Bool.false_ne_true
    have hfull : (!t.resvFits k e.resv) = true := by rw [hfits]; rfl
    rw [if_neg (ne_true_of_eq_false hgood), if_neg hpinned, if_pos hfull]

end

theorem dispatchOutcomes : Claims.DispatchOutcomes := by
  intro s k r hk hidle hstarted hassembled hr hheld hrun e t cr
  rw [exec_dispatchEntry hk hidle]
  refine ⟨fun hreads => ?_, fun hreads hbad => ?_, fun hreads hgood hpins => ?_, fun hreads hgood hpins hfits => ?_,
    fun hreads hgood hpins hfits => ?_⟩
  · rw [dispatch_unreadable hidle hstarted hassembled hr hheld hrun hreads]
  · rw [(dispatch_taken hidle hstarted hassembled hr hheld hrun hreads).1 hbad]
  · rw [(dispatch_taken hidle hstarted hassembled hr hheld hrun hreads).2.1 hgood hpins]
  · rw [(dispatch_taken hidle hstarted hassembled hr hheld hrun hreads).2.2 hgood hpins hfits]
  · rw [dispatch_starts hidle hstarted hassembled hr hheld hrun hreads hgood hpins hfits]

/-! ## Completion entries (R250, R253) -/

@[simp] theorem length_toLE (w n : Nat) : (toLE w n).length = w := by
  induction w generalizing n with
  | zero => rfl
  | succ w ih => simp [toLE, ih]

theorem Comp.length_bytes (c : Comp) : c.bytes.length = 32 := by
  simp [Comp.bytes, zeros]

theorem ringStop_comps (s : State) (rn page : Nat) : (s.ringStop rn page).comps = s.comps := by
  unfold State.ringStop
  split
  · rfl
  · exact State.logE_comps _ _ _ _ _ _ _ _ _ _

section
variable {s : State} {rn : Nat} {c : Comp} {r : Ring} (hc : s.comps.find? (fun c => c.ring = rn) = some c) (hr : s.ring? rn = some r)
include hc hr

theorem writeComp_full (hfull : r.free = 0) : s.writeComp rn = s := by
  simp [State.writeComp, hc, hr, hfull]

variable (hfree : r.free ≠ 0) (hrun : r.stopped = false) (hfw : s.firmwareActs = true)
include hfree hrun hfw

theorem writeComp_unwritable (hwrites : s.ringWrites r (r.slotAddr r.p) 32 = false) :
    s.writeComp rn = s.ringStop rn (pageOf (r.slotAddr r.p)) := by
  simp [State.writeComp, hc, hr, hfree, hrun, hfw, hwrites]

theorem writeComp_consumes {k : Nat} (hwrites : s.ringWrites r (r.slotAddr r.p) 32 = true) (hafter : c.after = .consume k) :
    s.writeComp rn = (({ s with comps := s.comps.erase c } : State).ringAppend rn c.bytes).consumeEntry k := by
  simp [State.writeComp, hc, hr, hfree, hrun, hfw, hwrites, hafter]

end

theorem completionEntryWritten : Claims.CompletionEntryWritten := by
  intro s rn c r hon hrn hc hr u ready
  have hexec : exec (.completionEntryWrite rn) s = .next (s.sameInputs (s.writeComp rn)) := on_next s _ hon _ (decide_eq_true hrn)
  rw [hexec]
  refine ⟨fun ⟨hfree, hrun, hfw⟩ hwrites hafter => ?_, fun k ⟨hfree, hrun, hfw⟩ hwrites hafter => ?_,
    fun ⟨hfree, hrun, hfw⟩ hwrites => ⟨?_, ringStop_comps s rn _⟩, fun hfull => ?_, c.length_bytes⟩
  · rw [writeComp_written hc hr hfree hrun hfw hwrites hafter]
  · rw [writeComp_consumes hc hr hfree hrun hfw hwrites hafter]
  · rw [writeComp_unwritable hc hr hfree hrun hfw hwrites]
  · rw [writeComp_full hc hr hfull, State.sameInputs_self]

/-- Settles O14: the checks of a submission entry in their order, and the four ends of a completion entry that is due. -/
theorem dispatchAndCompletion : Obligations.DispatchAndCompletion := ⟨dispatchOutcomes, completionEntryWritten⟩

/-! ## Steps (R258) -/

/-- The state in which an assembly looks whether anything waits: the rows of a complete step have been read. -/
def State.stepSeen (s : State) (k : Nat) : State := if (s.suite k).started then s.stepRead k else s

theorem subWaits_held {t : State} {k : Nat} {q : Ring} (hq : t.ring? (t.suite k).subRing = some q) (hheld : q.held ≠ 0)
    (hrun : q.stopped = false) : t.subWaits k = true := by
  simp [State.subWaits, hq, hheld, hrun]

theorem subWaits_empty {t : State} {k : Nat} {q : Ring} (hq : t.ring? (t.suite k).subRing = some q) (hheld : q.held = 0) :
    t.subWaits k = false := by
  simp [State.subWaits, hq, hheld]

theorem stepAdmit_ring {t : State} {k rn : Nat} {ar : Ring} (hadm : (t.suite k).admRing = some rn) (har : t.ring? rn = some ar) :
    t.stepAdmit k = if (t.func (t.suite k).owner).orphan then t else t.admitPass k rn ar.p ar.slots := by
  simp only [State.stepAdmit, hadm, har]

section
variable {s : State} {k : Nat} (hidle : s.suiteIdle k = true) (hbatch : (s.suite k).batching = true)
  (hlast : (s.suite k).lastStep < (s.suite k).kernels)
include hidle hbatch hlast

theorem assemble_assembled (h : (s.suite k).assembled = true) : s.assemble k = s.stepDispatch k := by
  simp [State.assemble, hidle, hbatch, hlast, h]

theorem assemble_begins (h : (s.suite k).assembled = false) :
    s.assemble k = if (s.stepSeen k).compWaits k || (s.stepSeen k).subWaits k then s.stepSeen k
      else ((s.stepSeen k).stepAdmit k).stepPrepare k := by
  simp [State.assemble, State.stepSeen, hidle, hbatch, hlast, h]

theorem assemble_waits (h : (s.suite k).assembled = false)
    (hwait : (s.stepSeen k).compWaits k = true ∨ (s.stepSeen k).subWaits k = true) : s.assemble k = s.stepSeen k := by
  rw [assemble_begins hidle hbatch hlast h, if_pos (by simpa using hwait)]

theorem assemble_prepares (h : (s.suite k).assembled = false) (hcomp : (s.stepSeen k).compWaits k = false)
    (hsub : (s.stepSeen k).subWaits k = false) : s.assemble k = ((s.stepSeen k).stepAdmit k).stepPrepare k := by
  rw [assemble_begins hidle hbatch hlast h, if_neg (by simp [hcomp, hsub])]

end

section
variable {u : State} {k : Nat}

theorem stepPrepare_empty (h : occupied (allot (u.suite k).chunk (u.suite k).budget (u.suite k).rows) = 0) : u.stepPrepare k = u :=
  if_pos h

theorem stepPrepare_occupied (h : occupied (allot (u.suite k).chunk (u.suite k).budget (u.suite k).rows) ≠ 0) :
    let x := u.suite k
    let rows := allot x.chunk x.budget x.rows
    u.stepPrepare k = ((u.hubWrite x.stepBuf (stepBuffer x.stepBuf x.stepNo rows)).setSuite k (fun y =>
      { y with rows := rows, assembled := true })).stepDispatch k :=
  if_neg h

theorem stepDispatch_waits (h : u.resvFits k (u.suite k).stepResv = false) : u.stepDispatch k = u := by
  simp [State.stepDispatch, h]

theorem stepDispatch_starts (h : u.resvFits k (u.suite k).stepResv = true) :
    let x := u.suite k
    u.stepDispatch k = ((u.reserve k x.stepResv).setSuite k (fun y =>
      { y with stepNo := y.stepNo + 1, assembled := false,
               disp := some { isStep := true, index := x.stepNo % M32, first := x.firstStep, last := x.lastStep, kernel := x.firstStep,
                              words := stepWords x.stepBuf x.stepNo x.rows, notify := false, resv := x.stepResv, pins := [],
                              done := 0 } })).beginRun k x.firstStep := by
  simp [State.stepDispatch, h]

end

/-- Settles O16: where an assembly stops, what it prepares, and the dispatch of its step. -/
theorem stepAssemblyOutcomes : Obligations.StepAssemblyOutcomes := by
  refine ⟨fun s k hk hidle hbatch hlast => ?_, fun u k =>
    ⟨stepPrepare_empty, stepPrepare_occupied, stepDispatch_waits, stepDispatch_starts⟩⟩
  intro t
  have hexec : exec (.stepAssembly k) s = .next (s.sameInputs (s.assemble k)) :=
    on_next s _ (on_of_firmwareActs s (firmwareActs_of_suiteIdle hidle)) _ (decide_eq_true hk)
  rw [hexec]
  refine ⟨fun h => ?assembled, fun h hcomp => ?comp, fun q h hq hheld hrun => ?sub, fun q rn ar h hcomp hq hheld hadm har => ?admits⟩
  case assembled => rw [assemble_assembled hidle hbatch hlast h]
  case comp => rw [assemble_waits hidle hbatch hlast h (.inl hcomp), State.stepSeen]
  case sub => rw [assemble_waits hidle hbatch hlast h (.inr (subWaits_held hq hheld hrun)), State.stepSeen]
  case admits =>
    rw [assemble_prepares hidle hbatch hlast h hcomp (subWaits_empty hq hheld), stepAdmit_ring (t := s.stepSeen k) hadm har]
    rfl

end Sys2Proof.Machine

/-! SUPPORT. Proofs about the firmware: its reports, its images and fuses, and a live update. -/

namespace Sys2Proof.Machine

/-! ## Identity, attestation and status (R373, R374, R381) -/

theorem derObjects_congr {s t : State} (h : t.flash = s.flash) (fuel o : Nat) : t.derObjects fuel o = s.derObjects fuel o := by
  have hread : ∀ a n, t.flashRead a n = s.flashRead a n := fun a n => congrArg (fun m => memRead flashDefault m a n) h
  induction fuel generalizing o with
  | zero => rfl
  | succ fuel ih => rw [State.derObjects, State.derObjects, hread, hread, ih]

theorem certChain_accepted (s : State) (r : Req) : (s.accepted r).certChain = s.certChain := by
  have hchain : (s.accepted r).derObjects 0x40000 0 = s.derObjects 0x40000 0 :=
    derObjects_congr (s := s) (t := s.accepted r) rfl 0x40000 0
  unfold State.certChain
  rw [hchain]
  rfl

theorem actIdentity_fits {s : State} {r : Req} (hin : s.inFn r.fn (fld r.body 0 8) (max 16384 s.certChain.length) = true)
    (hw : s.writable (fld r.body 0 8) s.certChain.length = true) :
    actIdentity s r = (s.hubWrite (fld r.body 0 8) s.certChain, some (0, toLE 4 s.certChain.length)) := by
  simp only [actIdentity, hin, hw, Bool.and_self, if_true]

theorem length_toBE (w n : Nat) : (toBE w n).length = w := by
  rw [toBE, List.length_reverse, length_toLE]

theorem length_ecdsaSign (d k : Nat) (digest : List Byte) : (ecdsaSign d k digest).length = 96 := by
  simp only [ecdsaSign, List.length_append, length_toBE]

/-- A request for a report whose fields are in range gets the report's body with a signature of 96 bytes (R374). -/
theorem actAttestation_signs {s : State} {r : Req} :
    let n := byteAt r.body 0
    let body := s.attestBody r.fn n ((r.body.drop 16).take n)
    1 ≤ n → n ≤ 64 → fld r.body 1 7 = 0 → allZero (r.body.drop (16 + n)) = true → s.inFn r.fn (fld r.body 8 8) 8192 = true →
    s.writable (fld r.body 8 8) (body.length + 96) = true →
    ∃ sig : List Byte, sig.length = 96 ∧
      actAttestation s r = (({ s with free := s.free + 1 } : State).hubWrite (fld r.body 8 8) (body ++ sig),
        some (0, toLE 4 (body ++ sig).length)) := by
  intro n body hlo hhi hres hzero hin hw
  have hrange : ¬ (n < 1 || 64 < n || fld r.body 1 7 != 0 || !allZero (r.body.drop (16 + n)) ||
      !s.inFn r.fn (fld r.body 8 8) 8192) = true := by
    simp [Nat.not_lt.mpr hhi, hres, hzero, hin]
    omega
  have hwritten : ¬ (!s.writable (fld r.body 8 8) (body.length + 96)) = true := by simp [hw]
  refine ⟨_, ?_, (if_neg hrange).trans (if_neg hwritten)⟩
  exact length_ecdsaSign _ _ _

/-! ## Images (R381, R382, R385) -/

theorem messageImage_accepted (s : State) (r : Req) (lo hi : Nat) : (s.accepted r).messageImage r lo hi = s.messageImage r lo hi := rfl

section
variable {s : State} {r : Req} {b : List Byte} {i j : Image}

/-- An image that is acceptable and reads the handoff of the one that runs is staged. -/
theorem actStage_stands (hupdating : s.updating = false) (hb : s.messageImage r 512 0x1000000 = some b)
    (hi : acceptImage s.fuses 0 b = some i) (hrun : s.fw.run = some j) (hreads : readsHandoff i j = true) :
    ∃ t, actStage true s r = (t, some (0, [])) ∧ t.fw = { s.fw with staged := some i, update := 2 } := by
  have hread : readsHandoff i (s.fw.run.getD default) = true := by rwa [hrun]
  simp only [actStage, hupdating, hb, hi, hread, Bool.false_eq_true, Bool.not_true, if_false]
  refine ⟨_, rfl, ?_⟩
  exact congrArg (fun f : Fw => { f with staged := some i, update := 2 }) (touchAll_confined 0 s _ _).fw

theorem actRecoveryWrite_stands (hupdating : s.updating = false) (hb : s.messageImage r 512 0x800000 = some b)
    (hi : acceptImage s.fuses 1 b = some i) (hrun : s.fw.run = some j) (hreads : readsHandoff i j = true) :
    actRecoveryWrite true s r = ((s.touchImage r).flashWrite recoveryAt b, some (0, [])) := by
  simp only [actRecoveryWrite, hupdating, hb, hi, hrun, Option.getD_some, hreads, Bool.false_eq_true, Bool.not_true, if_false, if_true]

theorem actHostImage_stands (hb : s.messageImage r 1 0x1000000 = some b) :
    actHostImage true s r = ((s.touchImage r).flashWrite hostImageAt b, some (0, [])) := by
  simp only [actHostImage, hb, if_true]

end

/-! ## Fuses (R371) -/

section
variable {s : State} {r : Req}

/-- A key slot that no protected image uses and that is not the last usable one is revoked. -/
theorem actRevoke_stands : let k := byteAt r.body 0
    k ≤ 3 → fld r.body 1 3 = 0 → (∀ i, i ∈ s.images → i.1 ≠ k) → (List.range 4).filter (usableKey s.fuses) ≠ [k] →
    actRevoke s r = ({ s with fuses := { s.fuses with revoked := s.fuses.revoked.set k true } }, some (0, [])) := by
  intro k hk hres himages hlast
  have hunused : s.images.any (fun i => i.1 = k) = false := by
    simpa using fun a b hmem => himages (a, b) hmem
  have hmay : ¬ (3 < k || fld r.body 1 3 != 0 || s.images.any (fun i => i.1 = k) || (List.range 4).filter (usableKey s.fuses) == [k]) = true := by
    rw [hunused, beq_false_of_ne hlast]
    simpa [hres] using hk
  exact if_neg hmay

/-- A security version that no protected image falls short of becomes the least one. -/
theorem actAdvance_stands : let v := fld r.body 0 2
    1 ≤ v → v ≤ 64 → fld r.body 2 2 = 0 → s.fuses.minSec < v → (∀ i, i ∈ s.images → v ≤ i.2) →
    actAdvance s r = ({ s with fuses := { s.fuses with minSec := v } }, some (0, [])) := by
  intro v hlo hhi hres hmin himages
  have hmet : s.images.any (fun i => i.2 < v) = false := by
    simpa using fun a b hmem => himages (a, b) hmem
  have hmay : ¬ (v < 1 || 64 < v || fld r.body 2 2 != 0 || v ≤ s.fuses.minSec || s.images.any (fun i => i.2 < v)) = true := by
    rw [hmet]
    simp [hres]
    omega
  exact if_neg hmay

end

/-! ## Activation (R386 to R390) -/

/-- An activation that begins pauses the firmware, with the handoff block written (R387). -/
theorem beginActivation_fw (s : State) :
    s.beginActivation.fw.update = 4 ∧ s.beginActivation.fw.pause = some s.now ∧ s.beginActivation.fw.handoff.isSome = true :=
  ⟨rfl, rfl, rfl⟩

theorem actActivate_begins {s : State} {r : Req} (hupdating : s.updating = false) (hstaged : s.fw.staged ≠ none)
    (hemergency : s.emergency = false) :
    actActivate s r = ((s.setFw (fun f => { f with actPair := some r.pair })).beginActivation, none) := by
  have hstage : ¬ s.fw.staged.isNone = true := by simpa using hstaged
  simp only [actActivate]
  rw [if_neg (ne_true_of_eq_false hupdating), if_neg hstage, if_neg (ne_true_of_eq_false hemergency)]

/-- A deferred activation goes on once no condition of R386 holds it back. -/
theorem recheckActivation_begins {s : State} (hfw : s.fwOn = true) (hupdate : s.fw.update = 3) (hemergency : s.emergency = false) :
    ∃ ms, s.recheckActivation = (s.setFw (fun f => { f with deferMs := ms })).beginActivation := by
  have hmay : ¬ (s.fw.update != 3 || !s.fwOn) = true := by simp [hfw, hupdate]
  have hgo : (!s.emergency) = true := by rw [hemergency]; rfl
  exact ⟨_, (if_neg hmay).trans (if_pos hgo)⟩

/-! ### The end of an activation -/

theorem accept_confined (k : Nat) (s : State) (r : Req) (act : Act) (hact : ∀ t, State.ConfinedTo k t (act t r).1) :
    s.ConfinedTo k (s.accept r act) := by
  have heffect : ∀ t : State, s.ConfinedTo k t → s.ConfinedTo k (act t r).1 := fun t ht => ht.trans (hact t)
  unfold State.accept
  dsimp only
  split
  · exact (heffect _ (setPair_confined k s r.pair _)).trans (answer_confined k _ r _ _)
  · exact heffect _ (setPair_confined k s r.pair _)

theorem serveReq_confined (k : Nat) (s : State) (r : Req) (act : Act) (hact : ∀ t, State.ConfinedTo k t (act t r).1) :
    s.ConfinedTo k (s.serveReq r act) := by
  have htake : s.ConfinedTo k (s.take r.pair) := setPair_confined k s r.pair _
  unfold State.serveReq
  split
  · exact htake.trans (accept_confined k _ r act hact)
  · exact htake.trans (deliver_confined k _ _ _)
  · exact htake.trans (deliver_confined k _ _ _)

theorem refuseActivates_confined (k : Nat) (s : State) : s.ConfinedTo k s.refuseActivates := by
  refine .foldl _ _ (fun t p => ?_)
  split
  · split
    · exact serveReq_confined k t _ _ (fun u => .refl k u)
    · exact .refl k t
  · exact .refl k t

theorem releaseFaults_none {s : State} (h : s.health.heldFault = []) : s.releaseFaults = s := by
  simp [State.releaseFaults, h]

/-- The answer of the activate message leaves of the firmware all but the pair that waited for it. -/
theorem answerActivate_keeps (s : State) (status : Nat) :
    (s.answerActivate status).health = s.health ∧ ∃ a, (s.answerActivate status).fw = { s.fw with actPair := a } := by
  unfold State.answerActivate
  split
  · rename_i p hp
    have hlate := answerLate_confined 0 s p status []
    exact ⟨hlate.health, none, congrArg (fun f : Fw => { f with actPair := none }) hlate.fw⟩
  · exact ⟨rfl, s.fw.actPair, rfl⟩

/-- How an activation ends: the message is answered, the notices go out, other activate messages are refused, held faults follow. -/
def State.closeActivation (s : State) (status version : Nat) (rolled : Bool) : State :=
  ((s.answerActivate status).noticeFirmware version rolled).refuseActivates.releaseFaults

/-- With no fault held the end of an activation leaves the firmware but the pair that waited. -/
theorem closeActivation_fw {s : State} (h : s.health.heldFault = []) (status version : Nat) (rolled : Bool) :
    ∃ a, (s.closeActivation status version rolled).fw = { s.fw with actPair := a } := by
  obtain ⟨hhealth, a, ha⟩ := answerActivate_keeps s status
  have hrest := (noticeAll_confined 0 (s.answerActivate status) 0x4006 (toLE 4 version ++ toLE 1 (b2n rolled) ++ zeros 3)).trans
    (refuseActivates_confined 0 _)
  refine ⟨a, ?_⟩
  rw [State.closeActivation, releaseFaults_none]
  · exact hrest.fw.trans ha
  · rw [← h, ← hhealth]
    exact congrArg Health.heldFault hrest.health

/-- The state after a takeover by image `i`: the directory `d` names it, and the heartbeats move by the length of the pause (R387). -/
def State.handedOver (s : State) (d : Dir) (path : Nat) (i : Image) (pause : Nat) : State :=
  let t := (s.writeDirectory d).setFw (fun f => { f with run := some i, staged := none, update := 0, updated := true, pause := none,
                                                         handoff := none, bootPath := path })
  ({ t with funcs := t.funcs.map (fun f => { f with beat := f.beat.map (· + pause) }) } : State).newAlias

theorem newAlias_health (s : State) : s.newAlias.health = s.health := rfl

theorem writeDirectory_health (s : State) (d : Dir) : (s.writeDirectory d).health = s.health := rfl

theorem handedOver_health (s : State) (d : Dir) (path : Nat) (i : Image) (pause : Nat) :
    (s.handedOver d path i pause).health = s.health :=
  (newAlias_health _).trans (writeDirectory_health s d)

theorem handedOver_fw (s : State) (d : Dir) (path : Nat) (i : Image) (pause : Nat) :
    (s.handedOver d path i pause).fw.run = some i ∧ (s.handedOver d path i pause).fw.staged = none ∧
      (s.handedOver d path i pause).fw.update = 0 := ⟨rfl, rfl, rfl⟩

/-- The image that takes over runs, and nothing is staged. -/
theorem takeover_runs {s : State} {a : Nat} {i : Image} (hon : s.on = true) (hupdate : s.fw.update = 4) (hpause : s.fw.pause = some a)
    (hstaged : s.fw.staged = some i) (hheld : s.health.heldFault = []) (hreads : s.handoffReads = true) :
    s.takeover.fw.run = some i ∧ s.takeover.fw.staged = none ∧ s.takeover.fw.update = 0 := by
  have hmay : ¬ (s.fw.update != 4 || !s.on) = true := by simp [hupdate, hon]
  have hread : ¬ (!s.handoffReads) = true := by simp [hreads]
  have hclose : ∃ d path, s.takeover = (s.handedOver d path i (s.now - a)).closeActivation 0x00 i.version false := by
    simp only [State.takeover, hpause, hstaged]
    rw [if_neg hmay, if_neg hread]
    exact ⟨_, _, rfl⟩
  obtain ⟨d, path, ht⟩ := hclose
  obtain ⟨hrun, hnone, hidle⟩ := handedOver_fw s d path i (s.now - a)
  obtain ⟨b, hb⟩ := closeActivation_fw (s := s.handedOver d path i (s.now - a)) (by rw [handedOver_health, hheld]) 0x00 i.version false
  rw [ht, hb]
  exact ⟨hrun, hnone, hidle⟩

/-- An image that rolls back runs on (R389). -/
theorem rollback_resumes {s : State} (hon : s.on = true) (hupdate : s.fw.update = 4) (hheld : s.health.heldFault = []) :
    s.rollback.fw.run = s.fw.run ∧ s.rollback.fw.update = 5 ∧ s.rollback.fw.rolled = true := by
  have hmay : ¬ (s.fw.update != 4 || !s.on) = true := by simp [hupdate, hon]
  have hclose : ∃ (t : State) (v : Nat), s.rollback = t.closeActivation 0x55 v true ∧ t.health = s.health ∧
      t.fw.run = s.fw.run ∧ t.fw.update = 5 ∧ t.fw.rolled = true := by
    rw [State.rollback, if_neg hmay]
    exact ⟨_, _, rfl, rfl, rfl, rfl, rfl⟩
  obtain ⟨t, v, ht, hhealth, hrun, hfive, hrolled⟩ := hclose
  obtain ⟨b, hb⟩ := closeActivation_fw (s := t) (by rw [hhealth, hheld]) 0x55 v true
  rw [ht, hb]
  exact ⟨hrun, hfive, hrolled⟩

end Sys2Proof.Machine

/-! SUPPORT. Proofs about faults, the supply and the heat: what a fault, a sensing and the start of a reseat leave. -/

namespace Sys2Proof.Machine

@[simp] theorem State.sameInputs_setPower (s : State) (f : Power → Power) : s.sameInputs (s.setPower f) = s.setPower f := rfl
@[simp] theorem State.sameInputs_setPhys (s : State) (n : Nat) (f : Phys → Phys) : s.sameInputs (s.setPhys n f) = s.setPhys n f := rfl

/-- What every step of a run over a list keeps, the run keeps. -/
theorem foldl_keeps {α β : Type} (g : State → β) (f : State → α → State) (hf : ∀ t a, g (f t a) = g t) (l : List α) (s : State) :
    g (l.foldl f s) = g s :=
  List.foldlRecOn (motive := fun t => g t = g s) l f rfl (fun t ht a _ => (hf t a).trans ht)

/-! ## Faults and the start of a reseat (R416, R421, R427) -/

/-- Every suite is freed: the health and the supply stay as they are. -/
theorem freeSuites_keeps (l : List Nat) (s : State) :
    (l.foldl (fun (t : State) k => t.freeSuite k 0x03 0x62) s).health = s.health ∧
      (l.foldl (fun (t : State) k => t.freeSuite k 0x03 0x62) s).power = s.power :=
  ⟨foldl_keeps State.health _ (fun t k => (freeSuite_confined k t 0x03 0x62).health) l s,
    foldl_keeps State.power _ (fun t k => (freeSuite_confined k t 0x03 0x62).power) l s⟩

/-- The compute complex stops (R416, R427): notice 0x4004, every suite freed, the dies stopped and switched off. -/
def State.stopCompute (s : State) (now : Nat) : State :=
  ((List.range 32).foldl (fun (t : State) k => t.freeSuite k 0x03 0x62) (s.noticeAll 0x4004 (toLE 8 now))).loseCompute.diesOff

theorem loseCompute_diesOff_keeps (s : State) : s.loseCompute.diesOff.health = s.health ∧ s.loseCompute.diesOff.power = s.power :=
  ⟨rfl, rfl⟩

theorem stopCompute_keeps (s : State) (now : Nat) : (s.stopCompute now).health = s.health ∧ (s.stopCompute now).power = s.power := by
  have hnotice := noticeAll_confined 0 s 0x4004 (toLE 8 now)
  obtain ⟨hhealth, hpower⟩ := freeSuites_keeps (List.range 32) (s.noticeAll 0x4004 (toLE 8 now))
  rw [State.stopCompute, (loseCompute_diesOff_keeps _).1, (loseCompute_diesOff_keeps _).2, hhealth, hpower]
  exact ⟨hnotice.health, hnotice.power⟩

theorem cluster_diesOff (s : State) (x : Nat) : (s.diesOff.cluster x).powered = false := by
  simp only [State.cluster, State.diesOff, List.getD_eq_getElem?_getD, List.getElem?_map]
  cases s.clusters[x]? <;> rfl

theorem startReseat_eq (s : State) : s.startReseat = (s.stopCompute s.now).setHealth (fun h =>
    { h with phase := 5, reason := 0, reseatAt := some s.now, reseats := inc32 h.reseats, reseatMs := h.reseatMs }) := rfl

theorem startReseat_keeps (s : State) :
    s.startReseat.power = s.power ∧ s.startReseat.health.cause = s.health.cause ∧ s.startReseat.health.unit = s.health.unit := by
  obtain ⟨hhealth, hpower⟩ := stopCompute_keeps s s.now
  rw [startReseat_eq, State.setHealth_power, State.setHealth_health, hhealth]
  exact ⟨hpower, rfl, rfl⟩

/-- The end of a raised fault: it is held in a pause, joins a reseat that is under way, or starts one. -/
theorem raiseFault_cases {s : State} (cause unit frame : Nat) (hready : s.ready = true) (hhub : s.health.hubFault = false) :
    ∃ t, t.power = s.power ∧ t.health.cause = cause ∧ t.health.unit = unit ∧
      (s.raiseFault cause unit frame = t ∨ s.raiseFault cause unit frame = t.startReseat) := by
  have hmay : ¬ (!s.ready || s.health.hubFault) = true := by simp [hready, hhub]
  unfold State.raiseFault
  rw [if_neg hmay]
  dsimp only
  split
  · exact ⟨_, by simp, by simp, by simp, .inl rfl⟩
  · split
    · exact ⟨_, by simp, by simp, by simp, .inl rfl⟩
    · exact ⟨_, by simp, by simp, by simp, .inr rfl⟩

theorem raiseFault_names {s : State} (cause unit frame : Nat) (hready : s.ready = true) (hhub : s.health.hubFault = false) :
    (s.raiseFault cause unit frame).health.cause = cause ∧ (s.raiseFault cause unit frame).health.unit = unit := by
  obtain ⟨t, -, hcause, hunit, h | h⟩ := raiseFault_cases cause unit frame hready hhub
  · rw [h]
    exact ⟨hcause, hunit⟩
  · obtain ⟨-, hc, hu⟩ := startReseat_keeps t
    rw [h]
    exact ⟨hc.trans hcause, hu.trans hunit⟩

theorem raiseFault_power (s : State) (cause unit frame : Nat) : (s.raiseFault cause unit frame).power = s.power := by
  by_cases hmay : (!s.ready || s.health.hubFault) = true
  · rw [State.raiseFault, if_pos hmay]
  · have hgo : s.ready = true ∧ s.health.hubFault = false := by simpa using hmay
    obtain ⟨t, hpower, -, -, h | h⟩ := raiseFault_cases cause unit frame hgo.1 hgo.2
    · rw [h, hpower]
    · rw [h, (startReseat_keeps t).1, hpower]

theorem hubFaultNow_eq {s : State} (array word : Nat) (hon : s.on = true) (hhub : s.health.hubFault = false) :
    s.hubFaultNow array word =
      ((s.logE 0x0004 3 0xff 0xff 0 0 array word 0).stopCompute s.now).setHealth (fun h => { h with hubFault := true }) := by
  have hmay : ¬ (!s.on || s.health.hubFault) = true := by simp [hon, hhub]
  exact if_neg hmay

theorem hubFaultNow_stops {s : State} (array word : Nat) (hon : s.on = true) (hhub : s.health.hubFault = false) :
    (s.hubFaultNow array word).health.hubFault = true ∧ ∀ x, ((s.hubFaultNow array word).cluster x).powered = false := by
  rw [hubFaultNow_eq array word hon hhub, State.setHealth_health]
  refine ⟨rfl, fun x => ?_⟩
  rw [State.cluster, State.setHealth_clusters, State.stopCompute]
  exact cluster_diesOff _ x

/-! ## Power (R399, R400) -/

theorem limitActs_readings (s : State) (bit_ limit kind unit reading : Nat) :
    (s.limitActs bit_ limit kind unit reading).power = { s.power with seen := s.power.seen ||| 2 ^ bit_ } := by
  rw [State.limitActs, State.logE_power]
  rfl

/-- A sensing of the package power is kept, and its energy counted, whether or not the current limit starts or ends. -/
theorem senseStep_reads (s : State) (p : Nat) :
    (s.senseStep p).power.readings = (p :: s.power.readings).take 100 ∧ (s.senseStep p).power.energy = s.power.energy + p := by
  unfold State.senseStep
  refine iteInduction (motive := fun t : State => t.power.readings = _ ∧ t.power.energy = _) (fun _ => ?starts) (fun _ =>
    iteInduction (motive := fun t : State => t.power.readings = _ ∧ t.power.energy = _) (fun _ => ⟨rfl, rfl⟩) (fun _ => ⟨rfl, rfl⟩))
  case starts =>
    rw [limitActs_readings]
    exact ⟨rfl, rfl⟩

/-! ## Heat (R399, R401) -/

/-- The sensed temperatures of the dies are as before. -/
structure State.KeepsDies (s t : State) : Prop where
  die0 : t.power.die0 = s.power.die0
  die1 : t.power.die1 = s.power.die1
  hub : t.power.hub = s.power.hub

namespace State.KeepsDies
variable {s t u : State}

theorem trans (h : s.KeepsDies t) (g : t.KeepsDies u) : s.KeepsDies u :=
  ⟨g.die0.trans h.die0, g.die1.trans h.die1, g.hub.trans h.hub⟩

theorem when {c : Prop} [Decidable c] (h : s.KeepsDies t) : s.KeepsDies (if c then t else s) := by
  split
  · exact h
  · exact ⟨rfl, rfl, rfl⟩

end State.KeepsDies

theorem throttleStart_keepsDies (s : State) (d : Nat) (reading : Int) : s.KeepsDies (s.throttleStart d reading) := by
  unfold State.throttleStart
  constructor <;> rw [limitActs_readings] <;> rfl

theorem moveThrottle_keepsDies (s : State) (acts0 acts1 : Bool) :
    s.KeepsDies (s.setPower (fun w => { w with thr0 := acts0, thr1 := acts1 })).moveThrottle := ⟨rfl, rfl, rfl⟩

theorem tripNow_keepsDies (s : State) (d : Nat) (reading : Int) : s.KeepsDies (s.tripNow d reading) := by
  unfold State.tripNow
  constructor <;> rw [raiseFault_power, limitActs_readings] <;> rfl

/-- The readings of the dies and of the hub die, and the mark of a hub die above 105 °C. -/
def State.sensed (s : State) (r : Temps) : State :=
  s.setPower (fun w => { w with die0 := r.die0, die1 := r.die1, hub := r.hub, hubHot := decide (105 < r.hub),
                                seen := if 105 < r.hub ∧ !w.hubHot then w.seen ||| 16 else w.seen })

/-- A sensing starts throttles and trips, which leave what was read. -/
theorem thermalStep_keepsDies (s : State) (r : Temps) : (s.sensed r).KeepsDies (s.thermalStep r) := by
  unfold State.thermalStep
  refine .trans ?_ (.when (tripNow_keepsDies _ 1 r.die1))
  refine .trans ?_ (.when (tripNow_keepsDies _ 0 r.die0))
  refine .trans ?_ (moveThrottle_keepsDies _ _ _)
  refine .trans ?_ (.when (throttleStart_keepsDies _ 1 r.die1))
  refine .trans ?_ (.when (throttleStart_keepsDies _ 0 r.die0))
  exact ⟨rfl, rfl, rfl⟩

theorem thermalStep_reads (s : State) (r : Temps) : (s.thermalStep r).power.die0 = r.die0 ∧
    (s.thermalStep r).power.die1 = r.die1 ∧ (s.thermalStep r).power.hub = r.hub := by
  obtain ⟨h0, h1, hh⟩ := thermalStep_keepsDies s r
  exact ⟨h0, h1, hh⟩

theorem coolDown_reseating {s : State} {r : Temps} (htrip : s.power.trip = true) (h0 : r.die0 ≤ 95) (h1 : r.die1 ≤ 95)
    (hclusters : ∀ c ∈ r.clusters, c ≤ 95) (hreseating : s.reseating = true) :
    s.coolDown r = (s.setPower (fun w => { w with trip := false, die0 := r.die0, die1 := r.die1, hub := r.hub })).setHealth (fun h =>
      { h with reseatAt := some s.now }) := by
  have hcool : (s.power.trip && decide (r.die0 ≤ 95) && decide (r.die1 ≤ 95) && r.clusters.all (fun t => decide (t ≤ 95))) = true := by
    simpa [htrip, h0, h1] using hclusters
  exact (if_pos hcool).trans (if_pos hreseating)

end Sys2Proof.Machine

/-! SUPPORT. Proofs about bring-up: the tests and retirements leave the firmware as it is, a rescue image runs, a device gets ready. -/

namespace Sys2Proof.Machine

/-! ## Retirements leave the firmware (R297, R298, R409, R410, R418, R424) -/

theorem flashWrite_fw (s : State) (a : Nat) (b : List Byte) : (s.flashWrite a b).fw = s.fw := rfl

theorem placeCopies_fw (s : State) : s.placeCopies.fw = s.fw := rfl

theorem readStacks_fw (s : State) (r : TestResults) : (s.readStacks r).fw = s.fw := rfl

theorem setPhys_fw (s : State) (n : Nat) (f : Phys → Phys) : (s.setPhys n f).fw = s.fw := rfl

theorem appendRet_fw (s : State) (e : RetEntry) (copy : Nat) : (s.appendRet e copy).fw = s.fw := by
  simp only [State.appendRet, apply_ite State.fw, flashWrite_fw, ite_self]

theorem recordRet_fw (s : State) (kind unit index : Nat) : (s.recordRet kind unit index).fw = s.fw := by
  unfold State.recordRet
  dsimp only
  rw [appendRet_fw, appendRet_fw]

theorem logRet_fw (s : State) (kind unit index : Nat) : (s.logRet kind unit index).fw = s.fw := State.logE_fw _ _ _ _ _ _ _ _ _ _

theorem noticeUnit_fw (s : State) (kind unit logical spare : Nat) (pages : List Nat) :
    (s.noticeUnit kind unit logical spare pages).fw = s.fw := by
  have hsend : ∀ (t : State) (f : Nat) (ps : List Nat),
      ((unitBodies kind unit logical spare ps).foldl (fun t b => t.notice f 0x4003 0xffffffff b) t).fw = t.fw := fun t f ps =>
    foldl_keeps State.fw _ (fun t _ => State.notice_fw t _ _ _ _) _ t
  exact (foldl_keeps State.fw _ (fun t _ => hsend t _ _) _ _).trans (hsend s 0 pages)

/-- A retirement is recorded, its notices go out and the log names it. -/
theorem retired_fw (s : State) (kind unit index logical spare : Nat) (pages : List Nat) :
    (((s.recordRet kind unit index).noticeUnit kind unit logical spare pages).logRet kind unit index).fw = s.fw := by
  rw [logRet_fw, noticeUnit_fw, recordRet_fw]

theorem loseEntries_fw (s : State) (pages : List Nat) (lost : Nat) : (s.loseEntries pages lost).fw = s.fw :=
  foldl_keeps State.fw (fun t v => t.setEntry v (.lost lost)) (fun _ _ => rfl) pages s

theorem placeTable_fw (s : State) (t : Nat) : (s.placeTable t).fw = s.fw := by
  unfold State.placeTable
  dsimp only
  split
  · rfl
  · split
    · split <;> rfl
    · split
      · split
        · exact loseEntries_fw _ _ 3
        · rfl
      · rfl

theorem buildTable_fw (s : State) : s.buildTable.fw = s.fw := foldl_keeps State.fw _ placeTable_fw _ s

theorem retireChan_fw (s : State) (ch : Nat) : (s.retireChan ch).fw = s.fw := by
  unfold State.retireChan
  split
  · rfl
  · dsimp only
    rw [logRet_fw, noticeUnit_fw, placeCopies_fw, foldl_keeps State.fw _ placeTable_fw, loseEntries_fw, recordRet_fw, State.setChan_fw]

theorem retireD2d_fw (s : State) (l : Nat) : (s.retireD2d l).fw = s.fw := by
  unfold State.retireD2d
  split
  · rfl
  · exact retired_fw s 5 l 0 0xff 0 []

theorem retireLane_fw (s : State) (n : Nat) : (s.retireLane n).fw = s.fw := by
  unfold State.retireLane
  dsimp only
  split
  · rfl
  · rw [retired_fw, State.setFab_fw]

theorem loseDie_fw (s : State) (d : Nat) : (s.loseDie d).fw = s.fw := by
  unfold State.loseDie
  split
  · rfl
  · refine (noticeUnit_fw _ _ _ _ _ _).trans (foldl_keeps State.fw _ (fun t i => ?_) (List.range 4) _)
    exact State.setCluster_fw t _ _

theorem loseCluster_fw (s : State) (x : Nat) : (s.loseCluster x).fw = s.fw := by
  unfold State.loseCluster
  split
  · rfl
  · refine (noticeUnit_fw _ _ _ _ _ _).trans (foldl_keeps State.fw _ (fun t i => ?_) (List.range 5) _)
    dsimp only
    split
    · rfl
    · exact (logRet_fw _ _ _ _).trans (recordRet_fw _ _ _ _)

theorem retireCore_fw (s : State) (n : Nat) : (s.retireCore n).fw = s.fw := by
  unfold State.retireCore
  split
  · rfl
  · dsimp only
    split
    · rw [retired_fw, setPhys_fw]
    · rw [logRet_fw, noticeUnit_fw, State.setHealth_fw, recordRet_fw, setPhys_fw]

theorem bringupTests_fw (s : State) (r : TestResults) : (s.bringupTests r).fw = s.fw := by
  unfold State.bringupTests
  dsimp only
  rw [placeCopies_fw, readStacks_fw]
  dsimp only
  rw [foldl_keeps State.fw _ retireCore_fw, foldl_keeps State.fw _ loseCluster_fw, foldl_keeps State.fw _ loseDie_fw,
    foldl_keeps State.fw _ retireLane_fw, foldl_keeps State.fw _ retireD2d_fw, foldl_keeps State.fw _ retireChan_fw]

/-! ## Rescue (R370) -/

theorem State.sameInputs_fw (s t : State) : (s.sameInputs t).fw = t.fw := rfl

theorem State.sameInputs_fuses (s t : State) : (s.sameInputs t).fuses = t.fuses := rfl

theorem State.sameInputs_health (s t : State) : (s.sameInputs t).health = { t.health with powered := s.health.powered } := rfl

/-- The state of a device whose boot ROM has accepted a recovery image in the rescue area and runs it. -/
def State.rescued (s : State) (i : Image) (r : TestResults) : State :=
  (((s.setFw (fun f => { f with run := some i })).newAlias.bringupTests r).buildTable).setHealth (fun h => { h with phase := 1 })

theorem rescued_runs (s : State) (i : Image) (r : TestResults) :
    (s.rescued i r).fw.run = some i ∧ (s.rescued i r).health.phase = 1 := by
  rw [State.rescued, State.setHealth_fw, State.setHealth_health, buildTable_fw, bringupTests_fw]
  exact ⟨rfl, rfl⟩

theorem rescue_accepts {s : State} {p : Nat} {r₀ : TestResults} {i : Image} (hp : p < 64) (hon : s.on = true) (hrun : s.fw.run = none)
    (hpath : s.fw.bootPath = 3) (hreq : (s.pair p).reqV = true) (hdue : (s.pair p).due = none) :
    let r := parseReq p (s.pair p).req
    let n := fld r.body 0 4
    r.type = 0x0048 → r.crcOk = true → r.len = 4 → 512 ≤ n → n ≤ 0x800000 →
    acceptImage s.fuses 1 ((List.range n).map (fun i => s.hbmGet (frameKey s.rescueChan 0 * 4096 + i))) = some i →
    s.rescue p r₀ = ((s.rescued i r₀).take p).deliver p ((s.rescued i r₀).replyBytes r 0 []) := by
  intro r n htype hcrc hlen hlo hhi hi
  have hserved : ¬ (!s.inRescue || !(s.pair p).reqV || (s.pair p).due.isSome || r.type != 0x0048 || 64 ≤ p) = true := by
    simp [State.inRescue, hon, hrun, hpath, hreq, hdue, htype, hp]
  have hcheck : ¬ (!r.crcOk) = true := by simp [hcrc]
  have hbody : ¬ (r.len != 4) = true := by simp [hlen]
  have hrange : ¬ (n < 512 || 0x800000 < n) = true := by simp [hlo, hhi]
  unfold State.rescue
  dsimp only
  rw [if_neg hserved, if_neg hcheck, if_neg hbody, if_neg hrange, hi]
  rfl

theorem exec_rescue_accepts {s : State} {p : Nat} {r₀ : TestResults} {i : Image} (hp : p < 64) (hon : s.on = true)
    (hrun : s.fw.run = none) (hpath : s.fw.bootPath = 3) (hreq : (s.pair p).reqV = true) (hdue : (s.pair p).due = none) :
    let r := parseReq p (s.pair p).req
    let n := fld r.body 0 4
    r.type = 0x0048 → r.crcOk = true → r.len = 4 → 512 ≤ n → n ≤ 0x800000 →
    acceptImage s.fuses 1 ((List.range n).map (fun i => s.hbmGet (frameKey s.rescueChan 0 * 4096 + i))) = some i →
    ∃ t : State, exec (.rescue ⟨p, r₀⟩) s = .next t ∧ t.fw.run = some i ∧ t.health.phase = 1 := by
  intro r n htype hcrc hlen hlo hhi hi
  have hexec : exec (.rescue ⟨p, r₀⟩) s = .next (s.sameInputs (s.rescue p r₀)) := on_next s _ hon _ (decide_eq_true hp)
  obtain ⟨hruns, hphase⟩ := rescued_runs s i r₀
  have htake : (s.rescued i r₀).ConfinedTo 0 ((s.rescued i r₀).take p) := setPair_confined 0 _ p _
  have hanswer := htake.trans (deliver_confined 0 _ p ((s.rescued i r₀).replyBytes r 0 []))
  rw [rescue_accepts hp hon hrun hpath hreq hdue htype hcrc hlen hlo hhi hi] at hexec
  refine ⟨_, hexec, ?_, ?_⟩
  · rw [State.sameInputs_fw, hanswer.fw, hruns]
  · rw [State.sameInputs_health, hanswer.health, hphase]

/-! ## Power-good and ready (R406, R413 to R415) -/

/-- A part whose flash holds no image that the boot ROM accepts waits for a rescue, its time at 0. -/
theorem powerUp_waits {s : State} (mode e : Nat) (r : TestResults) (hoff : s.on = false) (hnone : (s.cold.markUnits).bootChoice.1 = none) :
    (s.powerUp mode r e).ts = TimeBase.reset ∧ (s.powerUp mode r e).fuses = s.fuses := by
  have hgo : ¬ s.on = true := ne_true_of_eq_false hoff
  unfold State.powerUp
  rw [if_neg hgo]
  dsimp only
  rw [hnone]
  exact iteInduction (motive := fun t : State => t.ts = TimeBase.reset ∧ t.fuses = s.fuses) (fun _ => ⟨rfl, rfl⟩) (fun _ => ⟨rfl, rfl⟩)

theorem exec_powerGood_waits {s : State} (mode e : Nat) (r : TestResults) (hoff : s.on = false)
    (hnone : (s.cold.markUnits).bootChoice.1 = none) :
    ∃ t : State, exec (.powerGood ⟨mode, e⟩ r) s = .next t ∧ t.on = true ∧ t.ts = TimeBase.reset ∧ t.fuses = s.fuses := by
  obtain ⟨hts, hfuses⟩ := powerUp_waits mode e r hoff hnone
  have hgo : ¬ s.on = true := ne_true_of_eq_false hoff
  refine ⟨_, congrArg Host.Outcome.next (if_neg hgo), rfl, ?_, ?_⟩
  · rw [State.sameInputs_ts, hts]
  · rw [State.sameInputs_fuses, hfuses]

theorem draw_health (s : State) : s.draw.2.health = s.health := rfl

/-- The self-hosted start fills memory and starts the host cores. -/
theorem selfStart_health (s : State) : s.selfStart.health = s.health := by
  unfold State.selfStart
  dsimp only
  rw [State.startHost, State.setFw_health, (devWrite_confined 0 _ _ _).health, draw_health, (devWrite_confined 0 _ _ _).health,
    State.setXlt_health]

theorem powerClusters_keeps (s : State) :
    s.powerClusters.chans = s.chans ∧ s.powerClusters.fw = s.fw ∧ s.powerClusters.health = s.health := ⟨rfl, rfl, rfl⟩

theorem presentChans_congr {s t : State} (h : t.chans = s.chans) : t.presentChans = s.presentChans := by
  have hpresent : t.present = s.present := funext fun p => by simp only [State.present, State.chan, h]
  rw [State.presentChans, State.presentChans, hpresent]

theorem recovery_congr {s t : State} (h : t.fw = s.fw) : t.recovery = s.recovery := by
  rw [State.recovery, h, State.recovery]

/-- How the firmware gives the cores their numbers `l` (R413). -/
def Health.numbered (h : Health) (l : List (Option Nat)) (usb : Nat) : Health := { h with cores := l, present := presentMask l, usbDepth := usb }

/-- The checks that close the start, on `t`, the state of `s` with its cores numbered and its clusters powered (R415). -/
def State.readyFrom (s t : State) (host : Bool) : State :=
  if t.presentChans.isEmpty then t.setHealth (fun h => { h with phase := 6, reason := 1 })
  else if t.health.present = 0 then t.setHealth (fun h => { h with phase := 6, reason := 2 })
  else if t.recovery then t.setHealth (fun h => { h with phase := 6, reason := 3 })
  else if !host && !(t.fw.attach = 0 && t.fw.linkUp) then s
  else
    let t := t.setHealth (fun h => { h with phase := 4, reason := 0, readyMs := min (s.now / 1000000) 0xffff })
    if t.fw.attach = 2 then t.selfStart else t

theorem becomeReady_eq (s : State) (host : Bool) :
    s.becomeReady host = if !s.fwOn || s.health.phase != 1 then s
      else s.readyFrom (s.setHealth (fun h => h.numbered s.fillAll (if host then 8 else 0))).powerClusters host := by
  rw [State.becomeReady]
  unfold State.readyFrom Health.numbered
  dsimp only

/-- With memory, a core and the main image the checks are met, and the device is ready. -/
theorem readyFrom_phase {s t : State} (hchans : t.presentChans ≠ []) (hcores : t.health.present ≠ 0) (hrecovery : t.recovery = false) :
    (s.readyFrom t true).health.phase = 4 ∧ (s.readyFrom t true).health.cores = t.health.cores := by
  have hmemory : ¬ t.presentChans.isEmpty = true := by simpa using hchans
  have hhost : ¬ (!true && !(decide (t.fw.attach = 0) && t.fw.linkUp)) = true := by simp
  unfold State.readyFrom
  rw [if_neg hmemory, if_neg hcores, if_neg (ne_true_of_eq_false hrecovery), if_neg hhost]
  dsimp only
  refine iteInduction (motive := fun u : State => u.health.phase = 4 ∧ u.health.cores = t.health.cores) (fun _ => ?_) (fun _ => ⟨rfl, rfl⟩)
  rw [selfStart_health]
  exact ⟨rfl, rfl⟩

/-- The state whose checks close the start, with the cores' numbers `l`. -/
theorem readyFrom_numbered {s : State} (l : List (Option Nat)) (usb : Nat) (hchans : s.presentChans ≠ []) (hcores : presentMask l ≠ 0)
    (hrecovery : s.recovery = false) :
    let t := s.readyFrom (s.setHealth (fun h => h.numbered l usb)).powerClusters true
    t.health.phase = 4 ∧ t.health.cores = l := by
  obtain ⟨hkchans, hkfw, hkhealth⟩ := powerClusters_keeps (s.setHealth (fun h => h.numbered l usb))
  rw [State.setHealth_chans] at hkchans
  rw [State.setHealth_fw] at hkfw
  rw [State.setHealth_health] at hkhealth
  have h := readyFrom_phase (s := s) (ne_of_eq_of_ne (presentChans_congr hkchans) hchans)
    (ne_of_eq_of_ne (congrArg Health.present hkhealth) hcores) ((recovery_congr hkfw).trans hrecovery)
  exact ⟨h.1, h.2.trans (congrArg Health.cores hkhealth)⟩

theorem becomeReady_ready {s : State} (hfw : s.fwOn = true) (hphase : s.health.phase = 1) (hchans : s.presentChans ≠ [])
    (hcores : presentMask s.fillAll ≠ 0) (hrecovery : s.recovery = false) :
    (s.becomeReady true).health.phase = 4 ∧ (s.becomeReady true).health.cores = s.fillAll := by
  have hmay : ¬ (!s.fwOn || s.health.phase != 1) = true := by simp [hfw, hphase]
  rw [becomeReady_eq, if_neg hmay]
  exact readyFrom_numbered s.fillAll _ hchans hcores hrecovery

end Sys2Proof.Machine

/-! SUPPORT. Proofs that the commands of the firmware, the supply, the heat and the faults complete, each with its own effect. -/

namespace Sys2Proof.Machine

/-! ## The messages of the firmware (R371 to R374, R381 to R386) -/

section
variable {s : State} {p : Nat} {r : Req}

theorem exec_identity_fits (h : s.accepts p 0x0040 r = true) (hin : s.inFn r.fn (fld r.body 0 8) (max 16384 s.certChain.length) = true)
    (hw : s.writable (fld r.body 0 8) s.certChain.length = true) :
    exec (.identity p) s = .next (s.sameInputs
      (((s.accepted r).hubWrite (fld r.body 0 8) s.certChain).answer r 0 (toLE 4 s.certChain.length))) := by
  have hact : actIdentity (s.accepted r) r =
      ((s.accepted r).hubWrite (fld r.body 0 8) s.certChain, some (0, toLE 4 s.certChain.length)) := by
    have hfits := actIdentity_fits (s := s.accepted r) (r := r)
    rw [certChain_accepted] at hfits
    exact hfits hin hw
  exact accepted_message_answer s p _ _ r _ _ _ h hact

theorem exec_stage_stands {b : List Byte} {i j : Image} (h : s.accepts p 0x0043 r = true) (hupdating : s.updating = false)
    (hb : s.messageImage r 512 0x1000000 = some b) (hi : acceptImage s.fuses 0 b = some i) (hrun : s.fw.run = some j)
    (hreads : readsHandoff i j = true) :
    ∃ t : State, exec (.stage p true) s = .next (s.sameInputs (t.answer r 0 [])) ∧
      t.fw = { s.fw with staged := some i, update := 2 } := by
  obtain ⟨t, hact, hfw⟩ := actStage_stands (s := s.accepted r) (r := r) hupdating
    ((messageImage_accepted s r _ _).trans hb) hi hrun hreads
  exact ⟨t, accepted_message_answer s p _ _ r _ _ _ h hact, hfw⟩

theorem exec_activate_begins (h : s.accepts p 0x0044 r = true) (hupdating : s.updating = false) (hstaged : s.fw.staged ≠ none)
    (hemergency : s.emergency = false) :
    ∃ t : State, exec (.activate p) s = .next t ∧ t.fw.update = 4 ∧ t.fw.pause = some s.now ∧ t.fw.handoff.isSome = true := by
  refine ⟨_, accepted_message_silent s p _ _ r _ h (actActivate_begins (s := s.accepted r) hupdating hstaged hemergency), ?_⟩
  rw [State.sameInputs_fw]
  exact beginActivation_fw ((s.accepted r).setFw (fun f => { f with actPair := some r.pair }))

theorem exec_activationRecheck_begins (hfw : s.fwOn = true) (hupdate : s.fw.update = 3) (hemergency : s.emergency = false) :
    ∃ t : State, exec .activationRecheck s = .next t ∧ t.fw.update = 4 ∧ t.fw.pause = some s.now := by
  obtain ⟨ms, hbegins⟩ := recheckActivation_begins hfw hupdate hemergency
  refine ⟨_, whenOn_next s _ (on_of_fwOn s hfw), ?_⟩
  rw [hbegins]
  obtain ⟨hfour, hpause, -⟩ := beginActivation_fw (s.setFw (fun f => { f with deferMs := ms }))
  exact ⟨hfour, hpause⟩

end

/-! ## The supply and the faults (R398, R402, R421, R423) -/

section
variable {s : State}

theorem exec_thermtrip_hot {c : Int} (hon : s.on = true) (hc : 125 ≤ c) :
    exec (.thermtrip c) s = .next (s.setPower (fun w => { w with thermPin := false, hub := c })) := by
  have hpin : s.thermPinNow c = s.setPower (fun w => { w with thermPin := false, hub := c }) := if_pos hc
  have hexec : exec (.thermtrip c) s = .next (s.sameInputs (s.thermPinNow c)) := whenOn_next s _ hon
  rw [hexec, hpin, State.sameInputs_setPower]

theorem powered_of_fitted {x : Nat} (hfit : clusterFitted s.fuses.grade x = true) (hpowered : (s.cluster x).powered = true) :
    (clusterFitted s.fuses.grade x && (s.cluster x).powered) = true := by rw [hfit, hpowered]; rfl

theorem exec_regulatorWindow_moves {x busy : Nat} (hon : s.on = true) (hx : x < 8) (hbusy : busy ≤ 1000)
    (hfit : clusterFitted s.fuses.grade x = true) (hpowered : (s.cluster x).powered = true) :
    exec (.regulatorWindow x busy) s = .next (s.setCluster x (fun c =>
      { c with point := approach 100 c.point c.target, target := s.newTarget x busy })) := by
  have hmoves : s.regWindow x busy = s.setCluster x (fun c =>
      { c with point := approach 100 c.point c.target, target := s.newTarget x busy }) := if_pos (powered_of_fitted hfit hpowered)
  have hexec : exec (.regulatorWindow x busy) s = .next (s.sameInputs (s.regWindow x busy)) := on_next s _ hon _ (by simp [hx, hbusy])
  rw [hexec, hmoves, State.sameInputs_setCluster]

theorem exec_regulatorFault_raises {x : Nat} (hon : s.on = true) (hx : x < 8) (hfit : clusterFitted s.fuses.grade x = true)
    (hpowered : (s.cluster x).powered = true) :
    exec (.regulatorFault x) s = .next (s.sameInputs (s.raiseFault 7 x 0)) :=
  (on_next s _ hon _ (decide_eq_true hx)).trans
    (congrArg (fun t => Host.Outcome.next (s.sameInputs t)) (if_pos (powered_of_fitted hfit hpowered)))

theorem exec_scrub_corrects {x : Nat} (hon : s.on = true) (hx : x < 40) (husable : s.usable x = true) :
    exec (.scrub (.coreStore x) false) s =
      .next (s.setPhys x (fun p => { p with corrected := min (p.corrected + 1) 0xffffffff })) := by
  have hcorrects : s.scrubWord (.coreStore x) false =
      s.setPhys x (fun p => { p with corrected := min (p.corrected + 1) 0xffffffff }) := by
    simp only [State.scrubWord, husable, Bool.not_true, Bool.false_eq_true, if_false]
    rfl
  have hexec : exec (.scrub (.coreStore x) false) s = .next (s.sameInputs (s.scrubWord (.coreStore x) false)) :=
    on_next s _ hon _ (decide_eq_true hx)
  rw [hexec, hcorrects, State.sameInputs_setPhys]

end

/-- Settles O59: the gate of each command answers its effect, and a rule about that effect says what it is. -/
theorem firmwareAndPowerCommandsComplete : Obligations.FirmwareAndPowerCommandsComplete := by
  unfold Obligations.FirmwareAndPowerCommandsComplete
  refine ⟨?heartbeat, ?negotiation, ?identity, ?attestation, ?status, ?stage, ?activate, ?recheck, ?takeover, ?rollback, ?revoke,
    ?advance, ?recoveryWrite, ?hostImage, ?rescue, ?notice, ?undefinedType, ?powerGood, ?powerGoodFall, ?ready, ?thermtrip,
    ?regulatorWindow, ?powerSense, ?thermalSense, ?tripCooldown, ?faults, ?scrub, ?hubFault⟩
  case heartbeat => exact fun s p r h => exec_heartbeat_accepted h
  case negotiation =>
    intro s p m r h hm
    exact ⟨_, exec_versionNegotiation_listed h hm⟩
  case identity => exact fun s p r h hin hw => exec_identity_fits h hin hw
  case attestation =>
    intro s p r h n hlo hhi hres hzero hin hw
    obtain ⟨sig, hlen, hact⟩ := actAttestation_signs (s := s.accepted r) hlo hhi hres hzero hin hw
    exact ⟨sig, hlen, accepted_message_answer s p _ _ r _ _ _ h hact⟩
  case status => exact fun s p r h => accepted_message_answer s p _ _ r _ _ _ h rfl
  case stage => exact fun s p r b i j h hupdating hb hi hrun hreads => exec_stage_stands h hupdating hb hi hrun hreads
  case activate => exact fun s p r h hupdating hstaged hemergency => exec_activate_begins h hupdating hstaged hemergency
  case recheck => exact fun s hfw hupdate hemergency => exec_activationRecheck_begins hfw hupdate hemergency
  case takeover =>
    intro s a i hon hupdate hpause hstaged hheld hreads
    exact ⟨_, whenOn_next s _ hon, takeover_runs hon hupdate hpause hstaged hheld hreads⟩
  case rollback =>
    intro s hon hupdate hheld
    exact ⟨_, whenOn_next s _ hon, rollback_resumes hon hupdate hheld⟩
  case revoke =>
    intro s p r h k hk hres himages hlast
    exact accepted_message_answer s p _ _ r _ _ _ h (actRevoke_stands (s := s.accepted r) hk hres himages hlast)
  case advance =>
    intro s p r h v hlo hhi hres hmin himages
    exact accepted_message_answer s p _ _ r _ _ _ h (actAdvance_stands (s := s.accepted r) hlo hhi hres hmin himages)
  case recoveryWrite =>
    intro s p r b i j h hupdating hb hi hrun hreads
    exact accepted_message_answer s p _ _ r _ _ _ h
      (actRecoveryWrite_stands (s := s.accepted r) hupdating ((messageImage_accepted s r _ _).trans hb) hi hrun hreads)
  case hostImage =>
    intro s p r b h hb
    exact accepted_message_answer s p _ _ r _ _ _ h
      (actHostImage_stands (s := s.accepted r) ((messageImage_accepted s r _ _).trans hb))
  case rescue => exact fun s p r₀ i hp hon hrun hpath hreq hdue => exec_rescue_accepts hp hon hrun hpath hreq hdue
  case notice => exact fun s f n rest hf hfw hupdate hnotices hfree hdue => exec_noticeDelivery_oldest hf hfw hupdate hnotices hfree hdue
  case undefinedType => exact fun s p st ex r hon hreq hv => exec_undefinedTypeRequest_refused hon hreq hv
  case powerGood => exact fun s mode e r hoff hnone => exec_powerGood_waits mode e r hoff hnone
  case powerGoodFall => exact fun s => ⟨_, rfl, rfl, rfl, rfl⟩
  case ready =>
    intro s hfw hphase hchans hcores hrecovery
    obtain ⟨hready, hfilled⟩ := becomeReady_ready hfw hphase hchans hcores hrecovery
    refine ⟨_, whenOn_next s _ (on_of_fwOn s hfw), ?_⟩
    rw [State.sameInputs_health]
    exact ⟨hready, hfilled⟩
  case thermtrip => exact fun s c hon hc => exec_thermtrip_hot hon hc
  case regulatorWindow => exact fun s x busy hon hx hbusy hfit hpowered => exec_regulatorWindow_moves hon hx hbusy hfit hpowered
  case powerSense =>
    intro s w hon
    exact ⟨_, whenOn_next s _ hon, senseStep_reads s w⟩
  case thermalSense =>
    intro s r hon
    exact ⟨_, whenOn_next s _ hon, thermalStep_reads s r⟩
  case tripCooldown =>
    intro s r hon htrip h0 h1 hclusters hreseating
    rw [← coolDown_reseating htrip h0 h1 hclusters hreseating]
    exact whenOn_next s _ hon
  case faults =>
    intro s x hon hready hhub
    refine ⟨fun hx => ?_, fun hx hfit hpowered => ?_⟩
    · exact ⟨_, on_next s _ hon _ (decide_eq_true hx), raiseFault_names 6 x 0 hready hhub⟩
    · exact ⟨_, exec_regulatorFault_raises hon hx hfit hpowered, raiseFault_names 7 x 0 hready hhub⟩
  case scrub => exact fun s x hon hx husable => exec_scrub_corrects hon hx husable
  case hubFault =>
    intro s a w hon hhub
    exact ⟨_, whenOn_next s _ hon, hubFaultNow_stops a w hon hhub⟩

end Sys2Proof.Machine

/-! SUPPORT. Proofs about the lanes and the bounds of supply points: a write of lane modes, the training of a lane, a loss of FEC lock,
and the bounds of a cluster's point. -/

namespace Sys2Proof.Machine

/-! ## A lane under its update -/

@[simp] theorem State.sameInputs_setFab (s : State) (f : Fab → Fab) : s.sameInputs (s.setFab f) = s.setFab f := rfl
@[simp] theorem State.sameInputs_setLane (s : State) (n : Nat) (f : Lane → Lane) : s.sameInputs (s.setLane n f) = s.setLane n f := rfl
@[simp] theorem State.now_setLane (s : State) (n : Nat) (f : Lane → Lane) : (s.setLane n f).now = s.now := rfl

theorem State.lane_setLane (s : State) (n : Nat) (f : Lane → Lane) (h : n < s.fab.lanes.length) :
    (s.setLane n f).lane n = f (s.lane n) := getD_lMod_same _ _ _ _ h

theorem State.lane_setLane_other (s : State) (n m : Nat) (f : Lane → Lane) (h : m ≠ n) : (s.setLane n f).lane m = s.lane m :=
  getD_lMod_other _ _ _ _ _ h

theorem State.setLane_setLane (s : State) (n : Nat) (f g : Lane → Lane) :
    (s.setLane n f).setLane n g = s.setLane n (fun l => g (f l)) := by
  simp only [State.setLane, State.setFab, lMod_lMod]

/-! ## A write of lane modes (R344, R363) -/

theorem bit_eq_false_of_lt {x j : Nat} (h : x < 2 ^ j) : bit x j = false := (bit_eq_testBit x j).trans (Nat.testBit_lt_two_pow h)

/-- A lane trains again from the start. -/
def Lane.restart (l : Lane) : Lane := { l with up := false, fails := 0, losses := [], depth := 0 }

/-- Of the listed lanes those train again whose number passes a test. -/
def State.restartLanes (s : State) (test : Nat → Bool) (l : List Nat) : State :=
  l.foldl (fun (u : State) n => if test n then u.setLane n Lane.restart else u) s

theorem restartLanes_frame (s : State) (test : Nat → Bool) (l : List Nat) :
    ∃ x, s.restartLanes test l = { s with fab := { s.fab with lanes := x } } ∧ x.length = s.fab.lanes.length := by
  refine List.foldlRecOn (motive := fun (t : State) =>
    ∃ x, t = { s with fab := { s.fab with lanes := x } } ∧ x.length = s.fab.lanes.length) _ _ ⟨s.fab.lanes, rfl, rfl⟩
    (fun t ht n _ => ?_)
  obtain ⟨x, rfl, hx⟩ := ht
  split
  · exact ⟨lMod x n Lane.restart, rfl, (length_lMod x n _).trans hx⟩
  · exact ⟨x, rfl, hx⟩

theorem lane_restartLanes (test : Nat → Bool) (l : List Nat) (hl : l.Nodup) (s : State) (n : Nat) (hn : n < s.fab.lanes.length) :
    (s.restartLanes test l).lane n = if n ∈ l ∧ test n = true then (s.lane n).restart else s.lane n := by
  induction l generalizing s with
  | nil => simp [State.restartLanes]
  | cons m l ih =>
    obtain ⟨hm, hnodup⟩ := List.nodup_cons.mp hl
    have hstep : (s.restartLanes test (m :: l)).lane n =
        if n ∈ l ∧ test n = true then ((s.restartLanes test [m]).lane n).restart else (s.restartLanes test [m]).lane n := by
      obtain ⟨x, hx, hlen⟩ := restartLanes_frame s test [m]
      exact ih hnodup (s.restartLanes test [m]) (by rw [hx]; exact hlen.symm ▸ hn)
    have hhead : (s.restartLanes test [m]).lane n = if n = m ∧ test n = true then (s.lane n).restart else s.lane n := by
      by_cases hnm : n = m
      · subst hnm
        cases htest : test n <;> simp [State.restartLanes, htest, State.lane_setLane s n _ hn]
      · cases htest : test m <;> simp [State.restartLanes, htest, hnm, State.lane_setLane_other s m n _ hnm]
    rw [hstep, hhead]
    by_cases hnm : n = m
    · subst hnm
      simp [hm]
    · simp [hnm]

section
variable {s : State} {v : Nat} (hv : v < 32)
include hv

theorem writeLaneMode_used {p : Nat} (hp : p < 2) (hchange : changesPair s.fab.mode v p = true) (hused : s.pairUsed p = true) :
    s.writeLaneMode v = s.setFab (fun f => { f with refused := true }) := by
  have hany : (List.range 2).any (fun p => changesPair s.fab.mode v p && s.pairUsed p) = true :=
    List.any_eq_true.mpr ⟨p, List.mem_range.mpr hp, by rw [hchange, hused]; rfl⟩
  have hbit : bit v 31 = false := bit_eq_false_of_lt (hv.trans (by decide))
  simp only [State.writeLaneMode, Nat.mod_eq_of_lt hv, hbit, hany, if_true, Bool.false_eq_true, if_false]

theorem writeLaneMode_unused (hfree : ∀ p, p < 2 → changesPair s.fab.mode v p = true → s.pairUsed p = false) :
    s.writeLaneMode v =
      (s.setFab (fun f => { f with mode := v })).restartLanes (fun n => changesPair s.fab.mode v (n / 2)) (List.range 4) := by
  have hnone : ¬ (List.range 2).any (fun p => changesPair s.fab.mode v p && s.pairUsed p) = true := by
    simp only [List.any_eq_true, List.mem_range, Bool.and_eq_true, not_exists, not_and]
    intro p hp hchange
    simp [hfree p hp hchange]
  have hbit : bit v 31 = false := bit_eq_false_of_lt (hv.trans (by decide))
  simp only [State.writeLaneMode, Nat.mod_eq_of_lt hv, hbit, if_neg hnone, Bool.false_eq_true, if_false]
  rfl

theorem exec_laneModeWrite_on (hon : s.on = true) : exec (.laneModeWrite 0 v) s = .next (s.sameInputs (s.writeLaneMode v)) := by
  rw [exec_laneModeWrite, Nat.mod_eq_of_lt (hv.trans (by decide : 32 < M32)), whenOn_next s _ hon]

end

/-! ## The training of a lane (R277, R410) -/

theorem exec_laneFarEndCheck {s : State} {n e : Nat} (hon : s.on = true) (hn : n < 4) :
    exec (.laneFarEndCheck n e) s = .next (s.sameInputs (s.farEnd n e)) := on_next s _ hon _ (decide_eq_true hn)

/-- A lane that trains: its pair has a mode, and it is there, not retired, not up and has attempts left. -/
theorem farEnd_trains {s : State} {n : Nat} (e : Nat) (hmode : pairMode s.fab.mode (n / 2) ≠ 0) (hpresent : (s.lane n).present = true)
    (hretired : (s.lane n).retired = false) (hup : (s.lane n).up = false) (hfails : (s.lane n).fails < 3) :
    s.farEnd n e =
      if e ≤ 1000 then s.setLane n (fun l => { l with up := true, fails := 0, depth := 6 })
      else if (s.lane n).fails + 1 = 3 then (s.setLane n (fun l => { l with fails := l.fails + 1 })).logE 0x0042 0 0xff 0xff 4 n e 0 0
      else s.setLane n (fun l => { l with fails := l.fails + 1 }) := by
  have htrains : ¬ (pairMode s.fab.mode (n / 2) = 0 || !(s.lane n).present || (s.lane n).retired || (s.lane n).up ||
      3 ≤ (s.lane n).fails) = true := by
    simp [hmode, hpresent, hretired, hup, hfails]
  exact if_neg htrains

/-! ## A loss of FEC lock (R363, R428) -/

theorem exec_fecLockLoss {s : State} {n c : Nat} (hon : s.on = true) (hn : n < 4) :
    exec (.fecLockLoss ⟨n, c⟩) s = .next (s.sameInputs (s.fecLoss n c)) := on_next s _ hon _ (decide_eq_true hn)

section
variable {s : State} {n : Nat} (c : Nat) (hup : (s.lane n).up = true)
include hup

theorem fecLoss_third {a b : Nat} (hlosses : (s.lane n).losses = [a, b]) (hnow : s.now ≤ a + 1000000000) :
    s.fecLoss n c =
      (s.setLane n (fun l => { l with up := false, losses := [], fails := 3, depth := 0, uncorr := min (l.uncorr + c) 0xffff })).logE
        0x0042 0 0xff 0xff 4 n 0 0 0 := by
  simp [State.fecLoss, hup, hlosses, hnow, State.setLane_setLane]

theorem fecLoss_earlier (hlosses : (s.lane n).losses.length < 2) :
    s.fecLoss n c = s.setLane n (fun l =>
      { l with up := false, losses := (s.lane n).losses ++ [s.now], fails := 0, depth := 0, uncorr := min (l.uncorr + c) 0xffff }) := by
  match hl : (s.lane n).losses, hlosses with
  | [], _ => simp [State.fecLoss, hup, hl, State.setLane_setLane]
  | [a], _ => simp [State.fecLoss, hup, hl, State.setLane_setLane]

end

/-! ## The bounds of a supply point (R405) -/

theorem boundOf_range (n : Nat) : 600 ≤ boundOf n ∧ boundOf n ≤ 850 ∧ boundOf n % 10 = 0 := by
  simp only [boundOf, floor10]
  omega

theorem boundOf_mono {m n : Nat} (h : floor10 m ≤ floor10 n) : boundOf m ≤ boundOf n := by
  simp only [boundOf]
  omega

theorem writeBounds_ordered {s : State} {x v : Nat} (h : floor10 (bits v 9 0) ≤ floor10 (bits v 25 16)) :
    s.writeBounds 0 x v = s.setCluster x (fun c => { c with floor := boundOf (bits v 9 0), ceil := boundOf (bits v 25 16) }) :=
  if_pos (by simpa using h)

theorem writeBounds_crossed {s : State} {x v : Nat} (h : floor10 (bits v 25 16) < floor10 (bits v 9 0)) : s.writeBounds 0 x v = s :=
  if_neg (by simpa using h)

/-! ## Lane modes, lanes and bounds -/

/-- Settles O39: a write of lane modes is refused for a used pair or restarts the lanes that it changes, a lane trains and is lost as its
attempts and losses count, and the bounds are stored as they are rounded and clamped. -/
theorem lanesAndBounds : Obligations.LanesAndBounds := by
  refine ⟨?mode, ?virtualMode, ?training, ?loss, ?bounds, ?virtualBounds⟩
  case mode =>
    intro s v hon hv
    rw [exec_laneModeWrite_on hv hon]
    refine ⟨fun ⟨p, hp, hchange, hused⟩ => ?_, fun hfree => ?_⟩
    · rw [writeLaneMode_used hv hp hchange hused, State.sameInputs_setFab]
    · rw [writeLaneMode_unused hv hfree]
      obtain ⟨x, hx, -⟩ := restartLanes_frame (s.setFab (fun f => { f with mode := v })) (fun n => changesPair s.fab.mode v (n / 2))
        (List.range 4)
      have hlane := lane_restartLanes (fun n => changesPair s.fab.mode v (n / 2)) (List.range 4) List.nodup_range
        (s.setFab (fun f => { f with mode := v }))
      rw [hx] at hlane ⊢
      refine ⟨_, rfl, rfl, fun n hn hlen => ⟨fun hchange => ?_, fun hkeep => ?_⟩⟩
      · have hrestarted := (hlane n hlen).trans (if_pos ⟨List.mem_range.mpr hn, hchange⟩)
        exact ⟨congrArg Lane.up hrestarted, congrArg Lane.depth hrestarted⟩
      · exact (hlane n hlen).trans (if_neg fun h => ne_true_of_eq_false hkeep h.2)
  case virtualMode =>
    intro s f v hf hf0
    have hself : exec (.laneModeWrite f v) s = onUnit (decide (f < 17)) s s := congrArg (onUnit _ s) (if_neg hf0)
    rw [hself, self_next s _ (decide_eq_true hf)]
  case training =>
    intro s n e hon hn hmode hpresent hretired hup hfails
    rw [exec_laneFarEndCheck hon hn, farEnd_trains e hmode hpresent hretired hup hfails]
    refine ⟨fun he => ?_, fun he hfew => ?_, fun he htwo => ?_⟩
    · rw [if_pos he, State.sameInputs_setLane]
    · rw [if_neg (not_le.mpr he), if_neg (by omega), State.sameInputs_setLane]
    · rw [if_neg (not_le.mpr he), if_pos (by omega)]
  case loss =>
    intro s n c hon hn hup
    rw [exec_fecLockLoss hon hn]
    refine ⟨fun a b hlosses hnow => ?_, fun hlosses => ?_⟩
    · rw [fecLoss_third c hup hlosses hnow]
    · rw [fecLoss_earlier c hup hlosses, State.sameInputs_setLane]
  case bounds =>
    intro s x v hon hx
    rw [exec_clBoundsWrite s x v hx, whenOn_next s _ hon]
    refine ⟨fun hordered => ?_, fun hcrossed => ?_⟩
    · obtain ⟨hlo, -, hloStep⟩ := boundOf_range (bits v 9 0)
      obtain ⟨-, hhi, hhiStep⟩ := boundOf_range (bits v 25 16)
      rw [writeBounds_ordered hordered, State.sameInputs_setCluster]
      exact ⟨_, _, rfl, hlo, boundOf_mono hordered, hhi, hloStep, hhiStep, boundOf_inside _, boundOf_inside _⟩
    · rw [writeBounds_crossed hcrossed, State.sameInputs_self]
  case virtualBounds =>
    intro s f x v hf hx hf0
    have hself : exec (.clBoundsWrite f x v) s = onUnit (decide (f < 17) && decide (x < 8)) s s :=
      congrArg (onUnit _ s) (writeBounds_virtual s f x v hf0)
    rw [hself, self_next s _ (by simp [hf, hx])]

end Sys2Proof.Machine

/-! SUPPORT. Proofs about cameras: the setup, the parameters and the stop of contexts, and lock groups with their triggers. -/

namespace Sys2Proof.Machine

/-! ## Maps and rings -/

theorem aGet_map_if (m : AMap α) (test : α → Prop) [DecidablePred test] (f : α → α) (k : Nat) :
    aGet (m.map (fun e => if test e.2 then (e.1, f e.2) else e)) k = (aGet m k).map (fun x => if test x then f x else x) := by
  induction m with
  | nil => rfl
  | cons e t ih =>
    obtain ⟨a, v⟩ := e
    by_cases htest : test v <;> by_cases hk : a = k <;> simp [aGet, htest, hk, ih]

theorem ring_markRings (on : Bool) (l : List Nat) (s : State) (m : Nat) :
    (l.foldl (fun (t : State) n => t.setRing n (fun r => { r with media := on })) s).ring? m =
      if m ∈ l then (s.ring? m).map (fun g => { g with media := on }) else s.ring? m := by
  induction l generalizing s with
  | nil => simp
  | cons n l ih =>
    rw [List.foldl_cons, ih, State.ring_setRing]
    by_cases hn : m = n <;> by_cases hl : m ∈ l <;> simp [hn, hl, Function.comp_def]

/-- The rings of a media unit that exist are marked. -/
theorem ring_mediaRings {s : State} {l : List (Option Nat)} {m : Nat} {g : Ring} (on : Bool) (hm : some m ∈ l)
    (hg : s.ring? m = some g) : (s.mediaRings l on).ring? m = some { g with media := on } := by
  have hnamed : m ∈ l.filterMap id := List.mem_filterMap.mpr ⟨some m, hm, rfl⟩
  rw [State.mediaRings, ring_markRings, if_pos hnamed, hg, Option.map_some]

theorem mediaRings_media (s : State) (l : List (Option Nat)) (on : Bool) : (s.mediaRings l on).media = s.media :=
  foldl_keeps State.media (fun (t : State) n => t.setRing n (fun r => { r with media := on })) (fun _ _ => rfl) _ s

/-! ## Retirements leave the cameras and the rings (R418, R426) -/

/-- What cameras and codecs hold, with the rings. -/
def State.mediaAndRings (s : State) : Media × AMap Ring := (s.media, s.rings)

theorem mediaAndRings_inj {s t : State} (h : t.mediaAndRings = s.mediaAndRings) : t.media = s.media ∧ t.rings = s.rings :=
  Prod.mk.inj h

theorem appendRet_mediaAndRings (s : State) (e : RetEntry) (copy : Nat) : (s.appendRet e copy).mediaAndRings = s.mediaAndRings := by
  have hwrite : ∀ (t : State) (a : Nat) (b : List Byte), (t.flashWrite a b).mediaAndRings = t.mediaAndRings := fun _ _ _ => rfl
  simp only [State.appendRet, apply_ite State.mediaAndRings, hwrite, ite_self]

theorem recordRet_mediaAndRings (s : State) (kind unit index : Nat) :
    (s.recordRet kind unit index).mediaAndRings = s.mediaAndRings := by
  have hrecord : ∀ (t : State) (l : List RetEntry), ({ t with record := l } : State).mediaAndRings = t.mediaAndRings := fun _ _ => rfl
  unfold State.recordRet
  dsimp only
  rw [hrecord, appendRet_mediaAndRings, appendRet_mediaAndRings]

theorem notice_mediaAndRings (s : State) (f type suite : Nat) (body : List Byte) :
    (s.notice f type suite body).mediaAndRings = s.mediaAndRings := by
  simp [State.mediaAndRings]

theorem noticeUnit_mediaAndRings (s : State) (kind unit logical spare : Nat) (pages : List Nat) :
    (s.noticeUnit kind unit logical spare pages).mediaAndRings = s.mediaAndRings := by
  have hsend : ∀ (t : State) (f : Nat) (ps : List Nat),
      ((unitBodies kind unit logical spare ps).foldl (fun t b => t.notice f 0x4003 0xffffffff b) t).mediaAndRings =
        t.mediaAndRings := fun t f ps =>
    foldl_keeps State.mediaAndRings _ (fun t _ => notice_mediaAndRings t _ _ _ _) _ t
  exact (foldl_keeps State.mediaAndRings _ (fun t _ => hsend t _ _) _ _).trans (hsend s 0 pages)

theorem retireMedia_mediaAndRings (s : State) (kind unit : Nat) : (s.retireMedia kind unit).mediaAndRings = s.mediaAndRings := by
  have hlog : ∀ t : State, (t.logRet kind unit 0).mediaAndRings = t.mediaAndRings := fun t => by
    simp [State.mediaAndRings, State.logRet]
  rw [State.retireMedia, hlog, noticeUnit_mediaAndRings, recordRet_mediaAndRings]

theorem retireMedia_media (s : State) (kind unit : Nat) : (s.retireMedia kind unit).media = s.media :=
  (mediaAndRings_inj (retireMedia_mediaAndRings s kind unit)).1

theorem retireMedia_rings (s : State) (kind unit : Nat) : (s.retireMedia kind unit).rings = s.rings :=
  (mediaAndRings_inj (retireMedia_mediaAndRings s kind unit)).2

/-! ## Ports (R277, R305) -/

/-- A context whose port is retired stops for good (R331). -/
def Ctx.portLost (c : Ctx) : Ctx := { c with st := 4, frame := none, window := none }

theorem ctx_retirePort (s : State) (p m : Nat) :
    (s.retirePort p).ctx? m = (s.ctx? m).map (fun c => if c.port = p then c.portLost else c) := by
  rw [State.ctx?, State.retirePort, retireMedia_media]
  exact aGet_map_if s.media.ctxs (fun c => c.port = p) Ctx.portLost m

theorem port_retirePort (s : State) (p : Nat) (hp : p < s.media.ports.length) :
    (s.retirePort p).port p = { s.port p with locked := false, retired := true, depth := 0 } := by
  rw [State.port, State.retirePort, retireMedia_media]
  exact getD_lMod_same _ _ _ _ hp

theorem ring_retirePort (s : State) (p m : Nat) : (s.retirePort p).ring? m = s.ring? m := by
  rw [State.ring?, State.retirePort, retireMedia_rings]
  rfl

theorem enablePort_enabled {s : State} {p : Nat} (lock : Bool) (h : (s.port p).enabled = true) : s.enablePort p lock = s := if_pos h

/-- A port at its first context: what it draws, and how deep its crossings stand where its lanes lock. -/
def State.portDrawn (s : State) (p : Nat) (lock : Bool) : State :=
  s.draw.2.setPort p (fun q => { q with
    enabled := true, locked := lock, lanes := Config.portLanes s.draw.1 % 3, rate := Config.portRate s.draw.1 % 8192,
    deskew := decide (1500 < Config.portRate s.draw.1 % 8192), depth := if lock then 4 else 0 })

theorem enablePort_fresh {s : State} {p : Nat} (lock : Bool) (h : (s.port p).enabled = false) :
    s.enablePort p lock = if lock then s.portDrawn p lock else (s.portDrawn p lock).retirePort p := if_neg (ne_true_of_eq_false h)

/-- The port has its lanes locked or had been enabled before, and so it stands. -/
theorem ctx_enablePort_locks {s : State} {p : Nat} {lock : Bool} (h : lock = true ∨ (s.port p).enabled = true) (m : Nat) :
    (s.enablePort p lock).ctx? m = s.ctx? m := by
  cases henabled : (s.port p).enabled with
  | true => rw [enablePort_enabled lock henabled]
  | false =>
    have hlock : lock = true := h.resolve_right (ne_true_of_eq_false henabled)
    rw [enablePort_fresh lock henabled, if_pos hlock]
    rfl

/-- Lanes that fail to lock cost the port, and a context on it stops for good. -/
theorem ctx_enablePort_fails {s : State} {p : Nat} {lock : Bool} (h : ¬ (lock = true ∨ (s.port p).enabled = true)) {m : Nat} {c : Ctx}
    (hc : s.ctx? m = some c) (hport : c.port = p) : (s.enablePort p lock).ctx? m = some c.portLost := by
  obtain ⟨hlock, henabled⟩ := not_or.mp h
  have hdrawn : (s.portDrawn p lock).ctx? m = some c := hc
  rw [enablePort_fresh lock (eq_false_of_ne_true henabled), if_neg hlock, ctx_retirePort, hdrawn, Option.map_some, if_pos hport]

theorem ring_enablePort (s : State) (p m : Nat) (lock : Bool) : (s.enablePort p lock).ring? m = s.ring? m := by
  cases henabled : (s.port p).enabled with
  | true => rw [enablePort_enabled lock henabled]
  | false =>
    rw [enablePort_fresh lock henabled]
    split
    · rfl
    · exact ring_retirePort _ p m

theorem port_enablePort {s : State} {p : Nat} (lock : Bool) (hp : p < s.media.ports.length) (h : (s.port p).enabled = false) :
    ((s.enablePort p lock).port p).enabled = true ∧ ((s.enablePort p lock).port p).locked = lock ∧
      ((s.enablePort p lock).port p).retired = (!lock || (s.port p).retired) ∧
      ((s.enablePort p lock).port p).depth = if lock = true then 4 else 0 := by
  have hdrawn : (s.portDrawn p lock).port p = { s.port p with
      enabled := true, locked := lock, lanes := Config.portLanes s.draw.1 % 3, rate := Config.portRate s.draw.1 % 8192,
      deskew := decide (1500 < Config.portRate s.draw.1 % 8192), depth := if lock then 4 else 0 } := getD_lMod_same _ _ _ _ hp
  have hlength : p < (s.portDrawn p lock).media.ports.length := lt_of_lt_of_eq hp (length_lMod _ _ _).symm
  rw [enablePort_fresh lock h]
  cases lock with
  | true =>
    rw [if_pos rfl, hdrawn]
    exact ⟨rfl, rfl, rfl, rfl⟩
  | false =>
    rw [if_neg Bool.false_ne_true, port_retirePort _ p hlength, hdrawn]
    exact ⟨rfl, rfl, rfl, rfl⟩

/-! ## The slot of a context (R307, R426) -/

theorem takeSlot_frame (pipe : Nat) (bad l : List Nat) (s : State) : ∃ x,
    (s.takeSlot pipe bad l).1.media = { s.media with badSlots := x } ∧ (s.takeSlot pipe bad l).1.rings = s.rings := by
  induction l generalizing s with
  | nil => exact ⟨s.media.badSlots, rfl, rfl⟩
  | cons k l ih =>
    unfold State.takeSlot
    split
    · obtain ⟨x, hmedia, hrings⟩ := ih
        ((s.setMedia (fun m => { m with badSlots := m.badSlots ++ [32 * pipe + k] })).retireMedia 7 (32 * pipe + k))
      rw [retireMedia_media] at hmedia
      rw [retireMedia_rings] at hrings
      exact ⟨x, hmedia, hrings⟩
    · exact ⟨s.media.badSlots, rfl, rfl⟩

/-- The slot is the lowest one that passes its march test. -/
theorem takeSlot_slot (pipe : Nat) (bad l : List Nat) (s : State) :
    (s.takeSlot pipe bad l).2 = l.find? (fun k => !bad.contains k) := by
  induction l generalizing s with
  | nil => rfl
  | cons k l ih =>
    rw [State.takeSlot, List.find?_cons]
    cases bad.contains k with
    | true => exact ih _
    | false => rfl

/-! ## The setup of a context (R305, R307) -/

theorem ctxStatus_taken {s : State} (f : Nat) {b : List Byte} (h : (s.ctx? (byteAt b 0)).isSome = true) : s.ctxStatus f b = 0x30 :=
  if_pos (by simp [h])

theorem ctxStatus_retired_port {s : State} (f : Nat) {b : List Byte} (hn : byteAt b 0 < s.ctxCount) (hfree : s.ctx? (byteAt b 0) = none)
    (hport : (s.port (byteAt b 1)).retired = true) : s.ctxStatus f b = 0x31 := by
  have hnumber : ¬ (s.ctxCount ≤ byteAt b 0 || (s.ctx? (byteAt b 0)).isSome) = true := by simp [hn, hfree]
  exact (if_neg hnumber).trans (if_pos (by simp [ctxOf, hport]))

theorem touchBlock_frame (s : State) (f a : Nat) :
    ∃ c m d, s.touchBlock f a = { s with xlt := { s.xlt with cache := c, misses := m }, free := d } := by
  unfold State.touchBlock
  split
  · exact touchAll_frame s a 4096
  · exact ⟨s.xlt.cache, s.xlt.misses, s.free, rfl⟩

theorem touchBlock_devRead (s : State) (f a b n : Nat) : (s.touchBlock f a).devRead b n = s.devRead b n := by
  obtain ⟨c, m, d, h⟩ := touchBlock_frame s f a
  rw [h]
  rfl

theorem touchBlock_media (s : State) (f a : Nat) : (s.touchBlock f a).media = s.media := by
  obtain ⟨c, m, d, h⟩ := touchBlock_frame s f a
  rw [h]

theorem touchBlock_rings (s : State) (f a : Nat) : (s.touchBlock f a).rings = s.rings := by
  obtain ⟨c, m, d, h⟩ := touchBlock_frame s f a
  rw [h]

theorem freeSlots_congr {s t : State} (h : t.media = s.media) (pipe : Nat) : t.freeSlots pipe = s.freeSlots pipe := by
  simp only [State.freeSlots, State.pipeCtxs, h]

/-- The context that a setup asks for. -/
def State.askedCtx (s : State) (r : Req) : Ctx := ctxOf r.fn r.body (s.devRead (fld r.body 24 8) 4096)

/-- The context that a setup makes: on the lowest free slot that passes its march test, or in state 4 with none. -/
def State.madeCtx (s : State) (r : Req) (bad : List Nat) : Ctx :=
  match (s.freeSlots (byteAt r.body 12)).find? (fun k => !bad.contains k) with
  | some k => { s.askedCtx r with slot := k }
  | none => { s.askedCtx r with st := 4 }

theorem madeCtx_slot {s : State} {r : Req} {bad : List Nat} {k : Nat} {l : List Nat} (hfree : s.freeSlots (byteAt r.body 12) = k :: l)
    (hgood : bad.contains k = false) : s.madeCtx r bad = { s.askedCtx r with slot := k } := by
  simp only [State.madeCtx, hfree, List.find?_cons, hgood, Bool.not_false]

theorem madeCtx_none {s : State} {r : Req} {bad : List Nat} (h : ∀ k, k ∈ s.freeSlots (byteAt r.body 12) → bad.contains k = true) :
    s.madeCtx r bad = { s.askedCtx r with st := 4 } := by
  have hnone : (s.freeSlots (byteAt r.body 12)).find? (fun k => !bad.contains k) = none :=
    List.find?_eq_none.mpr (fun k hk => by rw [h k hk]; decide)
  simp only [State.madeCtx, hnone]

theorem madeCtx_port (s : State) (r : Req) (bad : List Nat) : (s.madeCtx r bad).port = byteAt r.body 1 := by
  unfold State.madeCtx
  split <;> rfl

/-- A context that a setup makes has no frame and no window to lose with its port. -/
theorem madeCtx_portLost (s : State) (r : Req) (bad : List Nat) : (s.madeCtx r bad).portLost = { s.madeCtx r bad with st := 4 } := by
  unfold State.madeCtx
  split <;> rfl

/-- The state with the context that a setup makes, before its port is enabled. -/
def State.withCtx (s : State) (r : Req) (bad : List Nat) : State :=
  ((((s.touchBlock r.fn (fld r.body 24 8)).takeSlot (byteAt r.body 12) bad (s.freeSlots (byteAt r.body 12))).1.mediaRings
    ((s.askedCtx r).stat :: (s.askedCtx r).taps) true)).setMedia (fun m => { m with ctxs := aSet m.ctxs (byteAt r.body 0) (s.madeCtx r bad) })

theorem withCtx_media (s : State) (r : Req) (bad : List Nat) : ∃ x, (s.withCtx r bad).media =
    { s.media with badSlots := x, ctxs := aSet s.media.ctxs (byteAt r.body 0) (s.madeCtx r bad) } := by
  obtain ⟨x, hmedia, -⟩ := takeSlot_frame (byteAt r.body 12) bad (s.freeSlots (byteAt r.body 12)) (s.touchBlock r.fn (fld r.body 24 8))
  refine ⟨x, ?_⟩
  rw [State.withCtx, State.setMedia_media, mediaRings_media, hmedia, touchBlock_media]

theorem ctx_withCtx (s : State) (r : Req) (bad : List Nat) : (s.withCtx r bad).ctx? (byteAt r.body 0) = some (s.madeCtx r bad) := by
  obtain ⟨x, hmedia⟩ := withCtx_media s r bad
  rw [State.ctx?, hmedia, aGet_aSet_same]

theorem ctx_withCtx_other (s : State) (r : Req) (bad : List Nat) {m : Nat} (h : m ≠ byteAt r.body 0) :
    (s.withCtx r bad).ctx? m = s.ctx? m := by
  obtain ⟨x, hmedia⟩ := withCtx_media s r bad
  rw [State.ctx?, hmedia, aGet_aSet_other _ _ _ _ h]
  rfl

theorem withCtx_ports (s : State) (r : Req) (bad : List Nat) : (s.withCtx r bad).media.ports = s.media.ports := by
  obtain ⟨x, hmedia⟩ := withCtx_media s r bad
  rw [hmedia]

theorem port_withCtx (s : State) (r : Req) (bad : List Nat) (p : Nat) : (s.withCtx r bad).port p = s.port p := by
  rw [State.port, withCtx_ports, State.port]

theorem ring_withCtx (s : State) (r : Req) (bad : List Nat) {m : Nat} {g : Ring} (hm : some m ∈ (s.askedCtx r).stat :: (s.askedCtx r).taps)
    (hg : s.ring? m = some g) : (s.withCtx r bad).ring? m = some { g with media := true } := by
  obtain ⟨-, -, hrings⟩ := takeSlot_frame (byteAt r.body 12) bad (s.freeSlots (byteAt r.body 12)) (s.touchBlock r.fn (fld r.body 24 8))
  refine ring_mediaRings true hm ?_
  rw [State.ring?, hrings, touchBlock_rings]
  exact hg

theorem actCtxSetup_refused {s : State} {r : Req} (lock : Bool) (bad : List Nat) (h : s.ctxStatus r.fn r.body ≠ 0) :
    actCtxSetup lock bad s r = (s, some (s.ctxStatus r.fn r.body, [])) := if_pos (bne_iff_ne.mpr h)

theorem actCtxSetup_stands {s : State} {r : Req} (lock : Bool) (bad : List Nat) (h : s.ctxStatus r.fn r.body = 0) :
    actCtxSetup lock bad s r = ((s.withCtx r bad).enablePort (byteAt r.body 1) lock, some (0, [])) := by
  have hstands : ¬ (s.ctxStatus r.fn r.body != 0) = true := by simp [h]
  have hpipe : ∀ f b params, (ctxOf f b params).pipe = byteAt b 12 := fun _ _ _ => rfl
  simp only [actCtxSetup, if_neg hstands, hpipe, takeSlot_slot, touchBlock_devRead, freeSlots_congr (touchBlock_media s _ _),
    State.withCtx, State.madeCtx]
  cases (s.freeSlots (byteAt r.body 12)).find? (fun k => !bad.contains k) with
  | some k => rfl
  | none => rfl

section
variable {s : State} {p : Nat} {r : Req} (lock : Bool) (bad : List Nat) (h : s.accepts p 0x0020 r = true)
include h

theorem exec_contextSetup_refused (hst : s.ctxStatus r.fn r.body ≠ 0) : exec (.contextSetup p ⟨lock, bad⟩) s =
    .next (s.sameInputs ((s.accepted r).answer r (s.ctxStatus r.fn r.body) [])) :=
  accepted_message_answer s p _ _ r _ _ _ h (actCtxSetup_refused (s := s.accepted r) lock bad hst)

theorem exec_contextSetup_stands (hst : s.ctxStatus r.fn r.body = 0) : exec (.contextSetup p ⟨lock, bad⟩) s =
    .next (s.sameInputs ((((s.accepted r).withCtx r bad).enablePort (byteAt r.body 1) lock).answer r 0 [])) :=
  accepted_message_answer s p _ _ r _ _ _ h (actCtxSetup_stands (s := s.accepted r) lock bad hst)

end

/-! ## The parameters of a context (R308) -/

/-- A parameter message names a context of its sender and a block in range. -/
def State.ParamGood (s : State) (r : Req) (c : Ctx) : Prop :=
  c.owner = r.fn ∧ allZero ((r.body.drop 1).take 7) = true ∧ fld r.body 8 8 % 4096 = 0 ∧ s.fnReads r.fn (fld r.body 8 8) 4096 = true ∧
    paramOk c.width c.height (s.devRead (fld r.body 8 8) 4096) = true

/-- The slots of the context's rings hold what the taps of the block need. -/
def State.ParamFits (s : State) (r : Req) (c : Ctx) : Prop :=
  ∀ i, i < 3 → ∀ m, c.taps.getD i none = some m →
    ∃ g, s.ring? m = some g ∧ tapNeed (s.devRead (fld r.body 8 8) 4096) i ≤ 2 ^ g.slotLog

/-- The firmware's first check of a parameter message fails. -/
def State.paramRefused (s : State) (r : Req) (c : Ctx) : Bool :=
  c.owner != r.fn || !allZero ((r.body.drop 1).take 7) || fld r.body 8 8 % 4096 != 0 || !s.fnReads r.fn (fld r.body 8 8) 4096 ||
    !paramOk c.width c.height (s.devRead (fld r.body 8 8) 4096)

theorem paramRefused_iff (s : State) (r : Req) (c : Ctx) : s.paramRefused r c = true ↔ ¬ s.ParamGood r c := by
  simp only [State.paramRefused, State.ParamGood, Bool.or_eq_true, bne_iff_ne, Bool.not_eq_true', ← Bool.not_eq_true, ne_eq, not_and_or,
    or_assoc]

/-- The firmware's second check, of the slots, passes. -/
def State.paramSlots (s : State) (r : Req) (c : Ctx) : Bool :=
  (List.range 3).all (fun i => (c.taps.getD i none).all (fun n =>
    (s.ring? n).any (fun g => decide (tapNeed (s.devRead (fld r.body 8 8) 4096) i ≤ 2 ^ g.slotLog))))

theorem paramSlots_iff (s : State) (r : Req) (c : Ctx) : s.paramSlots r c = true ↔ s.ParamFits r c := by
  simp only [State.paramSlots, State.ParamFits, List.all_eq_true, List.mem_range, Option.all_eq_true, Option.any_eq_true, decide_eq_true_eq]

section
variable {s : State} {r : Req}

theorem actCtxParam_none (hc : s.ctx? (byteAt r.body 0) = none) : actCtxParam s r = (s, some (0x34, [])) := by
  simp only [actCtxParam, hc]

variable {c : Ctx} (hc : s.ctx? (byteAt r.body 0) = some c)
include hc

theorem actCtxParam_refused (hbad : ¬ s.ParamGood r c) : actCtxParam s r = (s, some (0x34, [])) := by
  simp only [actCtxParam, hc]
  exact if_pos ((paramRefused_iff s r c).mpr hbad)

/-- With a good block the message turns on the sizes of the slots alone. -/
theorem actCtxParam_good (hgood : s.ParamGood r c) : actCtxParam s r =
    if !s.paramSlots r c then (s, some (0x33, []))
    else ((s.touchBlock r.fn (fld r.body 8 8)).setCtx (byteAt r.body 0)
      (fun c => { c with pend := some (s.devRead (fld r.body 8 8) 4096) }), some (0, [])) := by
  simp only [actCtxParam, hc]
  refine (if_neg (fun h => (paramRefused_iff s r c).mp h hgood)).trans ?_
  unfold State.paramSlots
  -- What is left is one check of each tap, written with `match` in the model and with `all` and `any` in `paramSlots`.
  congr 4
  funext i
  cases c.taps.getD i none with
  | none => rfl
  | some n => cases hring : s.ring? n <;> simp [hring]

theorem actCtxParam_small (hgood : s.ParamGood r c) (hsmall : ¬ s.ParamFits r c) : actCtxParam s r = (s, some (0x33, [])) := by
  have hslots : (!s.paramSlots r c) = true := by
    rw [Bool.not_eq_true', ← Bool.not_eq_true, paramSlots_iff]
    exact hsmall
  rw [actCtxParam_good hc hgood, if_pos hslots]

theorem actCtxParam_stands (hgood : s.ParamGood r c) (hfits : s.ParamFits r c) : actCtxParam s r =
    ((s.touchBlock r.fn (fld r.body 8 8)).setCtx (byteAt r.body 0)
      (fun c => { c with pend := some (s.devRead (fld r.body 8 8) 4096) }), some (0, [])) := by
  have hslots : ¬ (!s.paramSlots r c) = true := by
    rw [Bool.not_eq_true', Bool.not_eq_false, paramSlots_iff]
    exact hfits
  rw [actCtxParam_good hc hgood, if_neg hslots]

end

/-! ## Stops (R307, R382) -/

/-- A stop of a kind that R382 lists is served as any message of its type. -/
theorem stopMessage_accepted {s : State} {p kind : Nat} {r : Req} (act : Act) (h : s.accepts p 0x0022 r = true)
    (hkind : byteAt r.body 1 = kind) (hlisted : kind ≤ 3) : onUnit (p < 64) s (stopMessage p kind act s) = message p 0x0022 act s := by
  obtain ⟨-, hreq, htype, -⟩ := accepts_elim s p _ r h
  simp only [message, State.serve, stopMessage, hreq, htype, hkind, if_neg (not_lt.mpr hlisted), decide_true, Bool.and_self, if_true]

section
variable {s : State} {r : Req}

theorem actStopCtx_foreign (h : ∀ c, s.ctx? (byteAt r.body 0) = some c → c.owner ≠ r.fn) : actStopCtx s r = (s, some (0x34, [])) := by
  unfold actStopCtx
  split
  · rename_i c hc
    exact if_pos (by simp [h c hc])
  · rfl

theorem actStopCtx_owned {c : Ctx} (hc : s.ctx? (byteAt r.body 0) = some c) (hkind : byteAt r.body 1 = 0) (hzero : fld r.body 2 2 = 0)
    (howner : c.owner = r.fn) : actStopCtx s r =
      ((s.mediaRings (c.stat :: c.taps) false).setMedia (fun m => { m with ctxs := aErase m.ctxs (byteAt r.body 0) }), some (0, [])) := by
  have hmay : ¬ (byteAt r.body 1 != 0 || fld r.body 2 2 != 0 || c.owner != r.fn) = true := by simp [hkind, hzero, howner]
  simp only [actStopCtx, State.freeCtx, hc, if_neg hmay]

end

theorem ctx_eraseCtx (s : State) (l : List (Option Nat)) (on : Bool) (n m : Nat) :
    ((s.mediaRings l on).setMedia (fun x => { x with ctxs := aErase x.ctxs n })).ctx? m = if m = n then none else s.ctx? m := by
  rw [State.ctx?, State.setMedia_media, mediaRings_media, aGet_aErase]
  rfl

theorem contextMessages : Claims.ContextMessages := by
  refine ⟨?setup, ?parameter, ?stop, ?foreignStop⟩
  case setup =>
    intro s p lock bad r h
    refine ⟨fun hst => exec_contextSetup_refused lock bad h hst, fun htaken => ctxStatus_taken r.fn htaken,
      fun hn hfree hport => ctxStatus_retired_port r.fn hn hfree hport, fun hst => ?_⟩
    have hctx : ∀ m, m ≠ byteAt r.body 0 → ((s.accepted r).withCtx r bad).ctx? m = s.ctx? m :=
      fun m hm => ctx_withCtx_other (s.accepted r) r bad hm
    have hport : ((s.accepted r).withCtx r bad).port (byteAt r.body 1) = s.port (byteAt r.body 1) :=
      port_withCtx (s.accepted r) r bad (byteAt r.body 1)
    have hasked : (s.accepted r).askedCtx r = ctxOf r.fn r.body (s.devRead (fld r.body 24 8) 4096) := rfl
    have hmade : ((s.accepted r).withCtx r bad).ctx? (byteAt r.body 0) = some ((s.accepted r).madeCtx r bad) := ctx_withCtx _ r bad
    have hkept : (lock = true ∨ (s.port (byteAt r.body 1)).enabled = true) →
        (((s.accepted r).withCtx r bad).enablePort (byteAt r.body 1) lock).ctx? (byteAt r.body 0) =
          some ((s.accepted r).madeCtx r bad) := fun hlocks =>
      (ctx_enablePort_locks (hport ▸ hlocks) _).trans hmade
    have hlost : ¬ (lock = true ∨ (s.port (byteAt r.body 1)).enabled = true) →
        (((s.accepted r).withCtx r bad).enablePort (byteAt r.body 1) lock).ctx? (byteAt r.body 0) =
          some { (s.accepted r).madeCtx r bad with st := 4 } := fun hfails => by
      rw [ctx_enablePort_fails (hport ▸ hfails) hmade (madeCtx_port _ r bad), madeCtx_portLost]
    refine ⟨_, exec_contextSetup_stands lock bad h hst, fun hlocks m hm => ?others, fun m g hm hg => ?rings,
      fun k l hfree hgood => ⟨fun hlocks => ⟨?slot, rfl⟩, fun hfails => ?lost⟩, fun hnone => ?full, fun hp hfresh => ?port⟩
    case others => rw [ctx_enablePort_locks (hport ▸ hlocks), hctx m hm]
    case rings => rw [ring_enablePort, ring_withCtx (s.accepted r) r bad hm hg]
    case slot => rw [hkept hlocks, madeCtx_slot (s := s.accepted r) hfree hgood, hasked]
    case lost => rw [hlost hfails, madeCtx_slot (s := s.accepted r) hfree hgood, hasked]
    case full =>
      by_cases hlocks : lock = true ∨ (s.port (byteAt r.body 1)).enabled = true
      · rw [hkept hlocks, madeCtx_none (s := s.accepted r) hnone, hasked]
      · rw [hlost hlocks, madeCtx_none (s := s.accepted r) hnone, hasked]
    case port =>
      have hlisted : byteAt r.body 1 < ((s.accepted r).withCtx r bad).media.ports.length := by
        rw [withCtx_ports]
        exact hp
      have hopened := port_enablePort lock hlisted (hport ▸ hfresh)
      rw [hport] at hopened
      exact hopened
  case parameter =>
    intro s p r h
    refine ⟨fun hc => accepted_message_answer s p _ _ r _ _ _ h (actCtxParam_none (s := s.accepted r) hc), fun c hc =>
      ⟨fun hbad => accepted_message_answer s p _ _ r _ _ _ h (actCtxParam_refused (s := s.accepted r) hc hbad),
        fun hgood hsmall => accepted_message_answer s p _ _ r _ _ _ h (actCtxParam_small (s := s.accepted r) hc hgood hsmall),
        fun hgood hfits => accepted_message_answer s p _ _ r _ _ _ h (actCtxParam_stands (s := s.accepted r) hc hgood hfits)⟩⟩
  case stop =>
    intro s p r c h hkind hc hzero howner
    have hact := actStopCtx_owned (s := s.accepted r) hc hkind hzero howner
    have hctx := ctx_eraseCtx (s.accepted r) (c.stat :: c.taps) false (byteAt r.body 0)
    refine ⟨_, (stopMessage_accepted _ h hkind (by decide)).trans (accepted_message_answer s p _ _ r _ _ _ h hact),
      (hctx _).trans (if_pos rfl), fun m hm => (hctx m).trans (if_neg hm), fun m g hm hg => ?_⟩
    exact ring_mediaRings (s := s.accepted r) false hm hg
  case foreignStop =>
    intro s p r h hkind hforeign
    exact (stopMessage_accepted _ h hkind (by decide)).trans
      (accepted_message_answer s p _ _ r _ _ _ h (actStopCtx_foreign (s := s.accepted r) hforeign))

/-! ## Lock groups (R323, R324) -/

/-- A setup of a lock group is in range, and neither the group nor its pins are another's or in use. -/
def State.GroupGood (s : State) (r : Req) : Prop :=
  lockRange r.body = true ∧ s.groupMembers (byteAt r.body 0) = [] ∧
    (∀ e, e ∈ s.media.groups → e.1 ≠ byteAt r.body 0 → e.2.pins &&& byteAt r.body 1 = 0) ∧
    (∀ g, aGet s.media.groups (byteAt r.body 0) = some g → g.owner = r.fn)

/-- The firmware's check of a lock-group setup fails. -/
def State.groupRefused (s : State) (r : Req) : Bool :=
  !lockRange r.body || !(s.groupMembers (byteAt r.body 0)).isEmpty ||
    s.media.groups.any (fun e => e.1 != byteAt r.body 0 && e.2.pins &&& byteAt r.body 1 != 0) ||
    (aGet s.media.groups (byteAt r.body 0)).any (fun g => g.owner != r.fn)

theorem groupRefused_iff (s : State) (r : Req) : s.groupRefused r = true ↔ ¬ s.GroupGood r := by
  rw [← Bool.not_eq_false, not_iff_not]
  simp only [State.groupRefused, State.GroupGood, Bool.or_eq_false_iff, Bool.not_eq_false', List.isEmpty_iff, List.any_eq_false,
    Option.any_eq_false, Bool.and_eq_true, bne_iff_ne, not_and, not_not, ne_eq, bne_eq_false_iff_eq, and_assoc]

/-- The group that a setup describes. -/
def State.askedGroup (s : State) (r : Req) : LockGroup :=
  let epoch := fld r.body 4 8 * 65536 + fld r.body 12 2
  let period := fld r.body 16 4 * 65536 + fld r.body 14 2
  { owner := r.fn, pins := byteAt r.body 1, polarity := byteAt r.body 2, epoch := epoch, period := period,
    pulse := fld r.body 20 4, window := fld r.body 24 4, next := firstTrigger epoch period s.now, high := none }

theorem actLockSetup_eq (s : State) (r : Req) : actLockSetup s r =
    if s.groupRefused r then (s, some (0x34, []))
    else (s.setMedia (fun m => { m with groups := aSet m.groups (byteAt r.body 0) (s.askedGroup r) }), some (0, [])) := by
  unfold actLockSetup State.groupRefused
  dsimp only
  cases aGet s.media.groups (byteAt r.body 0) with
  | none => rfl
  | some g => rfl

theorem actLockSetup_good {s : State} {r : Req} (h : s.GroupGood r) : actLockSetup s r =
    (s.setMedia (fun m => { m with groups := aSet m.groups (byteAt r.body 0) (s.askedGroup r) }), some (0, [])) := by
  rw [actLockSetup_eq, if_neg (fun hrefused => (groupRefused_iff s r).mp hrefused h)]

theorem actLockSetup_refused {s : State} {r : Req} (h : ¬ s.GroupGood r) : actLockSetup s r = (s, some (0x34, [])) := by
  rw [actLockSetup_eq, if_pos ((groupRefused_iff s r).mpr h)]

theorem firstTrigger_le_iff {epoch period : Nat} (now k : Nat) (h : 0 < period) :
    firstTrigger epoch period now ≤ k ↔ now * 65536 ≤ epoch + k * period := by
  unfold firstTrigger lockUnit
  split
  · omega
  · rw [Nat.div_le_iff_le_mul_add_pred h, Nat.mul_comm period k]
    omega

theorem actStopGroup_eq {s : State} {r : Req} {g : LockGroup} (hg : aGet s.media.groups (byteAt r.body 0) = some g)
    (hzero : fld r.body 2 2 = 0) (howner : g.owner = r.fn) : actStopGroup s r =
      if s.groupMembers (byteAt r.body 0) = [] then
        (s.setMedia (fun m => { m with groups := aErase m.groups (byteAt r.body 0) }), some (0, []))
      else (s, some (0x34, [])) := by
  cases hmembers : s.groupMembers (byteAt r.body 0) <;> simp [actStopGroup, hg, hzero, howner, hmembers]

/-! ### Triggers -/

theorem closeWindow_frame (c : Ctx) : c.closeWindow.frame = c.frame := by
  unfold Ctx.closeWindow
  split <;> rfl

theorem closeWindow_untaken {c : Ctx} {k a : Nat} (h : c.window = some (k, a, false)) :
    c.closeWindow = { c with window := none, missed := min (c.missed + 1) 0xffffffff } := by
  simp only [Ctx.closeWindow, h, inc32]

/-- A context takes part in the triggers of group n. -/
def Ctx.triggered (c : Ctx) (n : Nat) : Bool := decide (c.group = some n) && c.live

/-- A context's window opens for trigger k at an instant; one that was still open closes. -/
def Ctx.openWindow (c : Ctx) (k now : Nat) : Ctx := { c.closeWindow with window := some (k, now, false) }

section
variable {s : State} {n : Nat} {g : LockGroup} (hg : aGet s.media.groups n = some g)
include hg

theorem fire_early (h : s.now < g.t g.next / lockUnit) : s.fire n = s := by
  simp only [State.fire, hg]
  exact if_pos h

theorem fire_due (h : g.t g.next / lockUnit ≤ s.now) : s.fire n = s.setMedia (fun m => { m with
    groups := aSet m.groups n { g with next := g.next + 1, high := some (g.t g.next / lockUnit + g.pulse) },
    ctxs := m.ctxs.map (fun e => if e.2.triggered n = true then
      (e.1, e.2.openWindow (g.next % M32) (g.t g.next / lockUnit)) else e) }) := by
  simp only [State.fire, hg]
  exact if_neg (not_lt.mpr h)

theorem ctx_fire_due (h : g.t g.next / lockUnit ≤ s.now) (m : Nat) : (s.fire n).ctx? m =
    (s.ctx? m).map (fun c => if c.triggered n = true then c.openWindow (g.next % M32) (g.t g.next / lockUnit) else c) := by
  rw [fire_due hg h]
  exact aGet_map_if s.media.ctxs (fun c => c.triggered n = true) (Ctx.openWindow · (g.next % M32) (g.t g.next / lockUnit)) m

end

theorem windowPast_open {s : State} {c : Ctx} {k a g : Nat} {x : LockGroup} (hwindow : c.window = some (k, a, false))
    (hgroup : c.group = some g) (hx : aGet s.media.groups g = some x) : s.windowPast c = decide (a + x.window < s.now) := by
  simp only [State.windowPast, hwindow, hgroup, Option.bind_some, hx]

theorem exec_triggerWindowExpiry {s : State} {n : Nat} {c : Ctx} (hon : s.on = true) (hn : n < 64) (hc : s.ctx? n = some c) :
    exec (.triggerWindowExpiry n) s = .next (s.sameInputs (if s.windowPast c then s.setCtx n Ctx.closeWindow else s)) := by
  have hexec : exec (.triggerWindowExpiry n) s =
      onUnit (decide (n < 64)) s (if s.windowPast c then s.setCtx n Ctx.closeWindow else s) := by
    simp only [exec, execTriggerWindowExpiry, hc]
  rw [hexec, on_next s _ hon _ (decide_eq_true hn)]

theorem lockGroups : Claims.LockGroups := by
  refine ⟨?setup, fun epoch period now k hperiod => firstTrigger_le_iff now k hperiod, ?stop, ?trigger, ?expiry⟩
  case setup =>
    intro s p r h
    refine ⟨fun ⟨hrange, hmembers, howner, hpins⟩ => ?_, fun hbad => ?_⟩
    · have hgood : (s.accepted r).GroupGood r := ⟨hrange, hmembers, hpins, howner⟩
      exact accepted_message_answer s p _ _ r _ _ _ h (actLockSetup_good hgood)
    · have hrefused : ¬ (s.accepted r).GroupGood r :=
        fun ⟨hrange, hmembers, hpins, howner⟩ => hbad ⟨hrange, hmembers, howner, hpins⟩
      exact accepted_message_answer s p _ _ r _ _ _ h (actLockSetup_refused hrefused)
  case stop =>
    intro s p r g h hkind hzero hg howner
    have hact := actStopGroup_eq (s := s.accepted r) hg hzero howner
    refine ⟨fun halone => ?_, fun hmembers => ?_⟩
    · exact (stopMessage_accepted _ h hkind (by decide)).trans
        (accepted_message_answer s p _ _ r _ _ _ h (hact.trans (if_pos halone)))
    · exact (stopMessage_accepted _ h hkind (by decide)).trans
        (accepted_message_answer s p _ _ r _ _ _ h (hact.trans (if_neg hmembers)))
  case trigger =>
    intro s n g hon hn hg
    have hexec : exec (.trigger n) s = .next (s.sameInputs (s.fire n)) := on_next s _ hon _ (decide_eq_true hn)
    rw [hexec]
    refine ⟨fun hdue => ?_, fun hearly => ?_⟩
    · have hctx := ctx_fire_due hg hdue
      rw [fire_due hg hdue] at hctx ⊢
      refine ⟨_, rfl, rfl, aGet_aSet_same _ _ _, fun m c hc hgroup hlive => ?_, fun m c hc hgroup => ?_⟩
      · have htriggered : c.triggered n = true := by simpa [Ctx.triggered, Ctx.live, hgroup] using hlive
        have hopened := hctx m
        rw [hc, Option.map_some, if_pos htriggered] at hopened
        exact ⟨_, hopened, rfl, closeWindow_frame c⟩
      · have hother : ¬ c.triggered n = true := by simp [Ctx.triggered, hgroup]
        exact (hctx m).trans (by rw [hc, Option.map_some, if_neg hother])
    · rw [fire_early hg hearly, State.sameInputs_self]
  case expiry =>
    intro s n k a g x c hon hn hc hwindow hgroup hx
    rw [exec_triggerWindowExpiry hon hn hc, windowPast_open hwindow hgroup hx]
    refine ⟨fun hpast => ⟨?_, closeWindow_untaken hwindow⟩, fun hopen => ?_⟩
    · rw [if_pos (decide_eq_true hpast)]
      rfl
    · rw [if_neg (by simpa using hopen), State.sameInputs_self]

/-- Settles O44: each message is refused at its first check or takes its effect, and a trigger opens the windows of its members. -/
theorem cameraSetup : Obligations.CameraSetup := ⟨contextMessages, lockGroups⟩

end Sys2Proof.Machine

/-! SUPPORT. Proofs about the memory: the byte maps, the registers of the `mem` block, windows and the translation table, and the
pseudo-channel controllers. -/

namespace Sys2Proof.Machine

/-! ## The byte maps -/

/-- Bytes that are written at higher addresses leave a byte as it is. -/
theorem memGet_memWrite_below (d : Byte) (l : List Byte) (m : Mem) (a x : Nat) (h : x < a) :
    memGet d (memWrite d m a l) x = memGet d m x := by
  induction l generalizing m a with
  | nil => rfl
  | cons b t ih => rw [memWrite, ih _ _ (by omega), memGet_memPut_other d m a x b (by omega)]

theorem memGet_memWrite (d : Byte) (l : List Byte) (m : Mem) (a x : Nat) (h : Mem.wf d m = true) :
    memGet d (memWrite d m a l) x = if a ≤ x ∧ x < a + l.length then l.getD (x - a) 0 else memGet d m x := by
  induction l generalizing m a with
  | nil => rw [memWrite, if_neg (by simp)]
  | cons b t ih =>
    rcases lt_trichotomy x a with hlt | rfl | hgt
    · rw [memGet_memWrite_below d _ m a x hlt, if_neg (by omega)]
    · rw [memWrite, memGet_memWrite_below d t _ _ x (by omega), memGet_memPut_same d m x b h, if_pos (by simp), Nat.sub_self,
        List.getD_cons_zero]
    · have hstep : x - a = x - (a + 1) + 1 := by omega
      have hrange : (a + 1 ≤ x ∧ x < a + 1 + t.length) ↔ (a ≤ x ∧ x < a + (b :: t).length) := by
        rw [List.length_cons]
        omega
      rw [memWrite, ih _ _ (Mem.wf_memPut d m a b h), memGet_memPut_other d m a x b (by omega), hstep, List.getD_cons_succ]
      simp only [hrange]

/-- An address that reads another byte than the default is listed with that byte. -/
theorem mem_of_memGet_ne (d : Byte) (m : Mem) (a : Nat) (h : memGet d m a ≠ d) : (a, memGet d m a) ∈ m := by
  induction m with
  | nil => exact absurd rfl h
  | cons e t ih =>
    obtain ⟨k, v⟩ := e
    by_cases hk : k = a
    · simp [memGet, hk]
    · simp only [memGet, hk, if_false] at h ⊢
      exact List.mem_cons_of_mem _ (ih h)

/-- A canonical map reads at each listed address the byte that it lists. -/
theorem memGet_of_mem (d : Byte) (m : Mem) (h : Mem.wf d m = true) (e : Host.Cell) (he : e ∈ m) : memGet d m e.1 = e.2 := by
  obtain ⟨hsorted, -⟩ := (Mem.wf_iff d m).mp h
  clear h
  induction m with
  | nil => cases he
  | cons x t ih =>
    obtain ⟨hx, ht⟩ := List.pairwise_cons.mp hsorted
    rcases List.mem_cons.mp he with rfl | he
    · simp [memGet]
    · have hne : x.1 ≠ e.1 := (hx e he).ne
      simp only [memGet, hne, if_false]
      exact ih he ht

/-- Canonical maps list exactly the bytes that they read away from the default. -/
theorem mem_iff_memGet (d : Byte) (m : Mem) (h : Mem.wf d m = true) (e : Host.Cell) : e ∈ m ↔ memGet d m e.1 = e.2 ∧ e.2 ≠ d := by
  constructor
  · exact fun he => ⟨memGet_of_mem d m h e he, ((Mem.wf_iff d m).mp h).2 e he⟩
  · rintro ⟨hget, hne⟩
    have hmem := mem_of_memGet_ne d m e.1 (hget ▸ hne)
    rwa [hget] at hmem

theorem Mem.ext_memGet (d : Byte) (m n : Mem) (hm : Mem.wf d m = true) (hn : Mem.wf d n = true)
    (h : ∀ x, memGet d m x = memGet d n x) : m = n := by
  have hsorted : ∀ l : Mem, Mem.wf d l = true → l.Pairwise (fun a b => a.1 < b.1) := fun l hl => ((Mem.wf_iff d l).mp hl).1
  have hnodup : ∀ l : Mem, Mem.wf d l = true → l.Nodup := fun l hl =>
    (hsorted l hl).imp (fun hab => ne_of_apply_ne Prod.fst (ne_of_lt hab))
  have hmem : ∀ e, e ∈ m ↔ e ∈ n := fun e => by rw [mem_iff_memGet d m hm, mem_iff_memGet d n hn, h]
  refine ((List.perm_ext_iff_of_nodup (hnodup m hm) (hnodup n hn)).mpr hmem).eq_of_pairwise ?_ (hsorted m hm) (hsorted n hn)
  exact fun a b _ _ hab hba => absurd hab (lt_asymm hba)

/-- Settles O40: one put keeps the canonical form and the other bytes, a write is a sequence of puts, and a canonical map lists exactly
the bytes that it reads away from the default. -/
theorem memoryLaws : Obligations.MemoryLaws := by
  refine ⟨fun d m a b h => Mem.wf_memPut d m a b h, fun d m a x b h => ?_,
    fun d m a x l h => ⟨Mem.wf_memWrite d m a l h, memGet_memWrite d l m a x h⟩, Mem.ext_memGet⟩
  split
  · next hx => rw [hx, memGet_memPut_same d m a b h]
  · next hx => exact memGet_memPut_other d m a x b hx

/-! ## The age limit and the presence registers (R302) -/

theorem regValue_ageLimit (s : State) (f : Nat) : s.regValue f 0x140000 = s.xlt.ageLimit := by
  simp [State.regValue, State.memReg]

/-- A register whose bits are the presence of 32 pseudo-channels from a first one on. -/
def State.presence (s : State) (first : Nat) : Nat := ((List.range 32).map (fun i => b2n (s.present (first + i)) * 2 ^ i)).sum

theorem regValue_presence (s : State) (f : Nat) :
    s.regValue f 0x140004 = s.presence 0 ∧ s.regValue f 0x140008 = s.presence 32 := by
  simp [State.regValue, State.memReg, State.presence, b2n]

theorem bit_presence (s : State) (first n : Nat) (h : n < 32) : bit (s.presence first) n = s.present (first + n) :=
  bit_sum_range (fun i => s.present (first + i)) 32 n h

theorem presence_of_none (s : State) (first : Nat) (h : ∀ p, s.present p = false) : s.presence first = 0 := by
  simp [State.presence, h, b2n]

/-- No pseudo-channel is fitted after a reset. -/
theorem present_reset (p : Nat) : State.reset.present p = false := by
  have hc : State.reset.chan p = Chan.reset := List.getElem?_getD_replicate_default_eq _ 64 p
  rw [State.present, hc]
  exact Bool.and_false _

/-- The limit that a written field stores: 4 for 0, and at most 64. -/
theorem writeAge_limit (s : State) (v : Nat) :
    (s.writeAge (v % M32)).xlt.ageLimit = if v % 128 = 0 then 4 else min (v % 128) 64 := by
  rw [← Nat.mod_mod_of_dvd v (by decide : 128 ∣ M32)]
  rfl

theorem exec_ageLimitWrite_virtual (s : State) (f v : Nat) (hf : f < 17) (h0 : f ≠ 0) : exec (.ageLimitWrite f v) s = .next s := by
  have h : exec (.ageLimitWrite f v) s = onUnit (f < 17) s s := by simp [exec, execAgeLimitWrite, h0]
  rw [h, self_next s _ (decide_eq_true hf)]

/-- The presence registers take no write. -/
theorem writeReg_presence (s : State) (f v : Nat) : s.writeReg f 0x140004 v = s ∧ s.writeReg f 0x140008 v = s := by
  simp [State.writeReg]

/-- Settles O37: the register is the stored limit, the write stores 4 for 0 and at most 64, and the presence registers are sums of
distinct powers of 2. -/
theorem ageLimitRegister : Obligations.AgeLimitRegister := by
  refine ⟨fun s v hon => ?write, fun s f v hf h0 => exec_ageLimitWrite_virtual s f v hf h0, fun s f v hf hon => ?readOnly,
    fun s f n hn => ?presence, fun f => ?reset, fun s f hle => ?width⟩
  case write =>
    have hlimit := writeAge_limit s v
    have hexec : exec (.ageLimitWrite 0 v) s = .next (s.writeAge (v % M32)) := by
      rw [exec_ageLimitWrite, whenOn_next s _ hon]
      rfl
    refine ⟨_, hexec, rfl, fun h0 => ?_, fun h64 => ?_, fun h1 h64 => ?_⟩
    · rw [regValue_ageLimit, hlimit, if_pos h0]
    · rw [regValue_ageLimit, hlimit, if_neg (by omega), Nat.min_eq_right (by omega)]
    · rw [regValue_ageLimit, hlimit, if_neg (by omega), Nat.min_eq_left h64]
  case readOnly =>
    obtain ⟨hlo, hhi⟩ := writeReg_presence s f v
    rw [exec_registerWrite_word s f _ v hf, exec_registerWrite_word s f _ v hf, hlo, hhi, whenOn_self]
    exact ⟨rfl, rfl⟩
  case presence =>
    obtain ⟨hlo, hhi⟩ := regValue_presence s f
    rw [hlo, hhi, bit_presence s 0 n hn, bit_presence s 32 n hn, Nat.zero_add, Nat.add_comm]
    exact ⟨rfl, rfl⟩
  case reset =>
    obtain ⟨hlo, hhi⟩ := regValue_presence State.reset f
    rw [regValue_ageLimit, hlo, hhi, presence_of_none _ _ present_reset, presence_of_none _ _ present_reset]
    exact ⟨rfl, rfl, rfl⟩
  case width =>
    rw [regValue_ageLimit]
    omega

end Sys2Proof.Machine

/-! SUPPORT. Proofs about translation: what windows and map messages answer and change, and the drain of a change. -/

namespace Sys2Proof.Machine

/-! ## The window message (R286) -/

section
variable {s : State} {f n : Nat} {b : List Byte}

theorem windowStatus_beyond (op : Nat) (hn : 1023 < n) : s.windowStatus f op n b = 0x28 := by
  simp [State.windowStatus, hn]

/-- The checks of a create in their order. -/
theorem windowStatus_create (hn : n ≤ 1023) : s.windowStatus f 0 n b =
    if f ≠ 0 then 0x24
    else if (aGet s.xlt.windows n).isSome = true then 0x25
    else if s.xlt.windows.any (fun w => overlapN w.2.first w.2.count (fld b 4 4) (fld b 8 4) != 0) = true then 0x26
    else if windowRange 0 b = false then 0x28 else 0 := by
  simp [State.windowStatus, not_lt.mpr hn]
  rfl

theorem windowStatus_delete_foreign (hn : n ≤ 1023) (hf : f ≠ 0) : s.windowStatus f 1 n b = 0x24 := by
  simp [State.windowStatus, not_lt.mpr hn, hf]

theorem windowStatus_delete_none (hn : n ≤ 1023) (hold : aGet s.xlt.windows n = none) : s.windowStatus 0 1 n b = 0x25 := by
  simp [State.windowStatus, not_lt.mpr hn, hold]

theorem windowStatus_delete_ring {w : Window} (hn : n ≤ 1023) (hold : aGet s.xlt.windows n = some w)
    (hring : s.windowHasRing w = true) : s.windowStatus 0 1 n b = 0x27 := by
  simp [State.windowStatus, not_lt.mpr hn, hold, hring]

theorem windowStatus_mask_foreign {w : Window} (hn : n ≤ 1023) (hold : aGet s.xlt.windows n = some w) (howner : w.owner ≠ f) :
    s.windowStatus f 2 n b = 0x24 := by
  simp [State.windowStatus, not_lt.mpr hn, hold, howner]

theorem windowStatus_mask_none (hn : n ≤ 1023) (hold : aGet s.xlt.windows n = none) : s.windowStatus f 2 n b = 0x25 := by
  simp [State.windowStatus, not_lt.mpr hn, hold]

end

theorem actWindow_refused {s : State} {r : Req} {op st : Nat} (hop : byteAt r.body 0 = op)
    (hst : s.windowStatus r.fn op (fld r.body 2 2) r.body = st) (hne : st ≠ 0) : actWindow s r = (s, some (st, [])) := by
  simp [actWindow, hop, hst, hne]

/-- A window command whose request fails a check is answered with that check's status. -/
theorem windowMessage_refused {s : State} {p op st : Nat} {r : Req} (h : s.accepts p 0x0015 r = true) (hop : byteAt r.body 0 = op)
    (hst : s.windowStatus r.fn op (fld r.body 2 2) r.body = st) (hne : st ≠ 0) :
    onUnit (p < 64) s (windowMessage p op s) = .next (s.sameInputs ((s.accepted r).answer r st [])) :=
  (windowMessage_accepted s p op r h hop).trans
    (accepted_message_answer s p _ _ r _ _ _ h (actWindow_refused (s := s.accepted r) hop hst hne))

theorem windowOutcomes : Claims.WindowOutcomes := by
  intro s p r h
  refine ⟨fun hop => ?create, fun hop hn => ?delete, fun hop hn => ?mask⟩
  case create =>
    have hrefused : ∀ st, s.windowStatus r.fn 0 (fld r.body 2 2) r.body = st → st ≠ 0 → exec (.windowCreate p) s =
        .next (s.sameInputs ((s.accepted r).answer r st [])) := fun st hst hne => windowMessage_refused h hop hst hne
    refine ⟨fun hn => hrefused _ (windowStatus_beyond 0 hn) (by decide), fun hn hf => hrefused _ ?_ (by decide),
      fun hn hf hold => hrefused _ ?_ (by decide), fun hn hf hold hclash => hrefused _ ?_ (by decide),
      fun hn hf hold hclash hrange => hrefused _ ?_ (by decide), fun hn hf hold hclash hrange => ?_⟩
    · rw [windowStatus_create hn, if_pos hf]
    · rw [windowStatus_create hn, if_neg (not_not.mpr hf), if_pos hold]
    · rw [windowStatus_create hn, if_neg (not_not.mpr hf), if_neg (by simp [hold]), if_pos hclash]
    · rw [windowStatus_create hn, if_neg (not_not.mpr hf), if_neg (by simp [hold]), if_neg (by simp [hclash]), if_pos hrange]
    · exact (windowMessage_accepted s p 0 r h hop).trans (accepted_message_answer s p _ _ r _ _ _ h
        (actWindow_create (s.accepted r) r hn hop hf hold hclash hrange))
  case delete =>
    refine ⟨fun hf => windowMessage_refused h hop (windowStatus_delete_foreign hn hf) (by decide),
      fun hf hold => windowMessage_refused h hop (hf ▸ windowStatus_delete_none hn hold) (by decide),
      fun w hf hold hring => windowMessage_refused h hop (hf ▸ windowStatus_delete_ring hn hold hring) (by decide),
      fun w hf hold hring hrange => ?_⟩
    exact (windowMessage_accepted s p 1 r h hop).trans (accepted_message_answer s p _ _ r _ _ _ h
      (actWindow_delete (s.accepted r) r w hn hop hf hold hring hrange))
  case mask =>
    refine ⟨fun w hold howner => windowMessage_refused h hop (windowStatus_mask_foreign hn hold howner) (by decide),
      fun hold => windowMessage_refused h hop (windowStatus_mask_none hn hold) (by decide), fun w hold howner hrange => ?_⟩
    exact (windowMessage_accepted s p 2 r h hop).trans (accepted_message_silent s p _ _ r _ h
      (actWindow_mask (s.accepted r) r w hn hop hold howner hrange))

/-! ## What a byte of HBM reads (R292) -/

/-- Two states that agree on the queued write of a byte's sector and on the stack's byte agree on the byte. -/
theorem hbmGet_congr {s t : State} {k : Nat} (hq : queuedWrite (t.chan (k / 805306368)) (sectorOf k) =
    queuedWrite (s.chan (k / 805306368)) (sectorOf k)) (hm : memGet hbmDefault t.hbm k = memGet hbmDefault s.hbm k) :
    t.hbmGet k = s.hbmGet k := by
  simp only [State.hbmGet, hq, hm]

theorem hbmGet_not_queued {s : State} {k : Nat} (hq : queuedWrite (s.chan (k / 805306368)) (sectorOf k) = none) :
    s.hbmGet k = memGet hbmDefault s.hbm k := by
  simp only [State.hbmGet, hq]

theorem hbmGet_queued {s : State} {k : Nat} {w : WriteReq} (hq : queuedWrite (s.chan (k / 805306368)) (sectorOf k) = some w) :
    s.hbmGet k = if bit w.mask (k % 64) = true then w.data.getD (k % 64) 0 else memGet hbmDefault s.hbm k := by
  simp only [State.hbmGet, hq]

/-- Of a filter by addresses a read sees the bytes that stay. -/
theorem memGet_filter (d : Byte) (m : Mem) (g : Nat → Bool) (a : Nat) :
    memGet d (m.filter (fun c => g c.1)) a = if g a = true then memGet d m a else d := by
  induction m with
  | nil => simp [memGet]
  | cons e t ih =>
    obtain ⟨k, v⟩ := e
    by_cases hk : k = a
    · subst hk
      cases hg : g k <;> simp [hg, memGet, ih]
    · cases hg : g k <;> simp [hg, memGet, ih, hk]

/-- Of a filter by sectors a search for a sector sees the writes that stay. -/
theorem find_filter_sector (l : List WriteReq) (g : Nat → Bool) (sector : Nat) :
    (l.filter (fun w => g w.sector)).find? (fun w => w.sector = sector) =
      if g sector = true then l.find? (fun w => w.sector = sector) else none := by
  induction l with
  | nil => simp
  | cons w t ih =>
    by_cases hw : w.sector = sector
    · subst hw
      cases hg : g w.sector
      · simpa [hg] using ih
      · simp [hg]
    · cases hg : g w.sector <;> simp [hg, hw, ih]

/-- An update that leaves a part of the fallback element as it is, is seen in that part at its index, listed or not. -/
theorem getD_lMod_part {α β : Type} (l : List α) (i : Nat) (f : α → α) (d : α) (part : α → β) (h : part (f d) = part d) :
    part ((lMod l i f).getD i d) = part (f (l.getD i d)) := by
  by_cases hi : i < l.length
  · rw [getD_lMod_same l i f d hi]
  · rw [List.getD_eq_default _ _ (by simpa using hi), List.getD_eq_default _ _ (by simpa using hi), h]

/-! ## Frames that are given to a function (R290) -/

/-- A cleared frame holds no queued write, and every other sector holds what it held. -/
theorem queuedWrite_clearFrame (s : State) (k c sector : Nat) : queuedWrite ((s.clearFrame k).chan c) sector =
    if c = k / 196608 ∧ sector / 64 = k % 196608 then none else queuedWrite (s.chan c) sector := by
  by_cases hc : c = k / 196608
  · subst hc
    have hwq : ((s.clearFrame k).chan (k / 196608)).wq = (s.chan (k / 196608)).wq.filter (fun w => w.sector / 64 != k % 196608) :=
      getD_lMod_part s.chans _ _ Chan.reset Chan.wq rfl
    rw [queuedWrite, hwq, find_filter_sector _ (fun x => x / 64 != k % 196608)]
    by_cases hs : sector / 64 = k % 196608 <;> simp [hs, queuedWrite]
  · have hother : (s.clearFrame k).chan c = s.chan c := getD_lMod_other _ _ _ _ _ hc
    rw [hother, if_neg (fun h => hc h.1)]

theorem hbmGet_clearFrame (s : State) (k a : Nat) : (s.clearFrame k).hbmGet a = if a / 4096 = k then 0 else s.hbmGet a := by
  have hmem : memGet hbmDefault (s.clearFrame k).hbm a = if (a / 4096 != k) = true then memGet hbmDefault s.hbm a else hbmDefault :=
    memGet_filter hbmDefault s.hbm (fun x => x / 4096 != k) a
  have hq := queuedWrite_clearFrame s k (a / 805306368) (sectorOf a)
  by_cases ha : a / 4096 = k
  · rw [if_pos (by simp only [sectorOf]; omega)] at hq
    rw [hbmGet_not_queued hq, hmem, if_neg (by simpa using ha), if_pos ha]
    rfl
  · rw [if_neg (by simp only [sectorOf]; omega)] at hq
    rw [if_pos (by simpa using ha)] at hmem
    rw [if_neg ha, hbmGet_congr hq hmem]

/-- Frame k, given to a function that did not map it last, reads zeros, and every other frame reads as before. -/
theorem hbmGet_giveFrame (s : State) (f k a : Nat) : (s.giveFrame f k).hbmGet a =
    if a / 4096 = k ∧ aGet s.xlt.owners k ≠ some f then 0 else s.hbmGet a := by
  have hxlt : (s.giveFrame f k).hbmGet a = (if aGet s.xlt.owners k = some f then s else s.clearFrame k).hbmGet a := rfl
  rw [hxlt]
  by_cases ho : aGet s.xlt.owners k = some f
  · rw [if_pos ho, if_neg (fun h => h.2 ho)]
  · rw [if_neg ho, hbmGet_clearFrame]
    simp [ho]

theorem giveFrame_frame (s : State) (f k : Nat) : ∃ c h,
    s.giveFrame f k = { s with xlt := { s.xlt with owners := aSet s.xlt.owners k f }, chans := c, hbm := h } := by
  unfold State.giveFrame
  dsimp only
  split <;> exact ⟨_, _, rfl⟩

theorem aGet_owners_giveFrame (s : State) (f k j : Nat) :
    aGet (s.giveFrame f k).xlt.owners j = if j = k then some f else aGet s.xlt.owners j := by
  obtain ⟨c, h, hgive⟩ := giveFrame_frame s f k
  rw [hgive]
  split
  · next hj => rw [hj]; exact aGet_aSet_same _ _ _
  · next hj => exact aGet_aSet_other _ _ _ _ hj

/-! ## Entries of the table -/

theorem xentry_setEntry (s : State) (v q : Nat) (e : XEntry) : (s.setEntry v e).xentry q = if q = v then e else s.xentry q := by
  by_cases he : e = .invalid 0
  · subst he
    exact xentry_setEntry_invalid s v q
  · simp only [State.xentry, State.setEntry, State.setXlt_xlt, if_neg he]
    split
    · next hq => rw [hq, aGet_aSet_same]; rfl
    · next hq => rw [aGet_aSet_other _ _ _ _ hq]

/-- An entry is written after its frame, if it has one, is given to the function. -/
theorem mapEntry_eq (s : State) (f v : Nat) (e : XEntry) :
    s.mapEntry f v e = ((e.frameKey?.elim s (s.giveFrame f)).setEntry v e) := by
  cases e <;> rfl

theorem mapEntry_frame (s : State) (f v : Nat) (e : XEntry) : ∃ l o c h,
    s.mapEntry f v e = { s with xlt := { s.xlt with table := l, owners := o }, chans := c, hbm := h } := by
  rw [mapEntry_eq]
  cases e.frameKey? with
  | none => exact ⟨_, s.xlt.owners, s.chans, s.hbm, rfl⟩
  | some k =>
    obtain ⟨c, h, hgive⟩ := giveFrame_frame s f k
    exact ⟨_, _, c, h, by rw [Option.elim_some, hgive]; rfl⟩

theorem xentry_mapEntry (s : State) (f v q : Nat) (e : XEntry) : (s.mapEntry f v e).xentry q = if q = v then e else s.xentry q := by
  rw [mapEntry_eq, xentry_setEntry]
  cases e.frameKey? with
  | none => rfl
  | some k =>
    obtain ⟨c, h, hgive⟩ := giveFrame_frame s f k
    rw [Option.elim_some, hgive]
    rfl

/-- Function f has mapped frame k, and the frame reads zeros. -/
def State.GivenClear (s : State) (f k : Nat) : Prop :=
  aGet s.xlt.owners k = some f ∧ ∀ x, x < 4096 → s.hbmGet (k * 4096 + x) = 0

/-- A frame that is given to a function that did not map it last is clear. -/
theorem mapEntry_givenClear {s : State} {f k : Nat} {e : XEntry} (v : Nat) (he : e.frameKey? = some k)
    (h : aGet s.xlt.owners k = some f → s.GivenClear f k) : (s.mapEntry f v e).GivenClear f k := by
  rw [mapEntry_eq, he]
  refine ⟨(aGet_owners_giveFrame s f k k).trans (if_pos rfl), fun x hx => (hbmGet_giveFrame s f k _).trans ?_⟩
  have hk : (k * 4096 + x) / 4096 = k := by omega
  split
  · rfl
  · next hno => exact (h (not_not.mp fun ho => hno ⟨hk, ho⟩)).2 x hx

/-- A frame that another entry names stays as it is. -/
theorem mapEntry_other_frame {s : State} {f k : Nat} {e : XEntry} (v : Nat) (he : e.frameKey? ≠ some k) :
    aGet (s.mapEntry f v e).xlt.owners k = aGet s.xlt.owners k ∧
      ∀ x, x < 4096 → (s.mapEntry f v e).hbmGet (k * 4096 + x) = s.hbmGet (k * 4096 + x) := by
  rw [mapEntry_eq]
  cases hj : e.frameKey? with
  | none => exact ⟨rfl, fun _ _ => rfl⟩
  | some j =>
    have hkj : k ≠ j := fun h => he (h ▸ hj)
    exact ⟨(aGet_owners_giveFrame s f j k).trans (if_neg hkj),
      fun x hx => (hbmGet_giveFrame s f j _).trans (if_neg (fun h => hkj (by omega)))⟩

/-- The entries of some pages, one after another. -/
def State.mapPages (s : State) (f : Nat) (e : Nat → XEntry) (pages : List Nat) : State :=
  pages.foldl (fun t v => t.mapEntry f v (e v)) s

theorem mapPages_frame (f : Nat) (e : Nat → XEntry) (pages : List Nat) (s : State) : ∃ l o c h,
    s.mapPages f e pages = { s with xlt := { s.xlt with table := l, owners := o }, chans := c, hbm := h } := by
  induction pages generalizing s with
  | nil => exact ⟨s.xlt.table, s.xlt.owners, s.chans, s.hbm, rfl⟩
  | cons v t ih =>
    obtain ⟨l, o, c, h, hentry⟩ := mapEntry_frame s f v (e v)
    obtain ⟨l', o', c', h', hrest⟩ := ih (s.mapEntry f v (e v))
    refine ⟨l', o', c', h', ?_⟩
    rw [State.mapPages, List.foldl_cons]
    rw [State.mapPages] at hrest
    rw [hrest, hentry]

theorem xentry_mapPages (f : Nat) (e : Nat → XEntry) (pages : List Nat) (s : State) (q : Nat) :
    (s.mapPages f e pages).xentry q = if q ∈ pages then e q else s.xentry q := by
  induction pages generalizing s with
  | nil => simp [State.mapPages]
  | cons v t ih =>
    have hrest := ih (s.mapEntry f v (e v))
    rw [State.mapPages] at hrest
    rw [State.mapPages, List.foldl_cons, hrest, xentry_mapEntry]
    by_cases hq : q = v <;> simp [hq]

/-- A frame that one of the pages maps, and that another function mapped last, is clear once they all are mapped. -/
theorem mapPages_givenClear (f k : Nat) (e : Nat → XEntry) (pages : List Nat) (s : State)
    (hs : aGet s.xlt.owners k = some f → s.GivenClear f k) (h : s.GivenClear f k ∨ ∃ v ∈ pages, (e v).frameKey? = some k) :
    (s.mapPages f e pages).GivenClear f k := by
  induction pages generalizing s with
  | nil => exact h.resolve_right (by simp)
  | cons v t ih =>
    rw [State.mapPages, List.foldl_cons]
    by_cases hv : (e v).frameKey? = some k
    · have hclear := mapEntry_givenClear v hv hs
      exact ih _ (fun _ => hclear) (.inl hclear)
    · obtain ⟨howner, hget⟩ := mapEntry_other_frame (s := s) (f := f) v hv
      have hkeep : s.GivenClear f k → (s.mapEntry f v (e v)).GivenClear f k := fun ⟨ho, hz⟩ =>
        ⟨howner.trans ho, fun x hx => (hget x hx).trans (hz x hx)⟩
      refine ih _ (fun ho => hkeep (hs (howner ▸ ho))) (h.imp hkeep ?_)
      rintro ⟨q, hq, hk⟩
      exact ⟨q, (List.mem_cons.mp hq).resolve_left (fun heq => hv (heq ▸ hk)), hk⟩

/-! ## The map message (R289 to R291) -/

/-- The fields of a map message are in range. -/
def State.MapGood (s : State) (r : Req) : Prop :=
  byteAt r.body 16 ≤ 1 ∧ fld r.body 0 4 < 0x1000000 ∧ 1 ≤ fld r.body 4 4 ∧ fld r.body 0 4 + fld r.body 4 4 ≤ 0x1000000 ∧
    fld r.body 17 7 = 0 ∧ (byteAt r.body 16 = 0 → s.fnReads r.fn (fld r.body 8 8) (8 * fld r.body 4 4) = true)

/-- The firmware's check of those fields fails. -/
def State.mapRefused (s : State) (r : Req) : Bool :=
  1 < byteAt r.body 16 || 0xffffff < fld r.body 0 4 || fld r.body 4 4 < 1 || 0x1000000 < fld r.body 0 4 + fld r.body 4 4 ||
    fld r.body 17 7 != 0 || (byteAt r.body 16 = 0 && !s.fnReads r.fn (fld r.body 8 8) (8 * fld r.body 4 4))

theorem mapRefused_iff (s : State) (r : Req) : s.mapRefused r = true ↔ ¬ s.MapGood r := by
  rw [← Bool.not_eq_false, not_iff_not]
  simp only [State.mapRefused, State.MapGood, Bool.or_eq_false_iff, decide_eq_false_iff_not, bne_eq_false_iff_eq,
    Bool.and_eq_false_imp, decide_eq_true_eq, Bool.not_eq_false', and_assoc]
  constructor <;> rintro ⟨hop, hv, hn, hend, hrest⟩ <;> exact ⟨by omega, by omega, by omega, by omega, hrest⟩

/-- The entry values that a map message lists; an invalidation lists none. -/
def State.mapWords (s : State) (r : Req) : List Nat :=
  if byteAt r.body 16 = 0 then (List.range (fld r.body 4 4)).map (fun i => leNat (s.devRead (fld r.body 8 8 + 8 * i) 8)) else []

/-- The entry that a map message gives a page. -/
def State.mapNew (s : State) (r : Req) (v : Nat) : XEntry :=
  if byteAt r.body 16 = 0 then parseXEntry ((s.mapWords r).getD (v - fld r.body 0 4) 0) else .invalid 0

/-- The pages of a map message. -/
def mapRange (r : Req) : List Nat := (List.range (fld r.body 4 4)).map (· + fld r.body 0 4)

/-- The firmware has looked up the pages of the list. -/
def State.mapRead (s : State) (r : Req) : State :=
  if byteAt r.body 16 = 0 then s.touchAll (fld r.body 8 8) (8 * fld r.body 4 4) else s

/-- A map message has taken effect, and its drain begins. -/
def State.mapDone (s : State) (r : Req) : State :=
  (((s.mapRead r).mapPages r.fn (s.mapNew r) (mapRange r)).uncache (mapRange r)).startDrain r.pair (mapRange r) (s.mapRead r)

theorem actMap_refused {s : State} {r : Req} (h : ¬ s.MapGood r) : actMap s r = (s, some (0x23, toLE 4 0)) :=
  if_pos ((mapRefused_iff s r).mpr h)

section
variable {s : State} {r : Req} (hgood : s.MapGood r)
include hgood

theorem actMap_fails {st i : Nat} (h : s.mapChecks r.fn (fld r.body 0 4) (fld r.body 4 4) (s.mapWords r) = some (st, i)) :
    actMap s r = (s, some (st, toLE 4 i)) := by
  unfold State.mapWords at h
  refine (if_neg (fun hrefused => (mapRefused_iff s r).mp hrefused hgood)).trans ?_
  dsimp only
  rw [h]

theorem actMap_stands (h : s.mapChecks r.fn (fld r.body 0 4) (fld r.body 4 4) (s.mapWords r) = none) :
    actMap s r = (s.mapDone r, none) := by
  unfold State.mapWords at h
  refine (if_neg (fun hrefused => (mapRefused_iff s r).mp hrefused hgood)).trans ?_
  dsimp only
  rw [h]
  rfl

end

theorem mapRead_frame (s : State) (r : Req) :
    ∃ c m d, s.mapRead r = { s with xlt := { s.xlt with cache := c, misses := m }, free := d } := by
  unfold State.mapRead
  split
  · exact touchAll_frame s _ _
  · exact ⟨s.xlt.cache, s.xlt.misses, s.free, rfl⟩

theorem hbmGet_startDrain (s old : State) (p x : Nat) (pages : List Nat) : (s.startDrain p pages old).hbmGet x = s.hbmGet x := rfl

theorem hbmGet_uncache (s : State) (pages : List Nat) (x : Nat) : (s.uncache pages).hbmGet x = s.hbmGet x := rfl

theorem mapDone_frame (s : State) (r : Req) : ∃ l o k m c h d, s.mapDone r = { s with
    xlt := { s.xlt with
      table := l, owners := o, cache := k, misses := m
      drains := s.xlt.drains ++ [{ pair := r.pair, at_ := s.now, old := (mapRange r).map (fun v => (v, s.xentry v)) }] },
    chans := c, hbm := h, free := d } := by
  obtain ⟨k, m, d, hread⟩ := mapRead_frame s r
  obtain ⟨l, o, c, h, hpages⟩ := mapPages_frame r.fn (s.mapNew r) (mapRange r) (s.mapRead r)
  unfold State.mapDone
  rw [hpages, hread]
  exact ⟨l, o, _, m, c, h, d, rfl⟩

theorem xentry_mapRead (s : State) (r : Req) (q : Nat) : (s.mapRead r).xentry q = s.xentry q := by
  obtain ⟨k, m, d, hread⟩ := mapRead_frame s r
  rw [hread]
  rfl

theorem mem_mapRange (r : Req) (q : Nat) : q ∈ mapRange r ↔ fld r.body 0 4 ≤ q ∧ q < fld r.body 0 4 + fld r.body 4 4 :=
  mem_pageRange _ _ q

theorem xentry_mapDone (s : State) (r : Req) (q : Nat) :
    (s.mapDone r).xentry q = if q ∈ mapRange r then s.mapNew r q else s.xentry q := by
  rw [State.mapDone, xentry_startDrain, xentry_uncache, xentry_mapPages, xentry_mapRead]

theorem cached_mapDone (s : State) (r : Req) (q : Nat) (h : q ∈ mapRange r) : (s.mapDone r).cached q = false := by
  rw [State.mapDone, cached_startDrain, cached_uncache _ _ q h]

/-- A frame that another function mapped last reads zeros after the message. -/
theorem hbmGet_mapDone {s : State} {r : Req} {k v x : Nat} (hv : v ∈ mapRange r) (hk : (s.mapNew r v).frameKey? = some k)
    (howner : aGet s.xlt.owners k ≠ some r.fn) (hx : x < 4096) : (s.mapDone r).hbmGet (k * 4096 + x) = 0 := by
  have hread : aGet (s.mapRead r).xlt.owners k ≠ some r.fn := by
    obtain ⟨c, m, d, hread⟩ := mapRead_frame s r
    rw [hread]
    exact howner
  obtain ⟨-, hclear⟩ := mapPages_givenClear r.fn k (s.mapNew r) (mapRange r) (s.mapRead r) (fun ho => absurd ho hread)
    (.inr ⟨v, hv, hk⟩)
  rw [State.mapDone, hbmGet_startDrain, hbmGet_uncache, hclear x hx]

theorem sameInputs_mapDone (s : State) (r : Req) : s.sameInputs ((s.accepted r).mapDone r) = (s.accepted r).mapDone r := by
  obtain ⟨l, o, k, m, c, h, d, hdone⟩ := mapDone_frame (s.accepted r) r
  rw [hdone]
  rfl

/-! ## The drain of a change (R291) -/

theorem exec_translationDrainComplete {s : State} {p : Nat} (hp : p < 64) (hon : s.on = true) :
    exec (.translationDrainComplete p) s = .next (s.sameInputs (s.drainDone p)) := on_next s _ hon _ (decide_eq_true hp)

theorem exec_translationDrainComplete_idle {s : State} {p : Nat} (hp : p < 64) (h : s.drainDone p = s) :
    exec (.translationDrainComplete p) s = .next s := by
  have hexec : exec (.translationDrainComplete p) s = onUnit (decide (p < 64)) s (s.drainDone p) := rfl
  rw [hexec, h, self_next s _ (decide_eq_true hp)]

theorem drainDone_not_drained {s : State} {p : Nat} {d : Drain} (hd : d ∈ s.xlt.drains) (hpair : d.pair = p) (h : s.drained d = false) :
    s.drainDone p = s := by
  have hall : s.xlt.drains.all (fun d => d.pair != p || s.drained d) = false :=
    List.all_eq_false.mpr ⟨d, hd, by simp [hpair, h]⟩
  rw [State.drainDone, hall, Bool.and_false]
  exact if_neg Bool.false_ne_true

theorem drainDone_no_drain {s : State} {p : Nat} (h : s.xlt.drains.any (fun d => d.pair = p) = false) : s.drainDone p = s := by
  rw [State.drainDone, h, Bool.and_false, Bool.false_and]
  exact if_neg Bool.false_ne_true

theorem drained_of_queued_read {s : State} {d : Drain} {v f c : Nat} {w : Bool} {r : ReadReq} (hold : (v, .hbm f c w) ∈ d.old)
    (hf : f < 196608) (hr : r ∈ (s.chan c).rq) (hsector : r.sector / 64 = f) (hat : r.at_ ≤ d.at_) : s.drained d = false := by
  have hkey : frameKey c f ∈ d.old.filterMap (fun e => e.2.frameKey?) := List.mem_filterMap.mpr ⟨_, hold, rfl⟩
  have hchan : frameKey c f / 196608 = c := by simp only [frameKey]; omega
  have hframe : frameKey c f % 196608 = f := by simp only [frameKey]; omega
  have hany : (s.chan c).rq.any (fun r => decide (r.sector / 64 = f) && decide (r.at_ ≤ d.at_)) = true :=
    List.any_eq_true.mpr ⟨r, hr, by simp [hsector, hat]⟩
  refine List.all_eq_false.mpr ⟨_, hkey, ?_⟩
  simp [hchan, hframe, hany]

/-! ## The 64 bits of an entry (R283) -/

theorem bit_of_b2n {n i : Nat} {w : Bool} (h : n / 2 ^ i % 2 = b2n w) : bit n i = w := by
  cases w with
  | true => exact decide_eq_true h
  | false => exact decide_eq_false (fun h1 => absurd (h1.symm.trans h) (by decide))

theorem parseXEntry_hbm_bits (f c : Nat) (w : Bool) (hf : f < 0x40000) (hc : c < 64) :
    parseXEntry (XEntry.hbm f c w).bits = .hbm f c w := by
  have hw : b2n w ≤ 1 := by cases w <;> decide
  have hvalid : bit (XEntry.hbm f c w).bits 0 = true := decide_eq_true (by simp only [XEntry.bits]; omega)
  have hkind : bit (XEntry.hbm f c w).bits 1 = false := decide_eq_false (by simp only [XEntry.bits]; omega)
  have hwrite : bit (XEntry.hbm f c w).bits 2 = w := bit_of_b2n (by simp only [XEntry.bits]; omega)
  have hframe : bits (XEntry.hbm f c w).bits 35 18 = f := by simp only [bits, XEntry.bits]; omega
  have hchan : bits (XEntry.hbm f c w).bits 17 12 = c := by simp only [bits, XEntry.bits]; omega
  simp [parseXEntry, hvalid, hkind, hwrite, hframe, hchan]

theorem parseXEntry_host_bits (p f : Nat) (w : Bool) (hp : p < 0x10000000000000) (hf : f < 32) :
    parseXEntry (XEntry.host p f w).bits = .host p f w := by
  have hw : b2n w ≤ 1 := by cases w <;> decide
  have hvalid : bit (XEntry.host p f w).bits 0 = true := decide_eq_true (by simp only [XEntry.bits]; omega)
  have hkind : bit (XEntry.host p f w).bits 1 = true := decide_eq_true (by simp only [XEntry.bits]; omega)
  have hwrite : bit (XEntry.host p f w).bits 2 = w := bit_of_b2n (by simp only [XEntry.bits]; omega)
  have hpage : bits (XEntry.host p f w).bits 63 12 = p := by simp only [bits, XEntry.bits]; omega
  have hfn : bits (XEntry.host p f w).bits 11 7 = f := by simp only [bits, XEntry.bits]; omega
  simp [parseXEntry, hvalid, hkind, hwrite, hpage, hfn]

theorem mapOutcomes : Claims.MapOutcomes := by
  refine ⟨fun s p r h => ⟨fun hbad => ?refused, fun st i hgood hchk => ?fails, fun hgood hchk => ?stands⟩,
    fun s p hp hfw => ⟨fun hdrain hall => ?ends, fun d hd hpair hheld => ?waits, fun hnone => ?none⟩,
    fun s d v f c w r hold hf hr hsector hat => drained_of_queued_read hold hf hr hsector hat, fun e hvalid hhbm hhost => ?bits⟩
  case refused => exact accepted_message_answer s p _ _ r _ _ _ h (actMap_refused (s := s.accepted r) hbad)
  case fails => exact accepted_message_answer s p _ _ r _ _ _ h (actMap_fails (s := s.accepted r) hgood hchk)
  case stands =>
    have hexec := accepted_message_silent s p _ _ r _ h (actMap_stands (s := s.accepted r) hgood hchk)
    obtain ⟨-, hrequest, -, -⟩ := accepts_elim s p _ r h
    obtain ⟨-, hpair, -⟩ := request_eq s p r hrequest
    rw [sameInputs_mapDone] at hexec
    obtain ⟨l, o, k, m, c, hb, d, hframe⟩ := mapDone_frame (s.accepted r) r
    refine ⟨_, hexec, ?frame, ?pairs, ?windows, ?drains, fun q hlo hhi => ?inside, fun q hq => ?outside,
      fun i g c w x hi hop hentry howner hx => ?cleared⟩
    case frame => rw [hframe]; rfl
    case pairs => rw [hframe]
    case windows => rw [hframe]; rfl
    case drains =>
      rw [hframe, hpair]
      simp only [mapRange, List.map_map]
      rfl
    case inside =>
      have hq := (mem_mapRange r q).mpr ⟨hlo, hhi⟩
      exact ⟨(xentry_mapDone _ r q).trans (if_pos hq), cached_mapDone _ r q hq⟩
    case outside => exact (xentry_mapDone _ r q).trans (if_neg (by rw [mem_mapRange]; omega))
    case cleared =>
      have hv : i + fld r.body 0 4 ∈ mapRange r := (mem_mapRange r _).mpr ⟨by omega, by omega⟩
      have hnew : (s.accepted r).mapNew r (i + fld r.body 0 4) = .hbm g c w := by
        rw [State.mapNew, if_pos hop, Nat.add_sub_cancel]
        exact hentry
      exact hbmGet_mapDone (s := s.accepted r) hv (by rw [hnew]; rfl) howner hx
  case ends =>
    rw [exec_translationDrainComplete hp (on_of_firmwareActs s hfw), drainDone_drained s p hfw hdrain hall]
    rfl
  case waits => exact exec_translationDrainComplete_idle hp (drainDone_not_drained hd hpair hheld)
  case none => exact exec_translationDrainComplete_idle hp (drainDone_no_drain hnone)
  case bits =>
    cases e with
    | invalid l => exact absurd rfl (hvalid l)
    | hbm f c w => exact parseXEntry_hbm_bits f c w (hhbm f c w rfl).1 (hhbm f c w rfl).2
    | host p f w => exact parseXEntry_host_bits p f w (hhost p f w rfl).1 (hhost p f w rfl).2

/-- Settles O41: a message is refused at its first failing check or takes its effect, and a frame that comes to another function is
cleared before its entry is written. -/
theorem translationMessages : Obligations.TranslationMessages := ⟨windowOutcomes, mapOutcomes⟩

end Sys2Proof.Machine

/-! SUPPORT. Proofs about the pseudo-channel controllers: the look-up of a request, the queues, the choice of R293, what a performed
request leaves, and ageing, refresh and stack readings. -/

namespace Sys2Proof.Machine

/-! ## Sectors of HBM (R282, R284) -/

/-- The first byte of a sector of a pseudo-channel. -/
def sectorBase (p sector : Nat) : Nat := (p * 12582912 + sector) * 64

theorem inSector_iff {p sector : Nat} (h : sector < 12582912) (x : Nat) :
    (sectorBase p sector ≤ x ∧ x < sectorBase p sector + 64) ↔ x / 805306368 = p ∧ sectorOf x = sector := by
  simp only [sectorBase, sectorOf]
  omega

theorem sub_sectorBase {p sector x : Nat} (h : sectorBase p sector ≤ x ∧ x < sectorBase p sector + 64) :
    x - sectorBase p sector = x % 64 := by
  simp only [sectorBase] at h ⊢
  omega

theorem frame_sectorBase (p f o : Nat) : frameKey p f * 4096 + o * 64 = sectorBase p (f * 64 + o) := by
  simp only [frameKey, sectorBase]
  omega

theorem sector_sectorBase (p sector : Nat) : frameKey p (sector / 64) * 4096 + sector % 64 * 64 = sectorBase p sector := by
  simp only [frameKey, sectorBase]
  omega

/-! ## Updates that leave the queued writes -/

theorem queuedWrite_congr {c d : Chan} (h : c.wq = d.wq) (sector : Nat) : queuedWrite c sector = queuedWrite d sector := by
  rw [queuedWrite, queuedWrite, h]

theorem wq_setChan (s : State) (p q : Nat) {f : Chan → Chan} (hf : ∀ c, (f c).wq = c.wq) :
    ((s.setChan p f).chan q).wq = (s.chan q).wq := by
  by_cases hq : q = p
  · subst hq
    exact (getD_lMod_part s.chans q f Chan.reset Chan.wq (hf _)).trans (hf _)
  · rw [State.chan_setChan_other _ _ _ _ hq]

theorem hbmGet_setChan (s : State) (p : Nat) {f : Chan → Chan} (hf : ∀ c, (f c).wq = c.wq) (x : Nat) :
    (s.setChan p f).hbmGet x = s.hbmGet x :=
  hbmGet_congr (queuedWrite_congr (wq_setChan s p _ hf) _) rfl

/-! ## The look-up of a request (R285) -/

theorem enterRead_frame (s : State) (p : Nat) (who : MemUser) (sector cls : Nat) (spec : Bool) : ∃ c o,
    s.enterRead p who sector cls spec = { s with chans := c, out := o } ∧ c.length = s.chans.length := by
  unfold State.enterRead
  dsimp only
  split
  · exact ⟨s.chans, _, rfl, rfl⟩
  · split <;> exact ⟨_, s.out, rfl, length_lMod _ _ _⟩

theorem hbmGet_enterRead (s : State) (p : Nat) (who : MemUser) (sector cls : Nat) (spec : Bool) (x : Nat) :
    (s.enterRead p who sector cls spec).hbmGet x = s.hbmGet x := by
  unfold State.enterRead
  dsimp only
  split
  · rfl
  · split <;> exact hbmGet_setChan s p (by exact fun _ => rfl) x

/-- A sector that stands in the cache with all its entries holds the page's entry. -/
theorem cached_of_mem {s : State} {v : Nat} (h : (v / 8, 255) ∈ s.xlt.cache) : s.cached v = true := by
  have hbit : bit 255 (v % 8) = true := by
    rw [bit_eq_testBit]
    exact (by decide : ∀ i, i < 8 → Nat.testBit 255 i = true) _ (Nat.mod_lt _ (by decide))
  exact List.any_eq_true.mpr ⟨_, h, by simp [hbit]⟩

theorem cached_fillCache (s : State) (v : Nat) : (s.fillCache v).cached v = true := by
  apply cached_of_mem
  unfold State.fillCache
  dsimp only
  split
  · next hplace =>
    obtain ⟨c, hc, hsector⟩ := List.any_eq_true.mp hplace
    have hv : c.1 = v / 8 := of_decide_eq_true hsector
    exact List.mem_map.mpr ⟨c, hc, by rw [if_pos hv, hv]⟩
  · split
    · exact List.mem_append_right _ List.mem_cons_self
    · next hfull => exact List.mem_set (lt_of_lt_of_le (Nat.mod_lt _ (by decide)) (not_lt.mp hfull)) _

theorem misses_fillCache (s : State) (v : Nat) : (s.fillCache v).xlt.misses = s.xlt.misses := by
  unfold State.fillCache
  dsimp only
  split
  · rfl
  · split <;> rfl

/-- A look-up that misses counts the miss and caches the page's entry. -/
theorem touch_miss {s : State} {v : Nat} (h : s.cached v = false) :
    (s.touch v).xlt.misses = (s.xlt.misses + 1) % M48 ∧ (s.touch v).cached v = true := by
  have htouch : s.touch v = (s.fillCache v).setXlt (fun x => { x with misses := (x.misses + 1) % M48 }) := if_neg (by simp [h])
  rw [htouch]
  exact ⟨by rw [State.setXlt_xlt, misses_fillCache], cached_fillCache s v⟩

/-- The read of the table's sector that a miss of page v makes, before the entry is cached. -/
def State.readTable (s : State) (r : MemReq) : State :=
  let a := s.tableSector (pageOf r.addr)
  if s.present a.1 then s.enterRead a.1 .table a.2 r.cls r.spec else s

theorem lookUp_cached {s : State} {r : MemReq} (h : s.cached (pageOf r.addr) = true) : s.lookUp r = s := if_pos h

theorem lookUp_miss {s : State} {r : MemReq} {f p : Nat} {w : Bool} (h : s.cached (pageOf r.addr) = false)
    (hx : s.xentry (pageOf r.addr) = .hbm f p w) : s.lookUp r = (s.readTable r).touch (pageOf r.addr) := by
  unfold State.lookUp State.readTable
  dsimp only
  rw [if_neg (by simp [h]), hx]
  cases r.spec <;> rfl

theorem readTable_frame (s : State) (r : MemReq) : ∃ c o,
    s.readTable r = { s with chans := c, out := o } ∧ c.length = s.chans.length := by
  unfold State.readTable
  dsimp only
  split
  · exact enterRead_frame s _ _ _ _ _
  · exact ⟨s.chans, s.out, rfl, rfl⟩

theorem hbmGet_readTable (s : State) (r : MemReq) (x : Nat) : (s.readTable r).hbmGet x = s.hbmGet x := by
  unfold State.readTable
  dsimp only
  split
  · exact hbmGet_enterRead s _ _ _ _ _ x
  · rfl

theorem touch_chans (s : State) (v : Nat) : (s.touch v).chans = s.chans := by
  obtain ⟨c, m, d, htouch⟩ := touch_frame s v
  rw [htouch]

theorem hbmGet_touch (s : State) (v x : Nat) : (s.touch v).hbmGet x = s.hbmGet x := by
  obtain ⟨c, m, d, htouch⟩ := touch_frame s v
  rw [htouch]
  rfl

section
variable {s : State} {r : MemReq} {f p : Nat} {w : Bool} (hx : s.xentry (pageOf r.addr) = .hbm f p w)
include hx

/-- A look-up changes the cache, the count of misses, the draw of a victim, the queues of reads and, at most, the data on the output. -/
theorem lookUp_frame : ∃ k m d c o, s.lookUp r =
      { s with xlt := { s.xlt with cache := k, misses := m }, free := d, chans := c, out := o } ∧ c.length = s.chans.length := by
  cases h : s.cached (pageOf r.addr) with
  | true => exact ⟨s.xlt.cache, s.xlt.misses, s.free, s.chans, s.out, lookUp_cached h, rfl⟩
  | false =>
    obtain ⟨c, o, hread, hlen⟩ := readTable_frame s r
    obtain ⟨k, m, d, htouch⟩ := touch_frame (s.readTable r) (pageOf r.addr)
    exact ⟨k, m, d, c, o, by rw [lookUp_miss h hx, htouch, hread], hlen⟩

theorem hbmGet_lookUp (x : Nat) : (s.lookUp r).hbmGet x = s.hbmGet x := by
  cases h : s.cached (pageOf r.addr) with
  | true => rw [lookUp_cached h]
  | false => rw [lookUp_miss h hx, hbmGet_touch, hbmGet_readTable]

theorem lookUp_counts (h : s.cached (pageOf r.addr) = false) :
    (s.lookUp r).xlt.misses = (s.xlt.misses + 1) % M48 ∧ (s.lookUp r).cached (pageOf r.addr) = true := by
  obtain ⟨c, o, hread, -⟩ := readTable_frame s r
  have hmiss : (s.readTable r).cached (pageOf r.addr) = false := by
    rw [hread]
    exact h
  have hcount := touch_miss hmiss
  rw [lookUp_miss h hx]
  rw [show (s.readTable r).xlt = s.xlt by rw [hread]] at hcount
  exact hcount

/-- A miss reads its sector of the table in the request's class. -/
theorem rq_lookUp (h : s.cached (pageOf r.addr) = false) (hp : s.present (s.tableSector (pageOf r.addr)).1 = true)
    (hq : queuedWrite (s.chan (s.tableSector (pageOf r.addr)).1) (s.tableSector (pageOf r.addr)).2 = none)
    (hl : (s.chan (s.tableSector (pageOf r.addr)).1).rq.length < 128) :
    ((s.lookUp r).chan (s.tableSector (pageOf r.addr)).1).rq = (s.chan (s.tableSector (pageOf r.addr)).1).rq ++
      [{ who := .table, sector := (s.tableSector (pageOf r.addr)).2, cls := r.cls, at_ := s.now, spec := r.spec, aged := false,
         held := false }] := by
  rw [lookUp_miss h hx, State.chan, touch_chans, State.readTable, if_pos hp, enterRead_room s _ _ _ _ _ hq hl]
  exact congrArg Chan.rq (State.chan_setChan s _ _ (present_elim s _ hp).2)

end

/-! ## Writes enter their queue (R292) -/

theorem bit_or (a b i : Nat) : bit (a ||| b) i = (bit a i || bit b i) := by
  simp only [bit_eq_testBit, Nat.testBit_or]

theorem bit_mod_two_pow {n i : Nat} (m : Nat) (h : i < n) : bit (m % 2 ^ n) i = bit m i := by
  simp [bit_eq_testBit, Nat.testBit_mod_two_pow, h]

theorem mergeWrite_byte (w : WriteReq) (mask : Nat) (data : List Byte) {i : Nat} (h : i < 64) :
    (mergeWrite w mask data).data.getD i 0 = if bit mask i = true then data.getD i 0 else w.data.getD i 0 := by
  simp [mergeWrite, h]

section
variable (c : Chan) (now sector cls mask : Nat) (data : List Byte)

theorem enterWrite_merges {w : WriteReq} (h : queuedWrite c sector = some w) : c.enterWrite now sector cls mask data =
    { c with wq := c.wq.map (fun w => if w.sector = sector then mergeWrite w mask data else w) } := by
  simp only [Chan.enterWrite, h]

theorem enterWrite_enters (h : queuedWrite c sector = none) (hroom : c.wq.length < 64) : c.enterWrite now sector cls mask data =
    drainFlag { c with wq := c.wq ++ [{ sector := sector, cls := cls, at_ := now, mask := mask, data := data, aged := false }] } := by
  simp only [Chan.enterWrite, h, if_neg (not_le.mpr hroom)]

theorem enterWrite_waits (h : queuedWrite c sector = none) (hfull : 64 ≤ c.wq.length) : c.enterWrite now sector cls mask data =
    { c with waiting := c.waiting ++
      [{ write := true, who := .hub, sector := sector, cls := cls, mask := mask, data := data, spec := false }] } := by
  simp only [Chan.enterWrite, h, if_pos hfull]

/-- An update of the queued writes that keeps their sectors keeps which of them a sector finds. -/
theorem queuedWrite_map {g : WriteReq → WriteReq} (hg : ∀ w, (g w).sector = w.sector) (t : Nat) :
    queuedWrite { c with wq := c.wq.map g } t = (queuedWrite c t).map g := by
  have hs : (fun w : WriteReq => decide (w.sector = t)) ∘ g = fun w => decide (w.sector = t) := by
    funext w
    simp [hg]
  simp only [queuedWrite, List.find?_map, hs]

theorem queuedWrite_sector {t : Nat} {w : WriteReq} (h : queuedWrite c t = some w) : w.sector = t := by
  simpa using List.find?_some h

/-- A merge puts the newer bytes into the queued write of its sector. -/
theorem queuedWrite_enterWrite_merges {w : WriteReq} (h : queuedWrite c sector = some w) (t : Nat) :
    queuedWrite (c.enterWrite now sector cls mask data) t = if t = sector then some (mergeWrite w mask data) else queuedWrite c t := by
  rw [enterWrite_merges c now sector cls mask data h,
    queuedWrite_map c (g := fun w => if w.sector = sector then mergeWrite w mask data else w) (fun w => by split <;> rfl)]
  by_cases ht : t = sector
  · rw [if_pos ht, ht, h, Option.map_some, if_pos (queuedWrite_sector c h)]
  · rw [if_neg ht]
    cases hq : queuedWrite c t with
    | none => rfl
    | some v => rw [Option.map_some, if_neg (fun hv => ht ((queuedWrite_sector c hq).symm.trans hv))]

theorem queuedWrite_enterWrite_enters (h : queuedWrite c sector = none) (hroom : c.wq.length < 64) (t : Nat) :
    queuedWrite (c.enterWrite now sector cls mask data) t =
      if t = sector then some { sector := sector, cls := cls, at_ := now, mask := mask, data := data, aged := false }
      else queuedWrite c t := by
  rw [enterWrite_enters c now sector cls mask data h hroom]
  unfold queuedWrite at h ⊢
  simp only [drainFlag, List.find?_append]
  by_cases ht : t = sector
  · simp [ht, h]
  · simp [ht, Ne.symm ht]

end

/-- A write that its controller's queue takes is what every later read of its sector sees, byte by byte of its mask (R292). -/
theorem hbmGet_enterWrite {s : State} {p sector : Nat} (now cls mask : Nat) (data : List Byte) (hp : p < s.chans.length)
    (hroom : (s.chan p).wq.length < 64 ∨ (queuedWrite (s.chan p) sector).isSome = true) (x : Nat) :
    (s.setChan p (fun c => c.enterWrite now sector cls mask data)).hbmGet x =
      if x / 805306368 = p ∧ sectorOf x = sector ∧ bit mask (x % 64) = true then data.getD (x % 64) 0 else s.hbmGet x := by
  by_cases hchan : x / 805306368 = p
  swap
  · rw [if_neg (fun h => hchan h.1)]
    exact hbmGet_congr (by rw [State.chan_setChan_other _ _ _ _ hchan]) rfl
  subst hchan
  have hafter := State.chan_setChan s (x / 805306368) (fun c => c.enterWrite now sector cls mask data) hp
  by_cases hsector : sectorOf x = sector
  swap
  · have hkeep : queuedWrite ((s.chan (x / 805306368)).enterWrite now sector cls mask data) (sectorOf x) =
        queuedWrite (s.chan (x / 805306368)) (sectorOf x) := by
      cases hq : queuedWrite (s.chan (x / 805306368)) sector with
      | some w => rw [queuedWrite_enterWrite_merges _ now sector cls mask data hq, if_neg hsector]
      | none =>
        have hlen := hroom.resolve_right (by simp [hq])
        rw [queuedWrite_enterWrite_enters _ now sector cls mask data hq hlen, if_neg hsector]
    rw [if_neg (fun h => hsector h.2.1)]
    exact hbmGet_congr (by rw [hafter, hkeep]) rfl
  subst hsector
  cases hq : queuedWrite (s.chan (x / 805306368)) (sectorOf x) with
  | some w =>
    have hnew := queuedWrite_enterWrite_merges _ now _ cls mask data hq (sectorOf x)
    rw [if_pos rfl, ← hafter] at hnew
    rw [hbmGet_queued hnew, hbmGet_queued hq, mergeWrite_byte w mask data (Nat.mod_lt x (by decide))]
    cases hbit : bit mask (x % 64) <;> simp [mergeWrite, bit_or, hbit]
  | none =>
    have hnew := queuedWrite_enterWrite_enters _ now _ cls mask data hq (hroom.resolve_right (by simp [hq])) (sectorOf x)
    rw [if_pos rfl, ← hafter] at hnew
    rw [hbmGet_queued hnew, hbmGet_not_queued hq]
    simp only [true_and, State.setChan_hbm]

/-! ## Reads enter their queue (R292) -/

/-- A read whose sector is queued whole is answered from the queue. -/
theorem enterRead_answered {s : State} {p sector : Nat} {w : WriteReq} (who : MemUser) (cls : Nat) (spec : Bool)
    (hq : queuedWrite (s.chan p) sector = some w) (hmask : w.mask = 0xffffffffffffffff) :
    s.enterRead p who sector cls spec = s.setOut (fun o => { o with data := w.data }) := by
  have hfull : (queuedWrite (s.chan p) sector).filter (fun w => w.mask = fullMask) = some w := by
    simp [hq, hmask, fullMask]
  simp only [State.enterRead, hfull]

theorem filter_not_full {s : State} {p sector : Nat}
    (hq : ∀ w, queuedWrite (s.chan p) sector = some w → w.mask ≠ 0xffffffffffffffff) :
    (queuedWrite (s.chan p) sector).filter (fun w => w.mask = fullMask) = none := by
  cases h : queuedWrite (s.chan p) sector with
  | none => rfl
  | some w => simp [fullMask, hq w h]

/-- Any other read enters a queue that has room, held when a write of part of its sector is queued. -/
theorem enterRead_enters {s : State} {p sector : Nat} (who : MemUser) (cls : Nat) (spec : Bool)
    (hq : ∀ w, queuedWrite (s.chan p) sector = some w → w.mask ≠ 0xffffffffffffffff) (hl : (s.chan p).rq.length < 128) :
    s.enterRead p who sector cls spec = s.setChan p (fun d => { d with
      rq := d.rq ++ [{ who := who, sector := sector, cls := cls, at_ := s.now, spec := spec, aged := false,
                       held := (queuedWrite (s.chan p) sector).isSome }] }) := by
  simp only [State.enterRead, filter_not_full hq, if_neg (not_le.mpr hl)]
  exact State.setChan_congr s p _ _ rfl

theorem enterRead_waits {s : State} {p sector : Nat} (who : MemUser) (cls : Nat) (spec : Bool)
    (hq : queuedWrite (s.chan p) sector = none) (hl : 128 ≤ (s.chan p).rq.length) :
    s.enterRead p who sector cls spec = s.setChan p (fun d => { d with waiting := d.waiting ++
      [{ write := false, who := who, sector := sector, cls := cls, mask := 0, data := [], spec := spec }] }) := by
  simp only [State.enterRead, hq, Option.filter_none, if_pos hl]

/-! ## The memory request -/

section
variable {s : State} {r : MemReq} {f p : Nat} {w : Bool} (hon : s.on = true) (ha : r.addr < 0x1000000000) (hcls : r.cls < 4)
  (hx : s.xentry (r.addr / 4096) = .hbm f p w) (hp : s.present p = true)

include hx hp in
theorem memRequest_eq : s.memRequest r =
    if r.write = true then
      if w = true then (s.lookUp r).setChan p (fun c => c.enterWrite s.now (f * 64 + r.addr % 4096 / 64) r.cls
        (r.mask % 0x10000000000000000) (padTo 64 r.data)) else s.lookUp r
    else (s.lookUp r).enterRead p r.who (f * 64 + r.addr % 4096 / 64) r.cls r.spec := by
  unfold State.memRequest
  simp only [pageOf, hx, hp, Bool.not_true, Bool.false_eq_true, if_false]
  rfl

include hon ha hcls hx hp in
/-- What a memory request answers, and no part of it changes the inputs. -/
theorem exec_memRequest : exec (.memRequest r) s = .next (s.memRequest r) := by
  have hexec : exec (.memRequest r) s = .next (s.sameInputs (s.memRequest r)) := on_next s _ hon _ (by simp [ha, hcls])
  obtain ⟨k, m, d, c, o, hlook, -⟩ := lookUp_frame (r := r) hx
  obtain ⟨c', o', henter, -⟩ := enterRead_frame (s.lookUp r) p r.who (f * 64 + r.addr % 4096 / 64) r.cls r.spec
  rw [hexec, memRequest_eq hx hp, henter, hlook]
  split
  · split <;> rfl
  · rfl

end

theorem memoryRequest : Claims.MemoryRequest := by
  intro s r f p w hon ha hcls hx hp hf
  have hexec := exec_memRequest hon ha hcls hx hp
  rw [memRequest_eq hx hp] at hexec
  obtain ⟨k, m, d, cs, o, hlook, hlen⟩ := lookUp_frame (r := r) hx
  have hnow : (s.lookUp r).now = s.now := by rw [hlook]; rfl
  have hlt : p < (s.lookUp r).chans.length := by rw [hlook]; exact hlen ▸ (present_elim s p hp).2
  refine ⟨lookUp_cached, fun hmiss => ⟨(lookUp_counts hx hmiss).1, (lookUp_counts hx hmiss).2, rq_lookUp hx hmiss⟩,
    fun hw hwrite hroom => ?taken, fun hw hwrite hfull hq => ?waits, fun hw hwrite => ?readOnly, fun q hr hq hmask => ?answered,
    fun hr hq hroom => ?enters, fun hr hq hfull => ?readWaits⟩
  case taken =>
    have hbytes := hbmGet_enterWrite s.now r.cls (r.mask % 0x10000000000000000) (padTo 64 r.data) hlt hroom
    have hsector := inSector_iff (p := p) (sector := f * 64 + r.addr % 4096 / 64) (by omega)
    rw [if_pos hw, if_pos hwrite] at hexec
    refine ⟨_, hexec, rfl, ?_⟩
    simp only [frame_sectorBase]
    refine ⟨fun i hi => ?_, fun x hout => ?_⟩
    · have hin : sectorBase p (f * 64 + r.addr % 4096 / 64) ≤ sectorBase p (f * 64 + r.addr % 4096 / 64) + i ∧
          sectorBase p (f * 64 + r.addr % 4096 / 64) + i < sectorBase p (f * 64 + r.addr % 4096 / 64) + 64 := by omega
      obtain ⟨hchan, hsec⟩ := (hsector _).mp hin
      have hoff := sub_sectorBase hin
      rw [Nat.add_sub_cancel_left] at hoff
      have hbit : bit (r.mask % 0x10000000000000000) i = bit r.mask i := bit_mod_two_pow (n := 64) r.mask hi
      rw [hbytes, hbmGet_lookUp hx, ← hoff, hbit]
      simp only [hchan, hsec, true_and]
    · rw [hbytes, hbmGet_lookUp hx, if_neg (fun h => by
        have hin := (hsector x).mpr ⟨h.1, h.2.1⟩
        omega)]
  case waits =>
    rw [if_pos hw, if_pos hwrite] at hexec
    rw [hexec]
    exact congrArg _ (State.setChan_congr _ p _ _ (enterWrite_waits _ _ _ _ _ _ hq hfull))
  case readOnly => rw [hexec, if_pos hw, if_neg (by simp [hwrite])]
  case answered => rw [hexec, if_neg (by simp [hr]), enterRead_answered _ _ _ hq hmask]
  case enters => rw [hexec, if_neg (by simp [hr]), enterRead_enters _ _ _ hq hroom, hnow]
  case readWaits => rw [hexec, if_neg (by simp [hr]), enterRead_waits _ _ _ hq hfull]

/-! ## The choice of R293 -/

/-- The place of a candidate in the order of R293: promoted ones first, by age only, then by class, open row and age. -/
def SchedCand.rank (a : SchedCand) : Bool ×ₗ Nat ×ₗ Bool ×ₗ Nat :=
  if a.aged = true then toLex (false, toLex (0, toLex (false, a.at_))) else toLex (true, toLex (a.cls, toLex (!a.isOpen, a.at_)))

theorem before_iff_rank (a b : SchedCand) : a.before b = true ↔ a.rank < b.rank := by
  unfold SchedCand.before SchedCand.rank
  cases a.aged <;> cases b.aged
  case false.false =>
    by_cases hcls : a.cls = b.cls
    · cases a.isOpen <;> cases b.isOpen <;> simp [hcls, Prod.Lex.toLex_lt_toLex]
    · simp [hcls, Prod.Lex.toLex_lt_toLex]
  all_goals simp [Prod.Lex.toLex_lt_toLex]

theorem before_eq_false_iff_rank (a b : SchedCand) : a.before b = false ↔ b.rank ≤ a.rank := by
  rw [← Bool.not_eq_true, before_iff_rank, not_lt]

theorem firstSched_eq_none {l : List SchedCand} (h : firstSched l = none) : l = [] := by
  cases l with
  | nil => rfl
  | cons a t =>
    rw [firstSched] at h
    split at h
    · cases h
    · split at h <;> cases h

/-- The request that is chosen ranks first among the candidates. -/
theorem firstSched_le (l : List SchedCand) (k : SchedCand) (h : firstSched l = some k) : ∀ x, x ∈ l → k.rank ≤ x.rank := by
  induction l generalizing k with
  | nil => cases h
  | cons a t ih =>
    rw [firstSched] at h
    cases hb : firstSched t with
    | none =>
      obtain rfl : a = k := by simpa [hb] using h
      simp [firstSched_eq_none hb]
    | some b =>
      have hrest := ih b hb
      simp only [hb] at h
      intro x hx
      split at h
      · next hbefore =>
        obtain rfl : b = k := by simpa using h
        rcases List.mem_cons.mp hx with rfl | hx
        · exact ((before_iff_rank b x).mp hbefore).le
        · exact hrest x hx
      · next hbefore =>
        obtain rfl : a = k := by simpa using h
        rcases List.mem_cons.mp hx with rfl | hx
        · exact le_rfl
        · exact ((before_eq_false_iff_rank b a).mp (by simpa using hbefore)).trans (hrest x hx)

/-! ## Promotion (R293) -/

theorem wq_promote (s : State) (p : Nat) (h : p < s.chans.length) :
    ((s.promote p).chan p).wq = (s.chan p).wq.map (fun w => { w with aged := w.aged || s.overAge w.at_ }) := by
  rw [State.promote, State.chan_setChan _ _ _ h]

theorem promote_wq_aged (s : State) (p : Nat) (h : p < s.chans.length) (w : WriteReq) (hw : w ∈ ((s.promote p).chan p).wq)
    (hold : s.now > w.at_ + 1000 * s.xlt.ageLimit) : w.aged = true := by
  rw [wq_promote s p h] at hw
  obtain ⟨v, -, rfl⟩ := List.mem_map.mp hw
  have hover : s.overAge v.at_ = true := decide_eq_true hold
  simp [hover]

/-- A promotion finds the same queued write of a sector, and marks it. -/
theorem queuedWrite_promote (s : State) (p : Nat) (h : p < s.chans.length) (sector : Nat) : queuedWrite ((s.promote p).chan p) sector =
    (queuedWrite (s.chan p) sector).map (fun w => { w with aged := w.aged || s.overAge w.at_ }) :=
  (queuedWrite_congr (d := { s.chan p with wq := (s.chan p).wq.map (fun w => { w with aged := w.aged || s.overAge w.at_ }) })
    (wq_promote s p h) sector).trans
    (queuedWrite_map (s.chan p) (g := fun w => { w with aged := w.aged || s.overAge w.at_ }) (fun _ => rfl) sector)

theorem queuedWrite_promote_none (s : State) (p : Nat) (h : p < s.chans.length) (sector : Nat) :
    queuedWrite ((s.promote p).chan p) sector = none ↔ queuedWrite (s.chan p) sector = none := by
  rw [queuedWrite_promote s p h, Option.map_eq_none_iff]

theorem hbmGet_promote (s : State) (p : Nat) (h : p < s.chans.length) (x : Nat) : (s.promote p).hbmGet x = s.hbmGet x := by
  by_cases hp : x / 805306368 = p
  · have hq := queuedWrite_promote s p h (sectorOf x)
    rw [← hp] at hq ⊢
    cases hs : queuedWrite (s.chan (x / 805306368)) (sectorOf x) with
    | none =>
      rw [hs] at hq
      rw [hbmGet_not_queued hs, hbmGet_not_queued hq]
      rfl
    | some w =>
      rw [hs] at hq
      rw [hbmGet_queued hs, hbmGet_queued hq]
      rfl
  · exact hbmGet_congr (by rw [State.promote, State.chan_setChan_other _ _ _ _ hp]) rfl

/-- When nothing over the age limit is unmarked, a promotion counts nothing. -/
theorem promoted_promote (s : State) (p : Nat) (h : p < s.chans.length)
    (hr : ∀ r, r ∈ (s.chan p).rq → s.overAge r.at_ = true → r.aged = true)
    (hw : ∀ w, w ∈ (s.chan p).wq → s.overAge w.at_ = true → w.aged = true) (hlt : (s.chan p).promoted < M48) :
    ((s.promote p).chan p).promoted = (s.chan p).promoted := by
  have hrq : (s.chan p).rq.filter (fun r => s.overAge r.at_ && !r.aged) = [] :=
    List.filter_eq_nil_iff.mpr (fun r hmem hover => by simp [hr r hmem (by simp_all)] at hover)
  have hwq : (s.chan p).wq.filter (fun w => s.overAge w.at_ && !w.aged) = [] :=
    List.filter_eq_nil_iff.mpr (fun w hmem hover => by simp [hw w hmem (by simp_all)] at hover)
  rw [State.promote, State.chan_setChan _ _ _ h]
  simp [hrq, hwq, Nat.mod_eq_of_lt hlt]

/-! ## A performed read -/

/-- A read has left its queue, and the row that it used is open. -/
def Chan.readOut (c : Chan) (r : ReadReq) : Chan :=
  { c with rq := c.rq.erase r, openRow := aSet c.openRow (Config.bankOf r.sector) (Config.rowOf r.sector) }

/-- A read that the stack answers stands for a queued one, which leaves its queue; what waits enters, and its requester has the bytes. -/
theorem performReq_read {s : State} {p : Nat} {k : SchedCand} (hk : k ∈ (s.chan p).candidates) (hw : k.write = false) :
    ∃ r ∈ (s.chan p).rq, r.sector = k.sector ∧ s.performReq p k .ok =
      ((s.setChan p (Chan.readOut · r)).admitHeld p).readDone r.who (memRead hbmDefault s.hbm (sectorBase p k.sector) 64) := by
  obtain ⟨q, hq, hh, hsec, hat, hcls⟩ := candidates_read _ k hk hw
  cases hf : (s.chan p).rq.find? (fun r => r.sector = k.sector && r.at_ = k.at_ && r.cls = k.cls && !(s.chan p).holds r) with
  | none =>
    have hnone := List.find?_eq_none.mp hf q hq
    simp [hh, hsec, hat, hcls] at hnone
  | some r =>
    have hsector : r.sector = k.sector := by
      have hfound := List.find?_some hf
      simp only [Bool.and_eq_true, decide_eq_true_eq] at hfound
      obtain ⟨⟨⟨hsector, -⟩, -⟩, -⟩ := hfound
      exact hsector
    refine ⟨r, List.mem_of_find?_eq_some hf, hsector, ?_⟩
    unfold State.performReq
    simp only [hw, Bool.false_eq_true, if_false, hf, outcomeData, if_true, State.afterOutcome, sector_sectorBase]
    simp only [Chan.readOut, hsector, countOutcome]

theorem readDone_frame (s : State) (who : MemUser) (data : List Byte) : ∃ o, s.readDone who data = { s with out := o } := by
  unfold State.readDone
  split
  · exact ⟨s.out, rfl⟩
  · exact ⟨_, rfl⟩

/-- The waiting read of a pseudo-channel enters the queue of reads that has room. -/
theorem admitHeld_read {s : State} {p : Nat} {h : HeldReq} (hp : p < s.chans.length) (hwait : (s.chan p).waiting = [h])
    (hread : h.write = false) (hq : queuedWrite (s.chan p) h.sector = none) (hroom : (s.chan p).rq.length < 128) :
    (s.admitHeld p).chan p = { s.chan p with
      waiting := []
      rq := (s.chan p).rq ++ [{ who := h.who, sector := h.sector, cls := h.cls, at_ := s.now, spec := h.spec, aged := false,
                                held := false }] } := by
  have hchan := State.chan_setChan s p (fun c => { c with waiting := [] }) hp
  have hroom' : ((s.setChan p (fun c => { c with waiting := [] })).chan p).rq.length < 128 := by rwa [hchan]
  have hq' : queuedWrite ((s.setChan p (fun c => { c with waiting := [] })).chan p) h.sector = none := by
    rw [hchan]
    exact hq
  rw [State.admitHeld, hwait, List.foldl_cons, List.foldl_nil, State.enterHeld, if_neg (by simp [hread]),
    enterRead_room _ _ _ _ _ _ hq' hroom', State.chan_setChan _ _ _ (by simpa using hp), hchan]
  rfl

/-! ## A performed write -/

/-- The stack once the first bytes of a performed write stand in it; all 64 are the model's `putMasked`. -/
def putBytes (n : Nat) (m : Mem) (base : Nat) (w : WriteReq) : Mem :=
  (List.range n).foldl (fun m i => if bit w.mask i then memPut hbmDefault m (base + i) (w.data.getD i 0) else m) m

theorem putBytes_succ (n : Nat) (m : Mem) (base : Nat) (w : WriteReq) : putBytes (n + 1) m base w =
    if bit w.mask n = true then memPut hbmDefault (putBytes n m base w) (base + n) (w.data.getD n 0) else putBytes n m base w := by
  rw [putBytes, List.range_succ, List.foldl_append]
  rfl

theorem wf_putBytes (n : Nat) {m : Mem} (base : Nat) (w : WriteReq) (h : Mem.wf hbmDefault m = true) :
    Mem.wf hbmDefault (putBytes n m base w) = true := by
  induction n with
  | zero => exact h
  | succ n ih =>
    rw [putBytes_succ]
    split
    · exact Mem.wf_memPut _ _ _ _ ih
    · exact ih

theorem memGet_putBytes (n : Nat) {m : Mem} (base : Nat) (w : WriteReq) (h : Mem.wf hbmDefault m = true) (x : Nat) :
    memGet hbmDefault (putBytes n m base w) x =
      if (base ≤ x ∧ x < base + n) ∧ bit w.mask (x - base) = true then w.data.getD (x - base) 0 else memGet hbmDefault m x := by
  induction n with
  | zero => rw [if_neg (by omega)]; rfl
  | succ n ih =>
    rw [putBytes_succ]
    by_cases hx : x = base + n
    · subst hx
      rw [Nat.add_sub_cancel_left] at ih ⊢
      rw [if_neg (by omega)] at ih
      split
      · next hbit => rw [memGet_memPut_same _ _ _ _ (wf_putBytes n base w h), if_pos ⟨by omega, hbit⟩]
      · next hbit => rw [ih, if_neg (fun hb => hbit hb.2)]
    · have hrange : (base ≤ x ∧ x < base + (n + 1)) ↔ (base ≤ x ∧ x < base + n) := by omega
      simp only [hrange]
      split
      · rw [memGet_memPut_other _ _ _ _ _ hx, ih]
      · exact ih

/-- A write has left its queue: its row is open, and it holds no read of its sector. -/
def Chan.writeOut (c : Chan) (sector : Nat) : Chan :=
  { drainFlag { c with wq := c.wq.filter (fun x => x.sector != sector), rq := c.rq.map (freeRead sector) } with
    openRow := aSet c.openRow (Config.bankOf sector) (Config.rowOf sector)
    waiting := [] }

theorem queuedWrite_writeOut (c : Chan) (sector t : Nat) :
    queuedWrite (c.writeOut sector) t = if t = sector then none else queuedWrite c t := by
  rw [queuedWrite]
  exact (find_filter_sector c.wq (fun x => x != sector) t).trans (by by_cases ht : t = sector <;> simp [ht, queuedWrite])

theorem State.setChan_setChan (s : State) (p : Nat) (f g : Chan → Chan) : (s.setChan p f).setChan p g = s.setChan p (fun c => g (f c)) := by
  simp only [State.setChan, lMod_lMod]

/-- A candidate that writes stands for a queued write. -/
theorem candidates_write {c : Chan} {k : SchedCand} (hk : k ∈ c.candidates) (hw : k.write = true) :
    ∃ w, queuedWrite c k.sector = some w := by
  rcases List.mem_append.mp hk with hk | hk
  · obtain ⟨r, -, rfl⟩ := List.mem_map.mp hk
    cases hw
  · obtain ⟨w, hmem, rfl⟩ := List.mem_map.mp hk
    exact Option.isSome_iff_exists.mp (List.find?_isSome.mpr ⟨w, (List.mem_filter.mp hmem).1, decide_eq_true rfl⟩)

/-- A write that the stack takes puts its bytes there and leaves its queue. -/
theorem performReq_write {s : State} {p : Nat} {k : SchedCand} {w : WriteReq} (hp : p < s.chans.length) (hw : k.write = true)
    (hq : queuedWrite (s.chan p) k.sector = some w) (hwait : (s.chan p).waiting = []) : s.performReq p k .ok =
      ({ s with hbm := putBytes 64 s.hbm (sectorBase p k.sector) w } : State).setChan p (Chan.writeOut · k.sector) := by
  unfold State.performReq
  simp only [hw, if_true, hq, outcomeData, State.afterOutcome, sector_sectorBase, countOutcome]
  rw [State.setChan_setChan, admitHeld_none, State.setChan_setChan]
  · rfl
  · exact (congrArg Chan.waiting (State.chan_setChan _ p _ hp)).trans hwait

/-- The bytes of a performed write read in the stack as they read in the queue. -/
theorem hbmGet_writeOut {s : State} {p sector : Nat} {w : WriteReq} (hp : p < s.chans.length) (hsector : sector < 12582912)
    (hwf : Mem.wf hbmDefault s.hbm = true) (hq : queuedWrite (s.chan p) sector = some w) (x : Nat) :
    (({ s with hbm := putBytes 64 s.hbm (sectorBase p sector) w } : State).setChan p (Chan.writeOut · sector)).hbmGet x = s.hbmGet x := by
  have hmem := memGet_putBytes 64 (sectorBase p sector) w hwf x
  have hchan : (({ s with hbm := putBytes 64 s.hbm (sectorBase p sector) w } : State).setChan p (Chan.writeOut · sector)).chan p =
      (s.chan p).writeOut sector := State.chan_setChan _ p _ hp
  by_cases hin : x / 805306368 = p ∧ sectorOf x = sector
  · have hrange := (inSector_iff hsector x).mpr hin
    obtain ⟨rfl, rfl⟩ := hin
    have hgone := queuedWrite_writeOut (s.chan (x / 805306368)) (sectorOf x) (sectorOf x)
    rw [if_pos rfl, ← hchan] at hgone
    rw [hbmGet_not_queued hgone, hbmGet_queued hq, ← sub_sectorBase hrange]
    simpa only [hrange, true_and, State.setChan_hbm] using hmem
  · rw [if_neg (fun h => hin ((inSector_iff hsector x).mp h.1))] at hmem
    refine hbmGet_congr ?_ hmem
    by_cases hc : x / 805306368 = p
    · rw [hc, hchan, queuedWrite_writeOut, if_neg (fun h => hin ⟨hc, h⟩)]
    · rw [State.chan_setChan_other _ _ _ _ hc]
      rfl

/-! ## The controller -/

theorem exec_memSchedule {s : State} {p : Nat} (o : MemOutcome) (hon : s.on = true) (hp : p < 64) :
    exec (.memSchedule p o) s = .next (s.sameInputs (s.schedule p o)) := on_next s _ hon _ (decide_eq_true hp)

theorem schedule_idle {s : State} {p : Nat} (o : MemOutcome) (h : s.present p = false ∨ (s.chan p).trained = false) :
    s.schedule p o = s := by
  rcases h with h | h <;> simp [State.schedule, h]

section
variable {s : State} {p : Nat} {k : SchedCand} (hp : s.present p = true) (ht : (s.chan p).trained = true)
  (hk : firstSched ((s.promote p).chan p).candidates = some k)
include hp ht hk

/-- The controller's read: the promoted queue gives up a read of the chosen sector, whose requester has the stack's bytes. -/
theorem schedule_read (hw : k.write = false) : ∃ r ∈ ((s.promote p).chan p).rq, r.sector = k.sector ∧ s.schedule p .ok =
    (((s.promote p).setChan p (Chan.readOut · r)).admitHeld p).readDone r.who (memRead hbmDefault s.hbm (sectorBase p k.sector) 64) := by
  rw [schedule_first s p k .ok hp ht hk]
  exact performReq_read (firstSched_mem _ k hk) hw

/-- A performed read gives its requester the stack's bytes (R292). -/
theorem schedule_read_data (hw : k.write = false) (hwho : ∀ q ∈ (s.chan p).rq, q.sector = k.sector → q.who ≠ .table) :
    (s.schedule p .ok).out.abort = false ∧ (s.schedule p .ok).out.data = memRead hbmDefault s.hbm (sectorBase p k.sector) 64 := by
  obtain ⟨r, hr, hsector, hdone⟩ := schedule_read hp ht hk hw
  rw [(promote_chan s p (present_elim s p hp).2).1] at hr
  obtain ⟨q, hq, rfl⟩ := List.mem_map.mp hr
  rw [hdone, State.readDone, if_neg (hwho q hq hsector)]
  exact ⟨rfl, rfl⟩

/-- With nothing waiting outside the queues a performed read changes no byte that a read sees. -/
theorem hbmGet_schedule_read (hw : k.write = false) (hwait : (s.chan p).waiting = []) (x : Nat) :
    (s.schedule p .ok).hbmGet x = s.hbmGet x := by
  have hlt := (present_elim s p hp).2
  obtain ⟨r, -, -, hdone⟩ := schedule_read hp ht hk hw
  obtain ⟨o, hout⟩ := readDone_frame (((s.promote p).setChan p (Chan.readOut · r)).admitHeld p) r.who
    (memRead hbmDefault s.hbm (sectorBase p k.sector) 64)
  have hnone : (((s.promote p).setChan p (Chan.readOut · r)).chan p).waiting = [] := by
    rw [State.chan_setChan _ _ _ (by simpa [State.promote] using hlt)]
    exact (promote_chan s p hlt).2.trans hwait
  rw [hdone, hout, admitHeld_none _ _ hnone]
  exact (hbmGet_setChan _ p (by exact fun _ => rfl) x).trans
    ((hbmGet_setChan _ p (by exact fun _ => rfl) x).trans (hbmGet_promote s p hlt x))

/-- A read that a full queue held enters as soon as the performed read has made room. -/
theorem schedule_admits {h : HeldReq} (hw : k.write = false) (hwait : (s.chan p).waiting = [h]) (hread : h.write = false)
    (hq : queuedWrite (s.chan p) h.sector = none) (hlen : (s.chan p).rq.length ≤ 128) : ((s.schedule p .ok).chan p).waiting = [] ∧
      ∃ q ∈ ((s.schedule p .ok).chan p).rq, q.sector = h.sector ∧ q.who = h.who ∧ q.cls = h.cls ∧ q.at_ = s.now := by
  have hlt := (present_elim s p hp).2
  have hlt' : p < (s.promote p).chans.length := by simpa [State.promote] using hlt
  obtain ⟨hrq, hpw⟩ := promote_chan s p hlt
  obtain ⟨r, hr, -, hdone⟩ := schedule_read hp ht hk hw
  have hchan := State.chan_setChan (s.promote p) p (Chan.readOut · r) hlt'
  have hroom : (((s.promote p).setChan p (Chan.readOut · r)).chan p).rq.length < 128 := by
    have herase := List.length_erase_of_mem hr
    have hpos := List.length_pos_of_mem hr
    rw [hchan, Chan.readOut, herase]
    rw [hrq, List.length_map] at hpos ⊢
    omega
  have hadmit := admitHeld_read (s := (s.promote p).setChan p (Chan.readOut · r)) (by simpa using hlt')
    (by rw [hchan]; exact hpw.trans hwait) hread (by rw [hchan]; exact (queuedWrite_promote_none s p hlt _).mpr hq) hroom
  rw [hdone, readDone_chan, hadmit]
  exact ⟨rfl, _, List.mem_append_right _ List.mem_cons_self, rfl, rfl, rfl, rfl⟩

/-- A performed write leaves its queue and changes no byte that a read sees. -/
theorem schedule_write (hw : k.write = true) (hwait : (s.chan p).waiting = []) (hsector : k.sector < 12582912)
    (hwf : Mem.wf hbmDefault s.hbm = true) : ((s.schedule p .ok).chan p).rq.length = (s.chan p).rq.length ∧
      queuedWrite ((s.schedule p .ok).chan p) k.sector = none ∧ ∀ x, (s.schedule p .ok).hbmGet x = s.hbmGet x := by
  have hlt := (present_elim s p hp).2
  have hlt' : p < (s.promote p).chans.length := by simpa [State.promote] using hlt
  obtain ⟨hrq, hpw⟩ := promote_chan s p hlt
  obtain ⟨w, hq⟩ := candidates_write (firstSched_mem _ k hk) hw
  have hdone := (schedule_first s p k .ok hp ht hk).trans (performReq_write hlt' hw hq (hpw.trans hwait))
  have hchan : ((s.schedule p .ok).chan p) = ((s.promote p).chan p).writeOut k.sector := by
    rw [hdone]
    exact State.chan_setChan _ p _ hlt'
  refine ⟨?_, ?_, fun x => ?_⟩
  · rw [hchan]
    exact (List.length_map _).trans (by rw [hrq, List.length_map])
  · rw [hchan, queuedWrite_writeOut, if_pos rfl]
  · rw [hdone, hbmGet_writeOut hlt' hsector hwf hq, hbmGet_promote s p hlt]

end

theorem memorySchedule : Claims.MemorySchedule := by
  refine ⟨fun l k h => ⟨firstSched_mem l k h, fun x hx => (before_eq_false_iff_rank x k).mpr (firstSched_le l k h x hx)⟩,
    fun s p o hp hidle => ?idle, fun s p k hon hp ht hk hsector hwf => ⟨fun hw hwait => ?read, fun hw hwait => ?write,
      fun h hw hwait hread hq hlen => ?admits⟩, fun c k hk hw => ?candidate⟩
  case idle =>
    have hexec : exec (.memSchedule p o) s = onUnit (decide (p < 64)) s (s.schedule p o) := rfl
    rw [hexec, schedule_idle o hidle, self_next s _ (decide_eq_true hp)]
  case read =>
    obtain ⟨hhbm, hlen⟩ := schedule_read_ok s p k hp ht hk hw hwait
    refine ⟨_, exec_memSchedule .ok hon (present_elim s p hp).1, hhbm, fun hwho => ?_, hlen, hbmGet_schedule_read hp ht hk hw hwait⟩
    obtain ⟨habort, hdata⟩ := schedule_read_data hp ht hk hw hwho
    refine ⟨habort, hdata, fun hq => hdata.trans (List.map_congr_left fun i hi => ?_)⟩
    have hi64 := List.mem_range.mp hi
    obtain ⟨hchan, hsec⟩ := (inSector_iff (p := p) hsector (sectorBase p k.sector + i)).mp (by omega)
    exact (hbmGet_not_queued (by rw [hchan, hsec]; exact hq)).symm
  case write =>
    exact ⟨_, exec_memSchedule .ok hon (present_elim s p hp).1, schedule_write hp ht hk hw hwait hsector hwf⟩
  case admits =>
    exact ⟨_, exec_memSchedule .ok hon (present_elim s p hp).1, schedule_admits hp ht hk hw hwait hread hq hlen⟩
  case candidate =>
    obtain ⟨q, hq, hfree, hsec, hat, -⟩ := candidates_read c k hk hw
    refine ⟨q, hq, hsec.symm, hat.symm, ?_⟩
    rw [Chan.holds, Bool.and_eq_false_iff] at hfree
    exact hfree.imp_right (fun h => by simpa using h)

/-! ## Ageing, refresh and stack readings (R293, R294) -/

theorem exec_agePromotion {s : State} {p : Nat} (hon : s.on = true) (hp : s.present p = true) :
    exec (.agePromotion p) s = .next (s.promote p) := by
  have hexec : exec (.agePromotion p) s = .next (s.sameInputs (if s.present p then s.promote p else s)) :=
    on_next s _ hon _ (decide_eq_true (present_elim s p hp).1)
  rw [hexec, if_pos hp]
  rfl

theorem exec_refresh (s : State) (p : Nat) : exec (.refresh p) s = onUnit (decide (p < 64)) s (s.refreshNow p) := rfl

theorem refreshNow_idle {s : State} {p : Nat} (h : s.present p = false ∨ 16 * s.now < (s.chan p).nextRef) : s.refreshNow p = s := by
  rcases h with h | h <;> simp [State.refreshNow, h]

theorem exec_stackTempRead (s : State) (k : Nat) (c : Int) :
    exec (.stackTempRead k c) s = onUnit (decide (k < 2)) s (s.stackRead k c) := rfl

/-- The interval that a reading leaves in force: halved above 85 °C, full at 80 °C or below, and else as it was. -/
def fastAfter (fast : Bool) (c : Int) : Bool := if 85 < c then true else if c ≤ 80 then false else fast

theorem stackRead_eq {s : State} {k : Nat} (c : Int) (h : 32 * k < s.n0) : s.stackRead k c = s.setXlt (fun x => { x with
    stackTemp := x.stackTemp.set k c, stackFast := x.stackFast.set k (fastAfter (x.stackFast.getD k false) c) }) := if_pos h

theorem getD_set_self {α : Type} (l : List α) (i : Nat) (x d : α) (h : i < l.length) : (l.set i x).getD i d = x := by
  simp [List.getD_eq_getElem?_getD, h]

theorem set_getD_self {α : Type} (l : List α) (i : Nat) (d : α) : l.set i (l.getD i d) = l := by
  by_cases h : i < l.length
  · rw [List.getD_eq_getElem _ _ h, List.set_getElem_self]
  · exact List.set_eq_of_length_le (not_lt.mp h)

theorem refreshAndAge : Claims.RefreshAndAge := by
  refine ⟨fun s p hon hp => ?promotion, fun s p hp habsent => ?absent, fun s p hon hp ht => ⟨fun hdue => ?due, fun hearly => ?early⟩,
    fun s k c hon hk hfit htemp hfast => ?reading, fun s k c hk hfit => ?noStack⟩
  case promotion =>
    have hlt := (present_elim s p hp).2
    exact ⟨_, exec_agePromotion hon hp, rfl, promote_aged s p hlt, promote_wq_aged s p hlt,
      fun q hq => State.chan_setChan_other _ _ _ _ hq, promoted_promote s p hlt⟩
  case absent =>
    have hage : exec (.agePromotion p) s = onUnit (decide (p < 64)) s (if s.present p then s.promote p else s) := rfl
    rw [hage, if_neg (by simp [habsent]), exec_refresh, refreshNow_idle (.inl habsent), self_next s _ (decide_eq_true hp)]
    exact ⟨rfl, rfl⟩
  case due =>
    rw [exec_refresh, refreshNow_due s p hp ht hdue, on_next s _ hon _ (decide_eq_true (present_elim s p hp).1),
      State.sameInputs_setChan]
  case early =>
    rw [exec_refresh, refreshNow_idle (.inr hearly), self_next s _ (decide_eq_true (present_elim s p hp).1)]
  case reading =>
    rw [exec_stackTempRead, stackRead_eq c hfit, on_next s _ hon _ (decide_eq_true hk), State.sameInputs_setXlt]
    refine ⟨_, rfl, rfl, fun hhot => ?_, fun hcool => ?_, fun hlo hhi => ?_⟩
    · exact (getD_set_self _ _ _ _ hfast).trans (if_pos hhot)
    · exact (getD_set_self _ _ _ _ hfast).trans ((if_neg (by omega)).trans (if_pos hcool))
    · have hsame : fastAfter (s.xlt.stackFast.getD k false) c = s.xlt.stackFast.getD k false := by
        rw [fastAfter, if_neg (by omega), if_neg (by omega)]
      rw [State.setXlt_xlt, hsame, set_getD_self]
  case noStack =>
    have hnone : s.stackRead k c = s := if_neg (by omega)
    rw [exec_stackTempRead, hnone, self_next s _ (decide_eq_true hk)]

/-- Settles O43: a queued write is read before the stack's bytes, the chosen request ranks first, and what is performed leaves every
byte that a read sees as it was. -/
theorem memoryController : Obligations.MemoryController := ⟨memoryRequest, memorySchedule, refreshAndAge⟩

end Sys2Proof.Machine

/-! SUPPORT. Proofs about the codec units: the setup and the stop of decode streams and encode sessions, and their work. -/

namespace Sys2Proof.Machine

/-! ## Streams and sessions under their updates -/

theorem State.stream_setStream (s : State) (n m : Nat) (f : Stream → Stream) :
    (s.setStream n f).stream? m = if m = n then (s.stream? m).map f else s.stream? m := aGet_aMod _ _ _ _

theorem State.ring_setMedia (s : State) (f : Media → Media) (m : Nat) : (s.setMedia f).ring? m = s.ring? m := rfl

theorem stream_of_media {s t : State} (h : t.media = s.media) (n : Nat) : t.stream? n = s.stream? n := by
  rw [State.stream?, h, State.stream?]

/-! ## Decode setup (R326) -/

theorem streamStatus_taken {s : State} (f : Nat) {b : List Byte} (h : (s.stream? (byteAt b 0)).isSome = true) :
    s.streamStatus f b = 0x30 := if_pos (by simp [h])

/-- The stream that a setup asks for. -/
def State.askedStream (s : State) (r : Req) : Stream := streamOf r.fn r.body (s.devRead (fld r.body 24 8) 4096)

/-- The rings of a stream that a setup binds. -/
def Stream.rings (x : Stream) : List (Option Nat) := some x.bits :: x.comp :: x.taps

/-- The state with the stream that a setup makes. -/
def State.withStream (s : State) (r : Req) : State :=
  ((s.touchBlock r.fn (fld r.body 24 8)).mediaRings (s.askedStream r).rings true).setMedia
    (fun m => { m with streams := aSet m.streams (byteAt r.body 0) (s.askedStream r) })

theorem withStream_media (s : State) (r : Req) :
    (s.withStream r).media = { s.media with streams := aSet s.media.streams (byteAt r.body 0) (s.askedStream r) } := by
  rw [State.withStream, State.setMedia_media, mediaRings_media, touchBlock_media]

theorem stream_withStream (s : State) (r : Req) : (s.withStream r).stream? (byteAt r.body 0) = some (s.askedStream r) := by
  rw [State.stream?, withStream_media, aGet_aSet_same]

theorem stream_withStream_other (s : State) (r : Req) {m : Nat} (h : m ≠ byteAt r.body 0) :
    (s.withStream r).stream? m = s.stream? m := by
  rw [State.stream?, withStream_media, aGet_aSet_other _ _ _ _ h, State.stream?]

theorem ring_withStream {s : State} {r : Req} {m : Nat} {g : Ring} (hm : some m ∈ (s.askedStream r).rings) (hg : s.ring? m = some g) :
    (s.withStream r).ring? m = some { g with media := true } := by
  have hbound : (s.touchBlock r.fn (fld r.body 24 8)).ring? m = some g := by rwa [State.ring?, touchBlock_rings]
  rw [State.withStream, State.ring_setMedia, ring_mediaRings true hm hbound]

theorem actDecodeSetup_refused {s : State} {r : Req} (h : s.streamStatus r.fn r.body ≠ 0) :
    actDecodeSetup s r = (s, some (s.streamStatus r.fn r.body, [])) := if_pos (bne_iff_ne.mpr h)

theorem actDecodeSetup_stands {s : State} {r : Req} (h : s.streamStatus r.fn r.body = 0) :
    actDecodeSetup s r = (s.withStream r, some (0, [])) := by
  have hstands : ¬ (s.streamStatus r.fn r.body != 0) = true := by simp [h]
  simp only [actDecodeSetup, if_neg hstands, touchBlock_devRead]
  rfl

theorem exec_decodeSetup_stands {s : State} {p : Nat} {r : Req} (h : s.accepts p 0x0024 r = true)
    (hst : s.streamStatus r.fn r.body = 0) :
    exec (.decodeSetup p) s = .next (s.sameInputs (((s.accepted r).withStream r).answer r 0 [])) :=
  accepted_message_answer s p _ _ r _ _ _ h (actDecodeSetup_stands (s := s.accepted r) hst)

/-! ## Encode setup (R329) -/

theorem sessionStatus_taken {s : State} (f : Nat) {b : List Byte} (h : (s.session? (byteAt b 0)).isSome = true) :
    s.sessionStatus f b = 0x30 := if_pos (by simp [h])

/-- The rings of a session that a setup binds. -/
def Session.rings (x : Session) : List (Option Nat) := [some x.jobs, some x.comp]

/-- The state with the session that a setup makes. -/
def State.withSession (s : State) (r : Req) : State :=
  (s.mediaRings (sessionOf r.fn r.body).rings true).setMedia
    (fun m => { m with sessions := aSet m.sessions (byteAt r.body 0) (sessionOf r.fn r.body) })

theorem withSession_media (s : State) (r : Req) :
    (s.withSession r).media = { s.media with sessions := aSet s.media.sessions (byteAt r.body 0) (sessionOf r.fn r.body) } := by
  rw [State.withSession, State.setMedia_media, mediaRings_media]

theorem session_withSession (s : State) (r : Req) :
    (s.withSession r).session? (byteAt r.body 0) = some (sessionOf r.fn r.body) := by
  rw [State.session?, withSession_media, aGet_aSet_same]

theorem session_withSession_other (s : State) (r : Req) {m : Nat} (h : m ≠ byteAt r.body 0) :
    (s.withSession r).session? m = s.session? m := by
  rw [State.session?, withSession_media, aGet_aSet_other _ _ _ _ h, State.session?]

theorem ring_withSession {s : State} {r : Req} {m : Nat} {g : Ring}
    (hm : m = (sessionOf r.fn r.body).jobs ∨ m = (sessionOf r.fn r.body).comp) (hg : s.ring? m = some g) :
    (s.withSession r).ring? m = some { g with media := true } := by
  have hbound : some m ∈ (sessionOf r.fn r.body).rings := by simpa [Session.rings] using hm
  rw [State.withSession, State.ring_setMedia, ring_mediaRings true hbound hg]

theorem actEncodeSetup_refused {s : State} {r : Req} (h : s.sessionStatus r.fn r.body ≠ 0) :
    actEncodeSetup s r = (s, some (s.sessionStatus r.fn r.body, [])) := if_pos (bne_iff_ne.mpr h)

theorem actEncodeSetup_stands {s : State} {r : Req} (h : s.sessionStatus r.fn r.body = 0) :
    actEncodeSetup s r = (s.withSession r, some (0, [])) := if_neg (by simp [h])

theorem exec_encodeSetup_stands {s : State} {p : Nat} {r : Req} (h : s.accepts p 0x0025 r = true)
    (hst : s.sessionStatus r.fn r.body = 0) :
    exec (.encodeSetup p) s = .next (s.sameInputs (((s.accepted r).withSession r).answer r 0 [])) :=
  accepted_message_answer s p _ _ r _ _ _ h (actEncodeSetup_stands (s := s.accepted r) hst)

/-! ## Stops (R382) -/

theorem freeStream_media {s : State} {n : Nat} {x : Stream} (hx : s.stream? n = some x) :
    (s.freeStream n).media = { s.media with streams := aErase s.media.streams n } := by
  simp only [State.freeStream, hx, State.setMedia_media, mediaRings_media]

theorem freeSession_media {s : State} {n : Nat} {x : Session} (hx : s.session? n = some x) :
    (s.freeSession n).media = { s.media with sessions := aErase s.media.sessions n } := by
  simp only [State.freeSession, hx, State.setMedia_media, mediaRings_media]

theorem stream_freeStream {s : State} {n : Nat} {x : Stream} (hx : s.stream? n = some x) (m : Nat) :
    (s.freeStream n).stream? m = if m = n then none else s.stream? m := by
  rw [State.stream?, freeStream_media hx, aGet_aErase, State.stream?]

theorem session_freeSession {s : State} {n : Nat} {x : Session} (hx : s.session? n = some x) (m : Nat) :
    (s.freeSession n).session? m = if m = n then none else s.session? m := by
  rw [State.session?, freeSession_media hx, aGet_aErase, State.session?]

section
variable {s : State} {r : Req}

theorem actStopStream_foreign (h : ∀ x, s.stream? (byteAt r.body 0) = some x → x.owner ≠ r.fn) :
    actStopStream s r = (s, some (0x34, [])) := by
  cases hx : s.stream? (byteAt r.body 0) with
  | none => simp only [actStopStream, hx]
  | some x => simp [actStopStream, hx, h x hx]

theorem actStopStream_owned {x : Stream} (hx : s.stream? (byteAt r.body 0) = some x) (hzero : fld r.body 2 2 = 0)
    (howner : x.owner = r.fn) : actStopStream s r = (s.freeStream (byteAt r.body 0), some (0, [])) := by
  simp [actStopStream, hx, hzero, howner]

theorem actStopSession_foreign (h : ∀ x, s.session? (byteAt r.body 0) = some x → x.owner ≠ r.fn) :
    actStopSession s r = (s, some (0x34, [])) := by
  cases hx : s.session? (byteAt r.body 0) with
  | none => simp only [actStopSession, hx]
  | some x => simp [actStopSession, hx, h x hx]

theorem actStopSession_owned {x : Session} (hx : s.session? (byteAt r.body 0) = some x) (hzero : fld r.body 2 2 = 0)
    (howner : x.owner = r.fn) : actStopSession s r = (s.freeSession (byteAt r.body 0), some (0, [])) := by
  simp [actStopSession, hx, hzero, howner]

end

theorem codecMessages : Claims.CodecMessages := by
  refine ⟨?decode, ?encode, ?stop⟩
  case decode =>
    intro s p r h
    refine ⟨fun hst => accepted_message_answer s p _ _ r _ _ _ h (actDecodeSetup_refused (s := s.accepted r) hst),
      fun htaken => streamStatus_taken r.fn htaken, fun hst => ?_⟩
    exact ⟨_, exec_decodeSetup_stands h hst, stream_withStream (s.accepted r) r,
      fun m hm => stream_withStream_other (s.accepted r) r hm, fun m g hm hg => ring_withStream (s := s.accepted r) hm hg⟩
  case encode =>
    intro s p r h
    refine ⟨fun hst => accepted_message_answer s p _ _ r _ _ _ h (actEncodeSetup_refused (s := s.accepted r) hst),
      fun htaken => sessionStatus_taken r.fn htaken, fun hst => ?_⟩
    exact ⟨_, exec_encodeSetup_stands h hst, session_withSession (s.accepted r) r,
      fun m hm => session_withSession_other (s.accepted r) r hm,
      fun m g hm hg => ring_withSession (s := s.accepted r) hm hg⟩
  case stop =>
    intro s p r h hzero
    have hserved : ∀ {kind : Nat} {act : Act} {t : State} {st : Nat}, byteAt r.body 1 = kind → kind ≤ 3 →
        act (s.accepted r) r = (t, some (st, [])) →
        onUnit (p < 64) s (stopMessage p kind act s) = .next (s.sameInputs (t.answer r st [])) := fun hkind hlisted hact =>
      (stopMessage_accepted _ h hkind hlisted).trans (accepted_message_answer s p _ _ r _ _ _ h hact)
    refine ⟨fun x hkind hx howner => ?stream, fun hkind hforeign => ?foreignStream, fun x hkind hx howner => ?session,
      fun hkind hforeign => ?foreignSession⟩
    case stream =>
      have hstream := stream_freeStream (s := s.accepted r) hx
      exact ⟨_, hserved hkind (by decide) (actStopStream_owned (s := s.accepted r) hx hzero howner), (hstream _).trans (if_pos rfl),
        fun m hm => (hstream m).trans (if_neg hm), (congrArg Media.sessions (freeStream_media (s := s.accepted r) hx) :)⟩
    case foreignStream => exact hserved hkind (by decide) (actStopStream_foreign (s := s.accepted r) hforeign)
    case session =>
      have hsession := session_freeSession (s := s.accepted r) hx
      exact ⟨_, hserved hkind (by decide) (actStopSession_owned (s := s.accepted r) hx hzero howner), (hsession _).trans (if_pos rfl),
        fun m hm => (hsession m).trans (if_neg hm), (congrArg Media.streams (freeSession_media (s := s.accepted r) hx) :)⟩
    case foreignSession => exact hserved hkind (by decide) (actStopSession_foreign (s := s.accepted r) hforeign)

/-! ## Writes of device memory leave the cameras and the codecs -/

theorem touchAll_media (s : State) (a n : Nat) : (s.touchAll a n).media = s.media := by
  obtain ⟨c, m, d, h⟩ := touchAll_frame s a n
  rw [h]

theorem hbmPut_media (s : State) (k : Nat) (b : Byte) : (s.hbmPut k b).media = s.media := by
  unfold State.hbmPut
  dsimp only
  split <;> rfl

theorem devPut_media (s : State) (a : Nat) (b : Byte) : (s.devPut a b).media = s.media := by
  unfold State.devPut
  split
  · exact hbmPut_media s _ b
  · split <;> rfl
  · rfl

theorem devWrite_media (l : List Byte) (s : State) (a : Nat) : (s.devWrite a l).media = s.media := by
  induction l generalizing s a with
  | nil => rfl
  | cons b l ih => exact (ih _ _).trans (devPut_media s a b)

theorem logHostFail_media (s : State) (a n : Nat) : (s.logHostFail a n).media = s.media := by
  refine foldl_keeps State.media _ (fun t v => ?_) _ s
  split
  · split
    · rfl
    · exact State.logE_media t _ _ _ _ _ _ _ _ _
  · rfl

theorem hubWrite_media (s : State) (a : Nat) (b : List Byte) : (s.hubWrite a b).media = s.media := by
  rw [State.hubWrite, logHostFail_media, devWrite_media, touchAll_media]

/-! ## The next bitstream entry (R327) -/

theorem exec_bitstreamEntry {s : State} {n : Nat} (hn : n < 64) (hfw : s.firmwareActs = true) :
    exec (.bitstreamEntry n) s = .next (s.sameInputs (s.feedStream n)) :=
  on_next s _ (on_of_firmwareActs s hfw) _ (decide_eq_true hn)

theorem touchAll_fnReads (s : State) (a n f b m : Nat) : (s.touchAll a n).fnReads f b m = s.fnReads f b m := by
  obtain ⟨c, k, d, h⟩ := touchAll_frame s a n
  rw [h]
  rfl

/-- What a stream does with a bitstream entry that it takes from index i: the first check that fails decides. -/
def State.takeBits (s : State) (n i : Nat) (x : Stream) (b : List Byte) : State :=
  if !bitEntryOk b then (s.ringAdvC x.bits).dueCodec x.comp i 0x05 0
  else if !s.fnReads x.owner (fld b 0 8) (fld b 8 4) then s.streamFail n (pageOf (fld b 0 8))
  else (s.touchAll (fld b 0 8) (fld b 8 4)).setStream n (fun x => { x with
    st := 2, job := some (i, byteAt b 12), stamps := aSet x.stamps i (fld b 16 8), gap := x.gap || bit (byteAt b 12) 1 })

/-- An idle stream whose completion ring has no entry waiting takes the oldest entry of its ring. -/
theorem feedStream_idle {s : State} {n : Nat} {x : Stream} {r : Ring} (hfw : s.firmwareActs = true) (hx : s.stream? n = some x)
    (hst : x.st = 1) (hr : s.ring? x.bits = some r) (hheld : r.held ≠ 0) (hrun : r.stopped = false)
    (hcomp : ∀ c, x.comp = some c → s.codecWaits c = false) (hreads : s.ringReads r (r.slotAddr r.c) 256 = true) :
    s.feedStream n = (s.touchAll (r.slotAddr r.c) 256).takeBits n r.c x (s.devRead (r.slotAddr r.c) 256) := by
  simp only [State.feedStream, hx, hr]
  refine (if_neg ?gate).trans (if_neg (by simp [hreads]))
  case gate =>
    cases hc : x.comp with
    | none => simp [hfw, hst, hheld, hrun]
    | some c => simp [hfw, hst, hheld, hrun, hcomp c hc]

/-! ## The end of a bitstream entry (R327, R328) -/

theorem exec_bitstreamEntryConsumed {s : State} {n : Nat} (d : Decoded) (lost : Nat) (hn : n < 64) (hfw : s.firmwareActs = true) :
    exec (.bitstreamEntryConsumed n d lost) s = .next (s.sameInputs (s.entryConsumed n d.count d.shown lost)) :=
  on_next s _ (on_of_firmwareActs s hfw) _ (decide_eq_true hn)

theorem stream_fillStore {s : State} {n : Nat} {x : Stream} (h : s.badPage x.owner x.store x.storeLen = none) (m : Nat) :
    (s.fillStore n x).stream? m = s.stream? m := by
  refine stream_of_media ?_ m
  simp only [State.fillStore, h, hubWrite_media, State.draw_media]

theorem losePicture_st (s : State) (n index owner : Nat) (count : Bool) (m : Nat) :
    ((s.losePicture n index owner count).stream? m).map Stream.st = (s.stream? m).map Stream.st := by
  rw [State.losePicture, stream_of_media (State.logE_media _ _ _ _ _ _ _ _ _ _)]
  cases count with
  | false => rfl
  | true =>
    rw [if_pos rfl, State.stream_setStream]
    split
    · rw [Option.map_map]
      rfl
    · rfl

theorem losePictures_st (index owner lost n m : Nat) (s : State) :
    ((s.losePictures n index owner lost).stream? m).map Stream.st = (s.stream? m).map Stream.st := by
  induction lost generalizing s with
  | zero => rfl
  | succ k ih => exact (ih _).trans (losePicture_st s n index owner true m)

/-- An entry that gives no picture: its store is written and its lost pictures are counted, and the stream is idle again. -/
theorem entryConsumed_pictureless {s : State} {n index flags : Nat} {x : Stream} (decoded lost : Nat) (hfw : s.firmwareActs = true)
    (hx : s.stream? n = some x) (hst : x.st = 2) (hjob : x.job = some (index, flags))
    (hstore : s.badPage x.owner x.store x.storeLen = none) :
    s.entryConsumed n decoded [] lost =
      (((((s.fillStore n x).losePictures n index x.owner lost).setStream n (fun x => { x with st := 1, job := none })).ringAdvC
        x.bits).dueCodec x.comp index 0 decoded) := by
  have hrunning : (((s.fillStore n x).losePictures n index x.owner lost).stream? n).map Stream.st = some 2 := by
    rw [losePictures_st, stream_fillStore hstore, hx, Option.map_some, hst]
  obtain ⟨y, hy, hyst⟩ := Option.map_eq_some_iff.mp hrunning
  simp [State.entryConsumed, hx, hjob, hst, hfw, hy, hyst]

/-! ## The next job (R330) -/

theorem exec_encodeJob {s : State} {n : Nat} (hn : n < 16) (hfw : s.firmwareActs = true) :
    exec (.encodeJob n) s = .next (s.sameInputs (s.feedSession n)) :=
  on_next s _ (on_of_firmwareActs s hfw) _ (decide_eq_true hn)

theorem touchAll_sourceFails (s : State) (a n : Nat) (x : Session) (b : List Byte) :
    (s.touchAll a n).sourceFails x b = s.sourceFails x b := by
  obtain ⟨c, m, d, h⟩ := touchAll_frame s a n
  rw [h]
  rfl

theorem touchAll_jobStatus (s : State) (a n : Nat) (x : Session) (b : List Byte) :
    (s.touchAll a n).jobStatus x b = s.jobStatus x b := by
  obtain ⟨c, m, d, h⟩ := touchAll_frame s a n
  rw [h]
  rfl

/-- The look-up of a job's source, where the entry is well formed. -/
def State.touchSource (s : State) (x : Session) (b : List Byte) : State :=
  if jobOk x b then s.touchPins [(fld b 0 2, fld b 4 4, 0)] s else s

/-- What a session does with a job entry that it takes from index i: its source cannot be read, or a check fails, or it begins. -/
def State.takeJob (s : State) (n i : Nat) (x : Session) (b : List Byte) : State :=
  match s.sourceFails x b with
  | some page => s.sessionFail n page
  | none =>
    if s.jobStatus x b != 0 then ((s.touchSource x b).ringAdvC x.jobs).dueCodec (some x.comp) i (s.jobStatus x b) 0
    else (s.touchSource x b).setSession n (fun x => { x with
      st := 2, job := some (i, fld b 16 8, { ring := fld b 0 2, index := fld b 4 4 }), force := bit (byteAt b 12) 0 })

/-- An idle session whose completion ring has no entry waiting takes the oldest entry of its ring. -/
theorem feedSession_idle {s : State} {n : Nat} {x : Session} {r : Ring} (hfw : s.firmwareActs = true) (hx : s.session? n = some x)
    (hst : x.st = 1) (hr : s.ring? x.jobs = some r) (hheld : r.held ≠ 0) (hrun : r.stopped = false)
    (hcomp : s.codecWaits x.comp = false) (hreads : s.ringReads r (r.slotAddr r.c) 256 = true) :
    s.feedSession n = (s.touchAll (r.slotAddr r.c) 256).takeJob n r.c x (s.devRead (r.slotAddr r.c) 256) := by
  simp only [State.feedSession, hx, hr]
  exact (if_neg (by simp [hfw, hst, hheld, hrun, hcomp])).trans (if_neg (by simp [hreads]))

/-! ## The end of a job (R330) -/

theorem exec_encodeJobComplete {s : State} {n : Nat} (out : List Byte) (hn : n < 16) (hfw : s.firmwareActs = true) :
    exec (.encodeJobComplete n out) s = .next (s.sameInputs (s.jobComplete n out)) :=
  on_next s _ (on_of_firmwareActs s hfw) _ (decide_eq_true hn)

section
variable {s : State} {n index a : Nat} {q : Pin} {x : Session} {out : List Byte} (hx : s.session? n = some x)
include hx

theorem jobComplete_unformed (hform : x.outputOk out = false) : s.jobComplete n out = s := by
  cases hjob : x.job with
  | none => simp only [State.jobComplete, hx, hjob]
  | some j => simp [State.jobComplete, hx, hjob, hform]

variable (hfw : s.firmwareActs = true) (hst : x.st = 2) (hjob : x.job = some (index, a, q)) (hform : x.outputOk out = true)
include hfw hst hjob hform

theorem jobComplete_unwritable {page : Nat} (hbad : s.badPage x.owner a out.length = some page) :
    s.jobComplete n out = s.sessionFail n page := by
  simp [State.jobComplete, hx, hjob, hfw, hst, hform, hbad]

theorem jobComplete_written (hgood : s.badPage x.owner a out.length = none) :
    s.jobComplete n out = ((((s.hubWrite a out).setSession n (fun y => { y with
      st := 1, job := none, force := false, pics := min (y.pics + 1) 0xffffffff,
      since := if x.intraNext then 1 % x.intra else (x.since + 1) % x.intra })).ringAdvC x.jobs).dueCodec
        (some x.comp) index 0 out.length) := by
  simp [State.jobComplete, hx, hjob, hfw, hst, hform, hgood, inc32]

end

/-! ## Streams and sessions that do not exist -/

theorem exec_stream_absent {s : State} {n : Nat} (d : Decoded) (lost : Nat) (hn : n < 64) (h : s.stream? n = none) :
    exec (.bitstreamEntry n) s = .next s ∧ exec (.bitstreamEntryConsumed n d lost) s = .next s := by
  have hfeed : s.feedStream n = s := by simp only [State.feedStream, h]
  have hconsumed : s.entryConsumed n d.count d.shown lost = s := by simp only [State.entryConsumed, h]
  exact ⟨(congrArg (onUnit (n < 64) s) hfeed).trans (self_next s _ (decide_eq_true hn)),
    (congrArg (onUnit (n < 64) s) hconsumed).trans (self_next s _ (decide_eq_true hn))⟩

theorem exec_session_absent {s : State} {n : Nat} (out : List Byte) (hn : n < 16) (h : s.session? n = none) :
    exec (.encodeJob n) s = .next s ∧ exec (.encodeJobComplete n out) s = .next s := by
  have hfeed : s.feedSession n = s := by simp only [State.feedSession, h]
  have hcomplete : s.jobComplete n out = s := by simp only [State.jobComplete, h]
  exact ⟨(congrArg (onUnit (n < 16) s) hfeed).trans (self_next s _ (decide_eq_true hn)),
    (congrArg (onUnit (n < 16) s) hcomplete).trans (self_next s _ (decide_eq_true hn))⟩

theorem codecWork : Claims.CodecWork := by
  refine ⟨?entry, ?consumed, ?job, ?complete, ?absent⟩
  case entry =>
    intro s n x r hn hfw hx hst hr hheld hrun hcomp hreads b u
    have htaken : exec (.bitstreamEntry n) s = .next (s.sameInputs (u.takeBits n r.c x b)) := by
      rw [exec_bitstreamEntry hn hfw, feedStream_idle hfw hx hst hr hheld hrun hcomp hreads]
    rw [htaken, State.takeBits, touchAll_fnReads]
    refine ⟨fun hbad => ?_, fun hok hread => ?_, fun hok hunread => ?_⟩
    · rw [if_pos (by simp [hbad])]
    · rw [if_neg (by simp [hok]), if_neg (by simp [hread])]
    · rw [if_neg (by simp [hok]), if_pos (by simp [hunread])]
      rfl
  case consumed =>
    intro s n index flags k j x hn hfw hx hst hjob hstore
    rw [exec_bitstreamEntryConsumed _ _ hn hfw, entryConsumed_pictureless k j hfw hx hst hjob hstore]
  case job =>
    intro s n k x r hn hfw hx hst hr hheld hrun hcomp hreads b u v
    have htaken : exec (.encodeJob n) s = .next (s.sameInputs (u.takeJob n r.c x b)) := by
      rw [exec_encodeJob hn hfw, feedSession_idle hfw hx hst hr hheld hrun hcomp hreads]
    have hsource : u.sourceFails x b = s.sourceFails x b := touchAll_sourceFails s _ _ x b
    have hstatus : u.jobStatus x b = s.jobStatus x b := touchAll_jobStatus s _ _ x b
    rw [htaken]
    simp only [State.takeJob, hsource, hstatus]
    refine ⟨fun page hfails => ?_, fun hreadable hk hne => ?_, fun hreadable hok => ?_⟩
    · rw [hfails]
    · rw [hreadable, hk]
      dsimp only
      rw [if_pos (bne_iff_ne.mpr hne)]
      rfl
    · rw [hreadable]
      dsimp only
      rw [if_neg (by simp [hok])]
      rfl
  case complete =>
    intro s n index a q x out hn hfw hx hst hjob
    rw [exec_encodeJobComplete out hn hfw]
    refine ⟨fun hform hgood => ?_, fun page hform hbad => ?_, fun hform => ?_⟩
    · rw [jobComplete_written hx hfw hst hjob hform hgood]
    · rw [jobComplete_unwritable hx hfw hst hjob hform hbad]
    · rw [jobComplete_unformed hx hform, State.sameInputs_self]
  case absent =>
    intro s n ps k out hn hstream hsession
    obtain ⟨hentry, hconsumed⟩ := exec_stream_absent ⟨k, ps⟩ k (by omega : n < 64) hstream
    obtain ⟨hjob, hcomplete⟩ := exec_session_absent out hn hsession
    exact ⟨hentry, hconsumed, hjob, hcomplete⟩

/-- Settles O46: a setup or a stop has its effect or is answered with its failed check, and entries and jobs are taken and completed. -/
theorem codecUnits : Obligations.CodecUnits := ⟨codecMessages, codecWork⟩

end Sys2Proof.Machine

/-! SUPPORT. Proofs about the frames of contexts, and that the commands of the cameras and the codecs complete, each with its own
effect. -/

namespace Sys2Proof.Machine

/-! ## Contexts on a channel -/

/-- A packet whose header needed no correction counts none. -/
theorem countEcc_false (s : State) (p : Nat) : s.countEcc p false = s := rfl

/-- The one context of a device is on each channel of its port from its first, where it meets the test. -/
theorem ctxsOn_sole {s : State} {p vc n : Nat} {c : Ctx} {test : Ctx → Bool} (hsole : s.media.ctxs = [(n, c)]) (hport : c.port = p)
    (hvc : c.vc ≤ vc) (htest : test c = true) : s.ctxsOn p vc test = [n] := by
  simp [State.ctxsOn, hsole, hport, hvc, htest]

/-! ## Frame end and line timeout (R320) -/

section
variable {s : State} {n : Nat} {c : Ctx} (cut : Bool) (hc : s.ctx? n = some c)
include hc

theorem endFrame_frameless (hframe : c.frame = none) : s.endFrame cut n = s := by
  simp only [State.endFrame, hc, hframe]

/-- A frame that holds no slot ends with nothing written. -/
theorem endFrame_slotless {f : FrameRun} (hframe : c.frame = some f) (hslots : f.slots = [none, none, none, none]) :
    s.endFrame cut n = ({ s with free := s.free + 4 } : State).setCtx n (fun c => { c with st := 2, frame := none }) := by
  simp only [State.endFrame, hc, hframe, hslots]
  rfl

end

/-- The frame end of a context's last channel ends the frame of the one context. -/
theorem frameEndOn_sole {s : State} {p vc n : Nat} {c : Ctx} {f : FrameRun} (hopen : s.portOpen p = true) (hframe : c.frame = some f)
    (hlast : vc = c.lastVc) (hsole : s.media.ctxs = [(n, c)]) (hport : c.port = p) (hvc : c.vc ≤ vc) :
    s.frameEndOn p vc false = s.endFrame false n := by
  unfold State.frameEndOn
  rw [if_neg (by simp [hopen]), countEcc_false]
  dsimp only
  rw [ctxsOn_sole hsole hport hvc (by simp [hframe, hlast])]
  rfl

/-! ## Frame start (R319, R320) -/

/-- A context that takes up the parameters which wait for a frame start (R308). -/
def Ctx.latched (c : Ctx) : Ctx := { c with params := c.pend.getD c.params, pend := none }

/-- A context whose frame has started, with a number, a time and what its rings gave. -/
def Ctx.started (c : Ctx) (num stamp : Nat) (k : Taken) : Ctx :=
  { c.latched with
    frame := some { number := num, stamp := stamp, slots := k.slots, lines := [], emb := [] },
    dropped := min (c.dropped + k.drops) 0xffffffff, nextNum := if c.group.isNone then (c.nextNum + 1) % M32 else c.nextNum,
    window := c.window.map (fun w => (w.1, w.2.1, true)) }

/-- A live context without a frame starts one, where its rings let it take its slots. -/
theorem startFrame_starts {s : State} {n num stamp : Nat} {c : Ctx} (hc : s.ctx? n = some c) (hframe : c.frame = none)
    (hlive : c.live = true) (hid : s.frameId c.latched = some (num, stamp))
    (hslots : (s.takeSlots c.latched.owner c.latched.frameRings).2.fail = none) :
    s.startFrame n = (s.takeSlots c.latched.owner c.latched.frameRings).1.setCtx n
      (fun _ => c.started num stamp (s.takeSlots c.latched.owner c.latched.frameRings).2) := by
  unfold Ctx.latched at hid hslots
  simp only [State.startFrame, endFrame_frameless false hc hframe, hc, hlive, hid, hslots]
  rfl

theorem frameStartOn_single {s : State} {p vc n : Nat} (hopen : s.portOpen p = true) (hctx : s.ctxsOn p vc (fun c => c.vc = vc) = [n]) :
    s.frameStartOn p vc false = s.startFrame n := by
  unfold State.frameStartOn
  rw [if_neg (by simp [hopen]), countEcc_false, hctx]
  rfl

/-! ## Lines (R310) -/

/-- A good line of a type that the ports take joins the frame of the one context that listens. -/
theorem lineOn_single {s : State} {p vc dt n : Nat} (l : List Nat) (hopen : s.portOpen p = true)
    (htype : dt = 0x12 ∨ rawTypes.contains dt = true)
    (hctx : s.ctxsOn p vc (fun c => c.live && decide (vc < c.vc + c.exps)) = [n]) :
    s.lineOn p vc dt true false l = s.setCtx n (fun c => c.addLine vc dt true l) := by
  unfold State.lineOn
  rw [if_neg (by simp [hopen]), if_neg (by simpa [or_iff_not_imp_left] using htype), countEcc_false]
  dsimp only
  rw [if_pos rfl, hctx]
  rfl

/-! ## Losses of lock and errors of slots (R305, R426) -/

/-- The first two losses of lock retrain the port. -/
theorem lockLoss_retrains {s : State} {p : Nat} (henabled : (s.port p).enabled = true) (hkept : (s.port p).retired = false)
    (hfew : (s.port p).losses.length < 2) :
    s.lockLoss p = s.setPort p (fun q => { q with losses := (s.port p).losses ++ [s.now] }) := by
  have hgate : ¬ (!(s.port p).enabled || (s.port p).retired) = true := by simp [henabled, hkept]
  have hshort : ¬ 3 ≤ ((s.port p).losses ++ [s.now]).length := by
    rw [List.length_append, List.length_singleton]
    omega
  refine (if_neg hgate).trans (if_neg ?third)
  case third =>
    split
    · exact fun h => hshort (of_decide_eq_true (Bool.and_eq_true_iff.mp h).1)
    · exact Bool.false_ne_true

/-- An error that does not repeat is logged, and a context without a frame loses nothing. -/
theorem slotError_transient {s : State} {pipe k n : Nat} {c : Ctx} (hholder : s.slotHolder pipe k = some (n, c))
    (hframe : c.frame = none) : s.slotError pipe k true = s.logTransient 7 (32 * pipe + k) 0 0 := by
  simp [State.slotError, hholder, hframe]

/-! ## Each command of the cameras and the codecs completes -/

/-- A context that a setup makes exists, whether or not its port's lanes lock. -/
theorem contextSetup_made {s : State} {p : Nat} {r : Req} (lock : Bool) (bad : List Nat) (h : s.accepts p 0x0020 r = true)
    (hst : s.ctxStatus r.fn r.body = 0) : ∃ t : State,
    exec (.contextSetup p ⟨lock, bad⟩) s = .next (s.sameInputs (t.answer r 0 [])) ∧ (t.ctx? (byteAt r.body 0)).isSome = true := by
  refine ⟨_, exec_contextSetup_stands lock bad h hst, ?_⟩
  have hmade := ctx_withCtx (s.accepted r) r bad
  by_cases hlocks : lock = true ∨ (((s.accepted r).withCtx r bad).port (byteAt r.body 1)).enabled = true
  · rw [ctx_enablePort_locks hlocks, hmade, Option.isSome_some]
  · rw [ctx_enablePort_fails hlocks hmade (madeCtx_port _ r bad), Option.isSome_some]

/-- Settles O57: messages, entries, jobs and triggers by their outcomes above, and each event of a port by what it does to the one context
that it reaches. -/
theorem mediaCommandsComplete : Obligations.MediaCommandsComplete := by
  obtain ⟨-, -, hstopContext, -⟩ := contextMessages
  obtain ⟨hlockSetup, -, hstopGroup, htrigger, hexpiry⟩ := lockGroups
  obtain ⟨hdecode, hencode, hstopCodec⟩ := codecMessages
  obtain ⟨hentry, hconsumed, hjob, hcomplete, -⟩ := codecWork
  refine ⟨?setup, ?parameter, ?stop, ?frameStart, ?line, ?frameEnd, ?lockLoss, ?lockGroup, ?trigger, ?expiry, ?decodeSetup, ?encodeSetup,
    ?entry, hconsumed, ?job, ?complete, ?slotError⟩
  case setup => exact fun s p lock bad r h hst => contextSetup_made lock bad h hst
  case parameter =>
    intro s p r c h hc howner a hzero haligned hreads hparams hfits
    exact accepted_message_answer s p _ _ r _ _ _ h
      (actCtxParam_stands (s := s.accepted r) hc ⟨howner, hzero, haligned, hreads, hparams⟩ hfits)
  case stop =>
    intro s p r h hzero n
    obtain ⟨hstream, -, hsession, -⟩ := hstopCodec s p r h hzero
    refine ⟨fun c hkind hc howner => ?_, fun x hkind hx howner => ?_, fun x hkind hx howner => ?_, fun g hkind hg howner halone => ?_⟩
    · obtain ⟨t, hexec, hgone, -⟩ := hstopContext s p r c h hkind hc hzero howner
      exact ⟨t, hexec, hgone⟩
    · obtain ⟨t, hexec, hgone, -⟩ := hstream x hkind hx howner
      exact ⟨t, hexec, hgone⟩
    · obtain ⟨t, hexec, hgone, -⟩ := hsession x hkind hx howner
      exact ⟨t, hexec, hgone⟩
    · exact (hstopGroup s p r g h hkind hzero hg howner).1 halone
  case frameStart =>
    intro s p vc n num stamp c hon hp hvc hopen hctx hc hframe hlive hid d t hslots
    have hstarted := startFrame_starts hc hframe hlive hid hslots
    have hexec : exec (.frameStart p vc false) s = .next (s.sameInputs (s.frameStartOn p vc false)) :=
      on_next s _ hon _ (by simp [hp, hvc])
    rw [hexec, frameStartOn_single hopen hctx, hstarted]
    rfl
  case line =>
    intro s p vc dt n l c hon hp hvc hopen htype hctx hc
    have hexec : exec (.lineArrival p vc dt true false l) s = .next (s.sameInputs (s.lineOn p vc dt true false l)) :=
      on_next s _ hon _ (by simp [hp, hvc])
    rw [hexec, lineOn_single l hopen htype hctx]
    rfl
  case frameEnd =>
    intro s p vc n c f hon hp hvc hn hopen hc hframe hslots t
    refine ⟨?_, fun hlast hsole hport hfirst => ?_⟩
    · have hexec : exec (.lineTimeout n) s = .next (s.sameInputs (s.endFrame true n)) := on_next s _ hon _ (decide_eq_true hn)
      rw [hexec, endFrame_slotless true hc hframe hslots]
      rfl
    · have hexec : exec (.frameEnd p vc false) s = .next (s.sameInputs (s.frameEndOn p vc false)) :=
        on_next s _ hon _ (by simp [hp, hvc])
      rw [hexec, frameEndOn_sole hopen hframe hlast hsole hport hfirst, endFrame_slotless false hc hframe hslots]
      rfl
  case lockLoss =>
    intro s p hon hp henabled hkept hfew
    have hexec : exec (.portLockLoss p) s = .next (s.sameInputs (s.lockLoss p)) := on_next s _ hon _ (decide_eq_true hp)
    rw [hexec, lockLoss_retrains henabled hkept hfew]
    rfl
  case lockGroup =>
    intro s p r h b n epoch period g hrange hmembers howner hpins
    exact (hlockSetup s p r h).1 ⟨hrange, hmembers, howner, hpins⟩
  case trigger =>
    intro s n g hon hn hg at_ hdue
    obtain ⟨t, hexec, -, hgroup, -⟩ := (htrigger s n g hon hn hg).1 hdue
    exact ⟨t, hexec, hgroup⟩
  case expiry =>
    intro s n k a g x c hon hn hc hwindow hgroup hx hpast
    exact ((hexpiry s n k a g x c hon hn hc hwindow hgroup hx).1 hpast).1
  case decodeSetup =>
    intro s p r h hst
    obtain ⟨t, hexec, hstream, -⟩ := (hdecode s p r h).2.2 hst
    exact ⟨t, hexec, hstream⟩
  case encodeSetup =>
    intro s p r h hst
    obtain ⟨t, hexec, hsession, -⟩ := (hencode s p r h).2.2 hst
    exact ⟨t, hexec, hsession⟩
  case entry =>
    intro s n x r hn hfw hx hst hr hheld hrun hcomp hreads b hok hread
    exact (hentry s n x r hn hfw hx hst hr hheld hrun hcomp hreads).2.1 hok hread
  case job =>
    intro s n x r hn hfw hx hst hr hheld hrun hcomp hreads b u hsource hok
    refine ⟨_, (hjob s n 0 x r hn hfw hx hst hr hheld hrun hcomp hreads).2.2 hsource hok, ?_⟩
    by_cases hform : jobOk x b = true
    · exact .inr (if_pos hform)
    · exact .inl (if_neg hform)
  case complete =>
    intro s n index a q x out hn hfw hx hst hjob hform hgood
    exact (hcomplete s n index a q x out hn hfw hx hst hjob).1 hform hgood
  case slotError =>
    intro s pipe k n c hon hpipe hk hholder hframe
    have hexec : exec (.contextSlotError pipe k true) s = .next (s.sameInputs (s.slotError pipe k true)) :=
      on_next s _ hon _ (by simp [hpipe, hk])
    rw [hexec, slotError_transient hholder hframe]

end Sys2Proof.Machine

/-! SUPPORT. Proofs about the queue of commands and the PWRGOOD ball: what a step takes, and what an unpowered block holds. -/

namespace Sys2Proof.Machine

/-! ## The PWRGOOD ball and the queue under a command -/

/-- A gated effect keeps the inputs that the outside holds. -/
theorem whenOn_keeps_inputs {s t u : State} (h : whenOn s t = .next u) : u.on = s.on ∧ u.pending = s.pending := by
  injection h with h
  subst h
  split
  · exact ⟨rfl, rfl⟩
  · exact ⟨rfl, rfl⟩

/-- An unpowered block takes no gated effect (R445). -/
theorem whenOn_off {s t u : State} (hoff : s.on = false) (h : whenOn s t = .next u) : u = s := by
  injection h with h
  simpa [hoff] using h.symm

theorem exec_powerGood_on {s t : State} {o : PowerOn} {r : TestResults} (h : exec (.powerGood o r) s = .next t) : t.on = true := by
  injection h with h
  subst h
  split
  · assumption
  · rfl

theorem exec_powerGood_pending {s t : State} {o : PowerOn} {r : TestResults} (h : exec (.powerGood o r) s = .next t) :
    t.pending = s.pending := by
  injection h with h
  subst h
  split
  · rfl
  · rfl

/-- No command touches the queue of waiting commands. -/
theorem exec_pending {i : Instr} {s t : State} (h : exec i s = .next t) : t.pending = s.pending := by
  cases hp : ofPower i with
  | false =>
    obtain ⟨u, hu⟩ := exec_gated i s hp
    exact (whenOn_keeps_inputs (hu.symm.trans h)).2
  | true =>
    obtain ⟨o, r, rfl⟩ | rfl := ofPower_elim i hp
    · exact exec_powerGood_pending h
    · injection h with h
      subst h
      rfl

/-! ## The queue of commands -/

theorem step_no_command {s : State} (h : s.pending = []) : step s = whenOn s s.tick := by
  simp only [step, h]

theorem step_command {s : State} {c : Instr} {rest : List Instr} (h : s.pending = c :: rest) :
    step s = exec c (s.withPending rest) := by
  simp only [step, h]

/-- Settles O1: the front command of the queue runs on the state with the rest. -/
theorem stepRunsFront : Obligations.StepRunsFront := fun _ _ _ => step_command rfl

theorem emptyQueueStep : Claims.EmptyQueueStep := by
  intro s h
  rw [step_no_command h]
  refine ⟨⟨_, rfl, ?_⟩, fun hoff => ?_⟩
  · obtain ⟨hon, hpending⟩ := whenOn_keeps_inputs (s := s) (t := s.tick) rfl
    exact ⟨hpending.trans h, hon⟩
  · simp [whenOn, hoff]

theorem stepTakesOneCommand : Claims.StepTakesOneCommand := by
  intro s t h
  cases hq : s.pending with
  | nil =>
    rw [step_no_command hq] at h
    exact (whenOn_keeps_inputs h).2.trans hq
  | cons c rest =>
    rw [step_command hq] at h
    exact exec_pending h

/-- Settles O2: a beat passes under the gate of the PWRGOOD ball, and a command leaves the queue's rest as it finds it. -/
theorem queueSteps : Obligations.QueueSteps := ⟨emptyQueueStep, stepTakesOneCommand⟩

/-! ## An unpowered block (R404, R445, R446) -/

/-- Loss of power leaves a block that a second one does not change. -/
theorem powerDown_powerDown (s : State) : s.powerDown.powerDown = s.powerDown := rfl

theorem powerDown_withPending (s : State) (q : List Instr) : (s.withPending q).powerDown = s.powerDown.withPending q := rfl

theorem OffClean.of_on {s : State} (h : s.on = true) : OffClean s := fun hoff => absurd hoff (by simp [h])

theorem OffClean.powerDown (s : State) : OffClean s.powerDown := fun _ => powerDown_powerDown s

theorem OffClean.withPending {s : State} (h : OffClean s) (q : List Instr) : OffClean (s.withPending q) := by
  intro hoff
  rw [powerDown_withPending, h hoff]

/-- A gated effect keeps a block clean: it acts on a powered block only. -/
theorem OffClean.whenOn {s t u : State} (h : OffClean s) (hu : whenOn s t = .next u) : OffClean u := by
  cases hon : s.on with
  | false => rwa [whenOn_off hon hu]
  | true => exact .of_on ((whenOn_keeps_inputs hu).1.trans hon)

theorem OffClean.exec {i : Instr} {s t : State} (h : OffClean s) (ht : exec i s = .next t) : OffClean t := by
  cases hp : ofPower i with
  | false =>
    obtain ⟨u, hu⟩ := exec_gated i s hp
    exact h.whenOn (hu.symm.trans ht)
  | true =>
    obtain ⟨o, r, rfl⟩ | rfl := ofPower_elim i hp
    · exact .of_on (exec_powerGood_on ht)
    · injection ht with ht
      subst ht
      exact .powerDown s

/-- Settles O4: a beat and a gated command act on a powered block only, a rise of PWRGOOD turns the block on, and its fall leaves what
loss of power leaves. -/
theorem offCleanKept : Obligations.OffCleanKept := by
  intro s t h ht
  cases hq : s.pending with
  | nil =>
    rw [step_no_command hq] at ht
    exact h.whenOn ht
  | cons c rest =>
    rw [step_command hq] at ht
    exact (h.withPending rest).exec ht

/-- Settles O5: the reset state is what loss of power leaves of it. -/
theorem resetOffClean : Obligations.ResetOffClean := fun _ => rfl

end Sys2Proof.Machine

/-! SUPPORT. Proofs about what reaches the outside: interrupts with the event-log entries that raise them, and the answers of a mailbox. -/

namespace Sys2Proof.Machine

/-! ## Interrupts (R335, R336, R339) -/

theorem irq_open {s : State} {f : Nat} (v : Nat) (h : s.irqOpen f = true) : s.irq f v = (s.hostIrq f v).setOut (fun o => { o with
    irqs := o.irqs ++ [(f, v)],
    events := if s.fw.attach = 1 then o.events ++ [eventRecord f v s.now] else o.events }) := if_pos h

theorem irq_held {s : State} {f : Nat} (v : Nat) (h : s.irqOpen f = false) : s.irq f v =
    (s.hostIrq f v).setFunc f (fun x => { x with held := if x.held.contains v then x.held else x.held ++ [v] }) :=
  if_neg (by simp [h])

@[simp] theorem hostIrq_irqs (s : State) (f v : Nat) : (s.hostIrq f v).out.irqs = s.out.irqs := rfl

/-- A vector has been raised: its message has left, or it is held pending. `sent` says which. -/
def State.Raised (s : State) (sent : Bool) (f v : Nat) : Prop := if sent = true then (f, v) ∈ s.out.irqs else v ∈ (s.func f).held

theorem irq_raised {s : State} {f : Nat} (v : Nat) (hf : f < s.funcs.length) : (s.irq f v).Raised (s.irqOpen f) f v := by
  unfold State.Raised
  split
  · next h =>
    rw [irq_open v h]
    exact List.mem_append_right _ (List.mem_singleton_self _)
  · next h =>
    rw [irq_held v (by simpa using h), State.func_setFunc (s.hostIrq f v) f _ hf]
    by_cases hheld : v ∈ ((s.hostIrq f v).func f).held
    · simp [hheld]
    · simp [hheld]

/-- An interrupt takes no earlier one back. -/
theorem State.Raised.irq {s : State} {sent : Bool} {f v : Nat} (h : s.Raised sent f v) (g w : Nat) (hf : f < s.funcs.length) :
    (s.irq g w).Raised sent f v := by
  cases hopen : s.irqOpen g with
  | true =>
    rw [irq_open w hopen]
    cases sent with
    | true => exact List.mem_append_left _ h
    | false => exact h
  | false =>
    rw [irq_held w hopen]
    cases sent with
    | true => exact h
    | false =>
      by_cases hfg : f = g
      · subst hfg
        have hheld : v ∈ ((s.hostIrq f w).func f).held := h
        simp only [State.Raised, Bool.false_eq_true, if_false]
        rw [State.func_setFunc (s.hostIrq f w) f _ hf]
        dsimp only
        split
        · exact hheld
        · exact List.mem_append_left _ hheld
      · simp only [State.Raised, Bool.false_eq_true, if_false]
        rw [State.func_setFunc_other _ _ _ _ hfg]
        exact h

theorem State.func_setFunc_keeps {β : Type} (s : State) (n m : Nat) (f : Func → Func) (part : Func → β) (h : ∀ x, part (f x) = part x) :
    part ((s.setFunc n f).func m) = part (s.func m) := by
  by_cases hm : m = n
  · subst hm
    exact (getD_lMod_part s.funcs m f Func.reset part (h _)).trans (h _)
  · rw [State.func_setFunc_other _ _ _ _ hm]

theorem length_funcs_irq (s : State) (f v : Nat) : (s.irq f v).funcs.length = s.funcs.length := by
  unfold State.irq
  split
  · rfl
  · exact length_lMod _ _ _

/-- An interrupt leaves it open or closed which functions' messages can leave. -/
theorem irqOpen_irq (s : State) (f v g : Nat) : (s.irq f v).irqOpen g = s.irqOpen g := by
  have hd3 : ((s.irq f v).func g).d3 = (s.func g).d3 := by
    unfold State.irq
    split
    · rfl
    · exact State.func_setFunc_keeps (s.hostIrq f v) f g _ Func.d3 (fun _ => rfl)
  simp only [State.irqOpen, State.irq_fw, hd3]

/-! ## Event-log entries (R434) -/

/-- The log has taken an entry, and nobody has been told yet. -/
def State.logged (s : State) (e : LogEntry) : State := { s with log := logPut s.log s.now e }

/-- Every entry raises vector 1 of function 0, and one that names a virtual function raises that function's too. -/
theorem logE_raises (s : State) (code cls fn suite kind unit a b c : Nat) : ∃ e, s.logE code cls fn suite kind unit a b c =
    if 1 ≤ fn ∧ fn ≤ 16 then ((s.logged e).irq 0 1).irq fn 1 else (s.logged e).irq 0 1 := ⟨_, rfl⟩

theorem regValue_log_virtual (s : State) {f o : Nat} (hf : f ≠ 0) (hlo : 0x1100000 ≤ o) (hhi : o < 0x1200000) :
    s.regValue f o = 0 := by
  unfold State.regValue
  by_cases hreg : (o % 4 != 0 || 0x4000000 ≤ o) = true
  · rw [if_pos hreg]
  · rw [if_neg hreg, if_neg (by omega), if_neg (by omega), if_neg (by omega), if_neg (by omega), if_neg (by omega), if_neg (by omega),
      if_neg (by omega), if_neg (by omega), if_neg (by omega), if_neg (by omega), if_neg (by omega), 
      if_neg (by omega), if_pos hhi, if_neg hf]

/-- Settles O60: an entry's interrupts are raised one after the other, and the second does not take the first one back. -/
theorem logSignals : Obligations.LogSignals := by
  refine ⟨?_, fun s f o hf hlo hhi => regValue_log_virtual s hf hlo hhi⟩
  intro s code cls fn suite kind unit a b c hfuncs _ t signalled
  obtain ⟨e, hlog⟩ := logE_raises s code cls fn suite kind unit a b c
  have hraised : t.Raised (s.irqOpen 0) 0 1 ∧ (1 ≤ fn → fn ≤ 16 → t.Raised (s.irqOpen fn) fn 1) := by
    have h0 : ((s.logged e).irq 0 1).Raised (s.irqOpen 0) 0 1 := irq_raised (s := s.logged e) 1 (by simp [State.logged, hfuncs])
    have hlen : ((s.logged e).irq 0 1).funcs.length = 17 := (length_funcs_irq _ _ _).trans hfuncs
    simp only [t, hlog]
    by_cases hfn : 1 ≤ fn ∧ fn ≤ 16
    · have h1 := irq_raised (s := (s.logged e).irq 0 1) (f := fn) 1 (by omega)
      rw [irqOpen_irq] at h1
      rw [if_pos hfn]
      exact ⟨h0.irq fn 1 (by omega), fun _ _ => h1⟩
    · rw [if_neg hfn]
      exact ⟨h0, fun hlo hhi => absurd ⟨hlo, hhi⟩ hfn⟩
  exact hraised

end Sys2Proof.Machine

/-! SUPPORT. Proofs about mailboxes: what every message command does with a request, and what an answer changes. -/

namespace Sys2Proof.Machine

/-! ## Requests of a message command's row (R378, R379) -/

/-- The effect of a message command on a pair: a request of its row that a check stops is served, and without a request of its row
nothing happens. -/
structure State.ServesRow (s : State) (p : Nat) (row : Req → Bool) (t : State) : Prop where
  stopped : ∀ r, s.request p = some r → row r = true → s.verdict r ≠ .ok → ∃ act, t = s.serveReq r act
  idle : (∀ r, s.request p = some r → row r = false) → t = s

theorem serve_servesRow (s : State) (p ty : Nat) (act : Act) : s.ServesRow p (fun r => r.type = ty) (s.serve p ty act) where
  stopped r hreq hrow _ := ⟨act, by simp only [State.serve, hreq, if_pos (of_decide_eq_true hrow)]⟩
  idle hidle := by
    cases hreq : s.request p with
    | none => simp only [State.serve, hreq]
    | some r => simp only [State.serve, hreq, if_neg (of_decide_eq_false (hidle r hreq))]

/-- A type with several operations: a command of one of them serves its own requests as `serve` does. -/
theorem guarded_servesRow {s t : State} {p : Nat} {row : Req → Bool} (act : Act)
    (ht : t = match s.request p with | some r => if row r = true then s.serveReq r act else s | none => s) :
    s.ServesRow p row t where
  stopped r hreq hrow _ := ⟨act, by rw [ht, hreq]; exact if_pos hrow⟩
  idle hidle := by
    cases hreq : s.request p with
    | none => rw [ht, hreq]
    | some r => rw [ht, hreq]; exact if_neg (by simp [hidle r hreq])

theorem windowMessage_servesRow (s : State) (p op : Nat) :
    s.ServesRow p (fun r => r.type = 0x0015 && (byteAt r.body 0 = op || (op = 0 && 2 < byteAt r.body 0))) (windowMessage p op s) :=
  guarded_servesRow actWindow rfl

theorem stopMessage_servesRow (s : State) (p kind : Nat) (act : Act) :
    s.ServesRow p (fun r => r.type = 0x0022 && (if 3 < byteAt r.body 1 then 0 else byteAt r.body 1) = kind) (stopMessage p kind act s) :=
  guarded_servesRow act rfl

theorem negotiate_servesRow (s : State) (p : Nat) : s.ServesRow p (fun r => r.type = 0x0001) (serveNegotiate s p) where
  stopped r hreq hrow hv := by
    refine ⟨actNegotiate, ?_⟩
    simp only [serveNegotiate, hreq, if_pos (of_decide_eq_true hrow)]
  idle hidle := by
    cases hreq : s.request p with
    | none => simp only [serveNegotiate, hreq]
    | some r => simp only [serveNegotiate, hreq, if_neg (of_decide_eq_false (hidle r hreq))]

theorem packetQueue_servesRow (s : State) (p : Nat) (op : Nat → Prop) [DecidablePred op] :
    s.ServesRow p (fun r => r.type = 0x0034 && op (byteAt r.body 1)) (match s.request p with
      | some r => if op (byteAt r.body 1) then s.serve p 0x0034 actPacketQueue else s
      | none => s) := by
  refine guarded_servesRow actPacketQueue ?_
  cases hreq : s.request p with
  | none => rfl
  | some r =>
    by_cases htype : r.type = 0x0034
    · simp [State.serve, hreq, htype]
    · simp [State.serve, hreq, htype]

/-- A kind of stop that R382 does not list counts with kind 0. -/
theorem stopKind_zero_iff (k : Nat) : ((if 3 < k then 0 else k) = 0) = (k = 0 ∨ 3 < k) := by
  split <;> simp [*]

theorem stopKind_listed_iff (k : Nat) {kind : Nat} (h0 : kind ≠ 0) (h3 : kind ≤ 3) :
    ((if 3 < k then 0 else k) = kind) = (k = kind) := by
  split
  · simp only [eq_iff_iff]
    omega
  · rfl

/-- The row of an operation that takes the operations beyond the last listed one with it. -/
theorem State.ServesRow.congr {s t : State} {p : Nat} {row row' : Req → Bool} (h : s.ServesRow p row t) (hrow : ∀ r, row' r = row r) :
    s.ServesRow p row' t := by
  rwa [funext hrow]

/-- Every message command acts on an existing pair, and there on a request of its own row. -/
theorem exec_message (i : Instr) (p : Nat) (s : State) (h : messagePair i = some p) :
    ∃ t, exec i s = onUnit (p < 64) s t ∧ s.ServesRow p (messageRow i) t := by
  cases i with
  | versionNegotiation q =>
    obtain rfl := Option.some.inj h
    exact ⟨_, rfl, negotiate_servesRow s q⟩
  | windowCreate q =>
    obtain rfl := Option.some.inj h
    exact ⟨_, rfl, windowMessage_servesRow s q 0⟩
  | windowDelete q =>
    obtain rfl := Option.some.inj h
    exact ⟨_, rfl, (windowMessage_servesRow s q 1).congr (fun r => by simp [messageRow])⟩
  | windowSetSuiteMask q =>
    obtain rfl := Option.some.inj h
    exact ⟨_, rfl, (windowMessage_servesRow s q 2).congr (fun r => by simp [messageRow])⟩
  | stopContext q =>
    obtain rfl := Option.some.inj h
    exact ⟨_, rfl, (stopMessage_servesRow s q 0 _).congr (fun r => by simp only [messageRow, stopKind_zero_iff, Bool.decide_or])⟩
  | stopStream q =>
    obtain rfl := Option.some.inj h
    exact ⟨_, rfl, (stopMessage_servesRow s q 1 _).congr (fun r => by simp [messageRow, stopKind_listed_iff])⟩
  | stopSession q =>
    obtain rfl := Option.some.inj h
    exact ⟨_, rfl, (stopMessage_servesRow s q 2 _).congr (fun r => by simp [messageRow, stopKind_listed_iff])⟩
  | stopLockGroup q =>
    obtain rfl := Option.some.inj h
    exact ⟨_, rfl, (stopMessage_servesRow s q 3 _).congr (fun r => by simp [messageRow, stopKind_listed_iff])⟩
  | packetQueueSetup q =>
    obtain rfl := Option.some.inj h
    exact ⟨_, rfl, (packetQueue_servesRow s q (fun op => (op != 1) = true)).congr (fun r => by simp only [messageRow, Bool.decide_eq_true])⟩
  | packetQueueDelete q =>
    obtain rfl := Option.some.inj h
    exact ⟨_, rfl, packetQueue_servesRow s q (· = 1)⟩
  | heartbeat q | adopt q | allocation q | suiteCreate q | suiteRelease q | load q _ | ringSetup q | map q | contextSetup q _
  | contextParameter q | lockGroupSetup q | decodeSetup q | encodeSetup q | hostStart q | chip q | peerSetup q | hostImageWrite q _
  | steeringRule q | identity q | attestation q | firmwareStatus q | stage q _ | activate q | revokeKeySlot q
  | advanceSecurityVersion q | recoveryWrite q _ =>
    obtain rfl := Option.some.inj h
    exact ⟨_, rfl, serve_servesRow s q _ _⟩
  | _ => cases h

/-- The commands of a pair that exists, of a powered block: a request of the row that a check stops, and no request of the row. -/
theorem exec_message_stopped {i : Instr} {p : Nat} {s : State} {r : Req} (hi : messagePair i = some p) (hp : p < 64) (hon : s.on = true)
    (hreq : s.request p = some r) (hrow : messageRow i r = true) (hv : s.verdict r ≠ .ok) :
    ∃ act, exec i s = .next (s.sameInputs (s.serveReq r act)) := by
  obtain ⟨t, hexec, hserves⟩ := exec_message i p s hi
  obtain ⟨act, rfl⟩ := hserves.stopped r hreq hrow hv
  exact ⟨act, hexec.trans (on_next s _ hon _ (decide_eq_true hp))⟩

theorem exec_message_idle {i : Instr} {p : Nat} {s : State} (hi : messagePair i = some p)
    (hidle : ∀ r, s.request p = some r → messageRow i r = false) : exec i s = .next s := by
  obtain ⟨t, hexec, hserves⟩ := exec_message i p s hi
  rw [hexec, hserves.idle hidle, onUnit, ite_self, whenOn_self]

theorem serveReq_again {s : State} {r : Req} (act : Act) (hv : s.verdict r = .again) :
    s.serveReq r act = (s.take r.pair).deliver r.pair (s.pair r.pair).stored := by
  simp only [State.serveReq, hv]

theorem exec_message_again {i : Instr} {p : Nat} {s : State} {r : Req} (hi : messagePair i = some p) (hp : p < 64) (hon : s.on = true)
    (hreq : s.request p = some r) (hrow : messageRow i r = true) (hv : s.verdict r = .again) :
    exec i s = .next (s.sameInputs ((s.take p).deliver p (s.pair p).stored)) := by
  obtain ⟨act, hexec⟩ := exec_message_stopped hi hp hon hreq hrow (by simp [hv])
  rw [hexec, serveReq_again act hv, (request_eq s p r hreq).2.1]

theorem messageChecks : Claims.MessageChecks := by
  intro i p s hi hp hon
  refine ⟨fun r st ex hreq hrow hv => ?_, fun r hreq hrow hv => exec_message_again hi hp hon hreq hrow hv,
    fun hidle => exec_message_idle hi hidle⟩
  obtain ⟨act, hexec⟩ := exec_message_stopped hi hp hon hreq hrow (by simp [hv])
  rw [hexec, serveReq_refused act hv, (request_eq s p r hreq).2.1]

/-! ## Answers (R377, R379) -/

/-- The reply registers of a pair hold a message, and `reply_valid` is set. -/
def State.shown (s : State) (p : Nat) (m : List Byte) : State := s.setPair p (fun x => { x with reply := padTo 256 m, replyV := true })

section
variable (s : State) (p : Nat) (m : List Byte)

theorem deliver_unread (h : (s.pair p).replyV = true) : s.deliver p m = s.setPair p (fun x => { x with due := some m }) := if_pos h

theorem deliver_read (h : (s.pair p).replyV = false) :
    s.deliver p m = (s.shown p m).irq (pairOwner p) 0 :=
  if_neg (by simp [h])

end

/-- The pair that an answer has reached, before its message is delivered. -/
def State.kept (s : State) (p : Nat) (m : List Byte) : State := s.setPair p (fun x => { x with stored := m, busy := false })

theorem answerFrame : Claims.AnswerFrame := by
  intro s r st e hp t h
  let m := s.replyBytes r st e
  let u := s.kept r.pair m
  have hpair : u.pair r.pair = { s.pair r.pair with stored := m, busy := false } := State.pair_setPair s _ _ hp
  have hlen : r.pair < u.pairs.length := hp.trans_eq (length_lMod _ _ _).symm
  refine ⟨deliver_frame _ _ _, fun q hq => ?others, fun hread => ?read, fun hunread => ?unread⟩
  case others => exact (deliver_pair_other u _ _ _ hq).trans (State.pair_setPair_other _ _ _ _ hq)
  case read =>
    have ht : t = (u.shown r.pair m).irq (pairOwner r.pair) 0 := deliver_read u r.pair m (by rw [hpair]; exact hread)
    refine ⟨?_, fun hopen => ?_, fun hclosed => ?_⟩
    · rw [ht, pair_irq, State.shown, State.pair_setPair _ _ _ hlen, hpair]
    · rw [ht, irq_open (s := u.shown r.pair m) 0 hopen]
      exact ⟨rfl, rfl⟩
    · rw [ht, irq_held (s := u.shown r.pair m) 0 hclosed]
      rfl
  case unread =>
    have ht : t = u.setPair r.pair (fun x => { x with due := some m }) := deliver_unread u r.pair m (by rw [hpair]; exact hunread)
    refine ⟨?_, ?_, ?_⟩
    · rw [ht, State.pair_setPair _ _ _ hlen, hpair]
    · rw [ht]
      rfl
    · rw [ht]
      rfl

/-- Settles O7: a stopped request of a command's row is served with its refusal or its kept reply, and an answer reaches its pair. -/
theorem requestsAndAnswers : Obligations.RequestsAndAnswers := ⟨messageChecks, answerFrame⟩

/-! ## Sequence numbers (R379) -/

/-- A request that passes the checks before its sequence number: its bytes are sound, its pair is negotiated, its version is the
pair's, and it is no negotiation. -/
structure State.ReachesSequence (s : State) (r : Req) : Prop where
  sound : r.crcOk = true
  other : r.type ≠ 1
  negotiated : (s.pair r.pair).major ≠ 0
  major : r.major = (s.pair r.pair).major
  minor : r.minor ≤ (s.pair r.pair).minor

section
variable {s : State} {r : Req} (h : s.ReachesSequence r)
include h

theorem verdict_repeat (hseq : r.seq = (s.pair r.pair).lastSeq) (hstored : (s.pair r.pair).stored ≠ []) : s.verdict r = .again := by
  obtain ⟨hcrc, htype, hmajor0, hmajor, hminor⟩ := h
  have hminor := not_lt.mpr hminor
  simp [State.verdict, hcrc, htype, hmajor0, hmajor, hminor, hseq, hstored]

/-- Neither the next number nor one with a kept reply is another one. -/
theorem verdict_other_number (hkept : r.seq = (s.pair r.pair).lastSeq → (s.pair r.pair).stored = [])
    (hnext : r.seq ≠ ((s.pair r.pair).lastSeq + 1) % 65536) :
    s.verdict r = .refuse 0xf4 (toLE 2 (((s.pair r.pair).lastSeq + 1) % 65536)) := by
  obtain ⟨hcrc, htype, hmajor0, hmajor, hminor⟩ := h
  have hminor := not_lt.mpr hminor
  simp [State.verdict, hcrc, htype, hmajor0, hmajor, hminor, hnext]
  exact hkept

end

/-- The checks that follow the sequence number refuse with statuses of their own. -/
theorem verdict_next_number {s : State} {r : Req} (h : s.ReachesSequence r) (hseq : r.seq = ((s.pair r.pair).lastSeq + 1) % 65536) :
    s.verdict r ≠ .again ∧ ∀ e, s.verdict r ≠ .refuse 0xf4 e := by
  have horphan : orphanStatus r.type ≠ 0xf4 := by
    unfold orphanStatus
    split
    · decide
    · split <;> decide
  obtain ⟨hcrc, htype, hmajor0, hmajor, hminor⟩ := h
  have hminor := not_lt.mpr hminor
  have hnew : r.seq ≠ (s.pair r.pair).lastSeq := by omega
  unfold State.verdict
  rw [if_neg (by simp [hcrc]), if_neg (by simp [hmajor0]), if_neg (by simp [hmajor, hminor]), if_neg (by simp [hnew]),
    if_neg (by simp [hseq])]
  cases msgLen r.type with
  | none => simp
  | some n =>
    dsimp only
    split_ifs
    all_goals simp [horphan]

theorem State.pair_setPair_keeps {β : Type} (s : State) (p q : Nat) (f : Pair → Pair) (part : Pair → β)
    (h : ∀ x, part (f x) = part x) : part ((s.setPair p f).pair q) = part (s.pair q) := by
  by_cases hq : q = p
  · subst hq
    exact (getD_lMod_part s.pairs q f Pair.reset part (h _)).trans (h _)
  · rw [State.pair_setPair_other _ _ _ _ hq]

/-- An answer leaves the last accepted number of every pair. -/
theorem answer_lastSeq (s : State) (r : Req) (st q : Nat) (e : List Byte) :
    ((s.answer r st e).pair q).lastSeq = (s.pair q).lastSeq := by
  have hkept : ((s.kept r.pair (s.replyBytes r st e)).pair q).lastSeq = (s.pair q).lastSeq :=
    State.pair_setPair_keeps s _ q _ Pair.lastSeq (fun _ => rfl)
  refine Eq.trans ?_ hkept
  cases h : ((s.kept r.pair (s.replyBytes r st e)).pair r.pair).replyV with
  | true =>
    exact (congrArg (fun t : State => (t.pair q).lastSeq) (deliver_unread _ _ _ h)).trans
      (State.pair_setPair_keeps _ _ q _ Pair.lastSeq (fun _ => rfl))
  | false =>
    refine (congrArg (fun t : State => (t.pair q).lastSeq) (deliver_read _ _ _ h)).trans ?_
    rw [pair_irq]
    exact State.pair_setPair_keeps _ _ q _ Pair.lastSeq (fun _ => rfl)

/-- Settles O9: the numbers of a pair are judged by `State.verdict`, kept by `State.accepted` and repeated by every message command. -/
theorem sequenceNumbers : Obligations.SequenceNumbers := by
  refine ⟨?numbers, ?kept, fun i p s r hi hp hon hreq hrow hv => exec_message_again hi hp hon hreq hrow hv, ?expected, ?negotiation⟩
  case numbers =>
    intro s r x hcrc htype hmajor0 hmajor hminor _ _
    have h : s.ReachesSequence r := ⟨hcrc, htype, hmajor0, hmajor, hminor⟩
    have hnext : r.seq = x.lastSeq → r.seq ≠ (x.lastSeq + 1) % 65536 := by omega
    exact ⟨verdict_next_number h, verdict_repeat h, fun hseq hstored => verdict_other_number h (fun _ => hstored) (hnext hseq),
      fun hseq hother => verdict_other_number h (fun hs => absurd hs hseq) hother⟩
  case kept =>
    intro s r hp
    rw [State.accepted, State.pair_setPair _ _ _ (by simpa [State.take] using hp)]
  case expected =>
    intro s r e
    obtain ⟨h, hbytes, hlen⟩ := replyBytes_status s r 0xf4 (toLE 2 ((s.pair r.pair).lastSeq + 1) ++ e)
    exact ⟨h, by rw [hbytes, ← List.append_assoc]; rfl, hlen⟩
  case negotiation =>
    intro s p m r h hm hp
    obtain ⟨-, hreq, -, -⟩ := accepts_elim s p _ r h
    obtain ⟨-, rfl, -⟩ := request_eq s p r hreq
    refine ⟨_, exec_versionNegotiation_listed h hm, (answer_lastSeq _ _ _ _ _).trans ?_⟩
    rw [State.pair_setPair _ _ _ (by simpa [State.accepted, State.take] using hp)]

end Sys2Proof.Machine

/-! SUPPORT. Proofs about the time base: its edges, the triggers that a step passes, the writes of its registers, and the pulse servo. -/

namespace Sys2Proof.Machine

/-! ## Edges of REFCLK (R349, R350) -/

/-- SYNCE_IN's rate as an edge takes it up. -/
def TimeBase.measuring (t : TimeBase) (synce : Option (Nat × Nat)) : TimeBase :=
  { t with
    measured := match synce with | some p => p.1 * 0x100000000 + p.2 | none => t.measured
    synce := t.source = 1 && synce.isSome }

theorem edge_eq (t : TimeBase) (synce : Option (Nat × Nat)) : t.edge synce = { t.measuring synce with
    count := (t.count + t.stepAdd + (t.frac + (t.measuring synce).tick.1) / M32) % 0x10000000000000000,
    frac := (t.frac + (t.measuring synce).tick.1) % M32, stepAdd := 0, absorb := t.absorb - (t.measuring synce).tick.2 } := rfl

/-- Without a rate of SYNCE_IN a tick is what it was. -/
theorem tick_measuring_none (t : TimeBase) : (t.measuring none).tick = t.tick := rfl

/-- A tick adds at most its rate. -/
theorem tick_le_rate (t : TimeBase) : t.tick.1 ≤ t.rate := Nat.sub_le _ _

/-- With enough left to absorb, a tick of a negative step adds half of the increment, rounded down (R351). -/
theorem tick_absorbing (t : TimeBase) (h : t.stepping = true) (ha : t.rate - t.rate / 2 ≤ t.absorb) :
    t.tick = (t.rate / 2, t.rate - t.rate / 2) := by
  simp only [TimeBase.tick, h, if_true, Nat.min_eq_right ha, Prod.mk.injEq, and_true]
  omega

/-- The instant that a tick alone reaches. -/
def TimeBase.tickTo (t : TimeBase) : Nat := t.count + (t.frac + t.rate) / M32

theorem edge_count_step (t : TimeBase) (hs : t.stepping = false) (h : t.count + t.stepAdd + (t.frac + t.rate) / M32 < 0x10000000000000000) :
    (t.edge none).count = t.tickTo + t.stepAdd := by
  rw [edge_eq, tick_measuring_none, tick_whole t hs]
  dsimp only
  rw [Nat.mod_eq_of_lt h, TimeBase.tickTo]
  omega

/-- The count never decreases. -/
theorem count_le_edge (t : TimeBase) (h : t.count + t.stepAdd + (t.frac + t.rate) / M32 < 0x10000000000000000) :
    t.count ≤ (t.edge none).count := by
  have hle : (t.frac + t.tick.1) / M32 ≤ (t.frac + t.rate) / M32 := Nat.div_le_div_right (Nat.add_le_add_left (tick_le_rate t) _)
  rw [edge_eq, tick_measuring_none]
  dsimp only
  rw [Nat.mod_eq_of_lt (by omega), Nat.add_assoc]
  exact Nat.le_add_right _ _

/-- Under source 1 the servo's correction lasts for the second after a pulse (R352). -/
theorem servo_recent (t : TimeBase) (a : Nat) (hsource : t.source = 1) (ha : t.ppsLast = some a) (h : t.count < a + 1000000000) :
    t.servo = t.ppsAdj := by
  simp [TimeBase.servo, hsource, ha, h]

theorem servo_over (t : TimeBase) (hsource : t.source = 1) (h : ∀ a, t.ppsLast = some a → a + 1000000000 ≤ t.count) : t.servo = 0 := by
  cases ha : t.ppsLast with
  | none => simp [TimeBase.servo, hsource, ha]
  | some a => simp [TimeBase.servo, hsource, ha, Nat.not_lt.mpr (h a ha)]

/-- The rate of a tick under SYNCE_IN is the rate that it brings, with the servo's correction. -/
theorem edge_synce_count (t : TimeBase) (i f : Nat) (hsource : t.source = 1) (hs : t.stepping = false) : (t.edge (some (i, f))).count =
    (t.count + t.stepAdd + (t.frac + ((i * M32 + f : Nat) + t.servo : Int).toNat) / M32) % 0x10000000000000000 := by
  have hrate : (t.measuring (some (i, f))).rate = ((i * M32 + f : Nat) + t.servo : Int).toNat := by
    unfold TimeBase.rate
    rw [if_pos (by exact hsource)]
    rfl
  rw [edge_eq, tick_whole _ (by exact hs), hrate]

/-! ## Triggers that a positive step passes (R351) -/

theorem aGet_map_snd (m : AMap α) (f : α → β) (k : Nat) : aGet (m.map (fun e => (e.1, f e.2))) k = (aGet m k).map f := by
  induction m with
  | nil => rfl
  | cons e l ih =>
    obtain ⟨a, v⟩ := e
    simp only [List.map_cons, aGet]
    split
    · rfl
    · exact ih

theorem mem_of_aGet {m : AMap α} {k : Nat} {x : α} (h : aGet m k = some x) : (k, x) ∈ m := by
  induction m with
  | nil => cases h
  | cons e l ih =>
    obtain ⟨a, v⟩ := e
    by_cases ha : a = k
    · rw [aGet, if_pos ha] at h
      subst ha
      cases h
      exact List.mem_cons_self
    · rw [aGet, if_neg ha] at h
      exact List.mem_cons_of_mem _ (ih h)

theorem lt_firstTrigger_iff {g : LockGroup} (now k : Nat) (h : 0 < g.period) :
    k < firstTrigger g.epoch g.period now ↔ g.t k / lockUnit < now := by
  rw [← not_le, firstTrigger_le_iff now k h, LockGroup.t, not_le, lockUnit, Nat.div_lt_iff_lt_mul (by decide)]

theorem firstTrigger_le_iff_t {g : LockGroup} (now k : Nat) (h : 0 < g.period) :
    firstTrigger g.epoch g.period now ≤ k ↔ now ≤ g.t k / lockUnit := by
  rw [← not_lt, lt_firstTrigger_iff now k h, not_lt]

/-- No trigger of the group is due at the instant. -/
theorem beyond_eq_next {g : LockGroup} {c0 : Nat} (h : c0 < g.t g.next / lockUnit) : g.beyond c0 = g.next := by
  refine Nat.max_eq_left ?_
  by_cases hperiod : 0 < g.period
  · exact (firstTrigger_le_iff_t _ _ hperiod).mpr h
  · have hzero : g.period = 0 := by omega
    simp [firstTrigger, hzero]

theorem foldl_fire_frame {α : Type} (l : List α) (n : α → Nat) (s : State) :
    ∃ m, l.foldl (fun t e => t.fire (n e)) s = s.setMedia (fun _ => m) := by
  refine List.foldlRecOn (motive := fun t => ∃ m, t = s.setMedia (fun _ => m)) l _ ⟨s.media, rfl⟩ ?_
  rintro t ⟨m, rfl⟩ e -
  unfold State.fire
  split
  · exact ⟨m, rfl⟩
  · dsimp only
    split
    · exact ⟨m, rfl⟩
    · exact ⟨_, rfl⟩

/-- The triggers that fire and those that are missed change the lock groups and the contexts only. -/
theorem passTriggers_frame (s : State) (c0 c1 : Nat) : ∃ m, s.passTriggers c0 c1 = s.setMedia (fun _ => m) := by
  have hfire : ∃ m, s.fireDue c0 = s.setMedia (fun _ => m) := by
    refine List.foldlRecOn (motive := fun t => ∃ m, t = s.setMedia (fun _ => m)) s.media.groups _ ⟨s.media, rfl⟩ ?_
    rintro t ⟨m, rfl⟩ e -
    obtain ⟨m', h⟩ := foldl_fire_frame (List.range (e.2.beyond c0 - e.2.next)) (fun _ => e.1) (s.setMedia (fun _ => m))
    exact ⟨m', h⟩
  obtain ⟨m, h⟩ := hfire
  exact ⟨_, by rw [State.passTriggers, h]; rfl⟩

theorem refEdge_step {s : State} (h : s.ts.stepAdd ≠ 0) (synce : Option (Nat × Nat)) : s.refEdge synce =
    (s.setTs (fun x => x.edge synce)).passTriggers ((s.ts.edge synce).count - s.ts.stepAdd) (s.ts.edge synce).count := if_neg h

theorem refEdge_frame (s : State) (synce : Option (Nat × Nat)) :
    ∃ m, s.refEdge synce = { s with ts := s.ts.edge synce, media := m } ∧ (s.ts.stepAdd = 0 → m = s.media) := by
  by_cases h : s.ts.stepAdd = 0
  · exact ⟨s.media, by rw [refEdge_ts s synce h]; rfl, fun _ => rfl⟩
  · obtain ⟨m, hm⟩ := passTriggers_frame (s.setTs (fun x => x.edge synce)) ((s.ts.edge synce).count - s.ts.stepAdd)
      (s.ts.edge synce).count
    exact ⟨m, by rw [refEdge_step h, hm]; rfl, fun h0 => absurd h0 h⟩

theorem refEdge_now (s : State) (synce : Option (Nat × Nat)) : (s.refEdge synce).ts.count = (s.ts.edge synce).count := by
  obtain ⟨m, h, -⟩ := refEdge_frame s synce
  rw [h]

theorem exec_refclkEdge {s : State} (hon : s.on = true) (synce : Option (Nat × Nat)) :
    exec (.refclkEdge synce) s = .next (s.refEdge synce) := by
  obtain ⟨m, hm, -⟩ := refEdge_frame s synce
  have hexec : exec (.refclkEdge synce) s = .next (s.sameInputs (s.refEdge synce)) := whenOn_next s _ hon
  rw [hexec, hm]
  rfl

/-- A context that a step of the count passes with triggers of its group. -/
def Ctx.passedBy (groups : AMap LockGroup) (c0 c1 : Nat) (c : Ctx) : Ctx :=
  match c.group.bind (aGet groups) with
  | some g => if c.live then { c with missed := addStop c.missed (g.passed c0 c1) } else c
  | none => c

theorem passedBy_live {groups : AMap LockGroup} {n c0 c1 : Nat} {c : Ctx} {g : LockGroup} (hgroup : c.group = some n)
    (hg : aGet groups n = some g) (hlive : c.live = true) :
    c.passedBy groups c0 c1 = { c with missed := min (c.missed + g.passed c0 c1) 0xffffffff } := by
  simp only [Ctx.passedBy, hgroup, Option.bind_some, hg, hlive, if_true, addStop]

/-- A group whose triggers between an instant and a count are missed. -/
def LockGroup.pass (c0 c1 : Nat) (g : LockGroup) : LockGroup := { g with next := g.next + g.passed c0 c1 }

/-- What a step passes is a change of each group, once the triggers that are due have fired. -/
theorem passTriggers_groups (s : State) (c0 c1 : Nat) : (s.passTriggers c0 c1).media.groups =
    (s.fireDue c0).media.groups.map (fun e => (e.1, e.2.pass c0 c1)) := rfl

theorem passTriggers_ctxs (s : State) (c0 c1 : Nat) : (s.passTriggers c0 c1).media.ctxs =
    (s.fireDue c0).media.ctxs.map (fun e => (e.1, e.2.passedBy (s.fireDue c0).media.groups c0 c1)) := by
  have hctx : (fun e : Nat × Ctx => match e.2.group.bind (aGet (s.fireDue c0).media.groups) with
      | some g => if e.2.live then (e.1, { e.2 with missed := addStop e.2.missed (g.passed c0 c1) }) else e
      | none => e) = fun e => (e.1, e.2.passedBy (s.fireDue c0).media.groups c0 c1) := by
    funext e
    unfold Ctx.passedBy
    cases e.2.group.bind (aGet (s.fireDue c0).media.groups) with
    | none => rfl
    | some g => cases hlive : e.2.live <;> simp
  rw [← hctx]
  rfl

/-- With no trigger due nothing fires. -/
theorem fireDue_none {s : State} {c0 : Nat} (h : ∀ e ∈ s.media.groups, c0 < e.2.t e.2.next / lockUnit) : s.fireDue c0 = s := by
  refine List.foldlRecOn (motive := fun t => t = s) s.media.groups _ rfl ?_
  rintro t rfl e he
  rw [beyond_eq_next (h e he), Nat.sub_self]
  rfl

/-- The triggers that a step passes, from a group's first one beyond an instant to the count that is reached: the group's next number is
the first one that the count has not passed. -/
theorem next_passed {g : LockGroup} {c0 c1 : Nat} (hperiod : 0 < g.period) (hbeyond : g.beyond c0 = g.next) :
    g.next ≤ g.next + g.passed c0 c1 ∧ c1 ≤ g.t (g.next + g.passed c0 c1) / lockUnit ∧
      ∀ j, g.next ≤ j → j < g.next + g.passed c0 c1 → g.t j / lockUnit < c1 := by
  rw [LockGroup.passed, hbeyond]
  refine ⟨Nat.le_add_right _ _, (firstTrigger_le_iff_t _ _ hperiod).mp (by omega), fun j hj hlt => ?_⟩
  exact (lt_firstTrigger_iff _ _ hperiod).mp (by omega)

/-- The only group fires its one trigger that is due. -/
theorem fireDue_one {s : State} {n c0 : Nat} {g : LockGroup} (hgroups : s.media.groups = [(n, g)]) (hperiod : 0 < g.period)
    (hdue : g.t g.next / lockUnit ≤ c0) (hlate : c0 < g.t (g.next + 1) / lockUnit) (hnow : c0 ≤ s.now) :
    (s.fireDue c0).media.groups = [(n, { g with next := g.next + 1, high := some (g.t g.next / lockUnit + g.pulse) })] := by
  have hg : aGet s.media.groups n = some g := by simp [hgroups, aGet]
  have hbeyond : g.beyond c0 - g.next = 1 := by
    have hlo := (lt_firstTrigger_iff (c0 + 1) g.next hperiod).mpr (by omega)
    have hhi := (firstTrigger_le_iff_t (c0 + 1) (g.next + 1) hperiod).mpr (by omega)
    simp only [LockGroup.beyond]
    omega
  have hfire : s.fireDue c0 = s.fire n := by simp [State.fireDue, hgroups, hbeyond, List.range_succ]
  rw [hfire, fire_due hg (hdue.trans hnow)]
  simp [hgroups, aSet]

/-- What a positive step does before it: the edge reaches the count of its tick and the step. -/
theorem refEdge_passes {s : State} (hstep : s.ts.stepAdd ≠ 0) (hs : s.ts.stepping = false)
    (hsum : s.ts.count + s.ts.stepAdd + (s.ts.frac + s.ts.rate) / M32 < 0x10000000000000000) : s.refEdge none =
      (s.setTs (fun x => x.edge none)).passTriggers s.ts.tickTo (s.ts.edge none).count := by
  have hback : (s.ts.edge none).count - s.ts.stepAdd = s.ts.tickTo := by
    rw [edge_count_step s.ts hs hsum, Nat.add_sub_cancel]
  rw [refEdge_step hstep, hback]

/-! ## Steps (R351) -/

theorem step_refused (t : TimeBase) (x : Int) (h : t.stepping = true) (hlo : -1000000000 ≤ x) (hhi : x ≤ 1000000000) :
    t.step x = { t with refused := true } := by
  unfold TimeBase.step
  rw [if_neg (by omega), if_pos h]

/-- A negative step is absorbed from the next ticks. -/
theorem step_negative (t : TimeBase) (x : Int) (h : t.stepping = false) (hlo : -1000000000 ≤ x) (hneg : x < 0) :
    t.step x = { t with absorb := (-x).toNat * M32, stepping := true } := by
  unfold TimeBase.step
  rw [if_neg (by omega), if_neg (by simp [h]), if_neg (by omega)]
  rfl

/-- A word from 2^31 on stands for its distance below 2^32. -/
theorem signed32_negative (v : Nat) (hlo : 0x80000000 ≤ v) (hhi : v < M32) : signed32 (v % M32) = -((M32 - v : Nat) : Int) := by
  simp only [M32] at hhi ⊢
  simp only [signed32, Nat.mod_eq_of_lt hhi, if_neg (not_lt.mpr hlo)]
  omega

theorem exec_tsIncrWrite_virtual (s : State) {f : Nat} (v : Nat) (hf : f < 17) (h0 : f ≠ 0) : exec (.tsIncrWrite f v) s = .next s := by
  have hexec : exec (.tsIncrWrite f v) s = onUnit (f < 17) s (if f = 0 then s.setTs (fun t => t.writeIncr v) else s) := rfl
  rw [hexec, if_neg h0, self_next s _ (decide_eq_true hf)]

theorem exec_tsStep_virtual (s : State) {f : Nat} (v : Nat) (hf : f < 17) (h0 : f ≠ 0) : exec (.tsStep f v) s = .next s := by
  have hexec : exec (.tsStep f v) s = onUnit (f < 17) s (if f = 0 then s.setTs (fun t => t.step (signed32 (v % M32))) else s) := rfl
  rw [hexec, if_neg h0, self_next s _ (decide_eq_true hf)]

theorem timeAndSteps : Claims.TimeAndSteps := by
  refine ⟨?edge, ?missed, ?fired, ?synce, ?increment, ?step, fun s f v hf h0 => ⟨exec_tsIncrWrite_virtual s v hf h0,
    exec_tsStep_virtual s v hf h0⟩, ?absorbed⟩
  case edge =>
    intro s hon
    obtain ⟨m, hedge, hmedia⟩ := refEdge_frame s none
    rw [exec_refclkEdge hon, hedge]
    refine ⟨_, rfl, rfl, hmedia, fun hs _ => ?_, fun hs hleft _ hstep => ?_, fun hsum => count_le_edge s.ts hsum⟩
    · dsimp only
      rw [edge_eq, tick_measuring_none, tick_whole _ hs]
      exact ⟨rfl, rfl, rfl⟩
    · dsimp only
      rw [edge_eq, tick_measuring_none, tick_absorbing _ hs hleft, hstep]
      exact ⟨rfl, rfl, rfl⟩
  case missed =>
    intro s c n g x hon hstep hs _ hsum hperiod hg hx hgroup hlive before hnone
    have hfire : (s.setTs (fun x => x.edge none)).fireDue s.ts.tickTo = s.setTs (fun x => x.edge none) := fireDue_none hnone
    obtain ⟨hle, hreach, hpassed⟩ := next_passed (c1 := (s.ts.edge none).count) hperiod (beyond_eq_next (hnone _ (mem_of_aGet hg)))
    refine ⟨_, exec_refclkEdge hon none, _, hle, ?_, ?_, by rwa [refEdge_now], by rwa [refEdge_now]⟩
    · rw [refEdge_passes hstep hs hsum, passTriggers_groups, hfire, aGet_map_snd]
      exact congrArg (Option.map _) hg
    · rw [refEdge_passes hstep hs hsum, State.ctx?, passTriggers_ctxs, hfire, aGet_map_snd]
      refine (congrArg (Option.map _) hx).trans (congrArg some ?_)
      rw [Nat.add_sub_cancel_left]
      exact passedBy_live hgroup hg hlive
  case fired =>
    intro s n g hon hstep hs _ hsum hperiod hgroups before hdue hlate
    have hcount : (s.ts.edge none).count = before + s.ts.stepAdd := edge_count_step s.ts hs hsum
    have hfired := fireDue_one (s := s.setTs (fun x => x.edge none)) hgroups hperiod hdue hlate
      (hcount.ge.trans' (Nat.le_add_right before s.ts.stepAdd))
    obtain ⟨hle, hreach, hpassed⟩ := next_passed (c1 := (s.ts.edge none).count)
      (g := { g with next := g.next + 1, high := some (g.t g.next / lockUnit + g.pulse) }) hperiod (beyond_eq_next hlate)
    refine ⟨_, exec_refclkEdge hon none, _, hle, ?_, by rw [refEdge_now]; exact hreach, fun j hj hlt => ?_⟩
    · rw [refEdge_passes hstep hs hsum, passTriggers_groups]
      exact congrArg (List.map _) hfired
    · rw [refEdge_now]
      obtain rfl | hj := hj.eq_or_lt
      · omega
      · exact hpassed j hj hlt
  case synce =>
    intro s i f hon hsource hs
    refine ⟨_, exec_refclkEdge hon _, ?_⟩
    obtain ⟨m, hedge, -⟩ := refEdge_frame s (some (i, f))
    rw [hedge]
    refine ⟨by simp [edge_eq, TimeBase.measuring, hsource], rfl, fun a ha hrecent => ?_, fun hover => ?_⟩
    · rw [edge_synce_count _ _ _ hsource hs, servo_recent _ a hsource ha hrecent]
    · rw [edge_synce_count _ _ _ hsource hs, servo_over _ hsource hover, Int.add_zero, Int.toNat_natCast]
  case increment =>
    intro s v hon
    rw [exec_tsIncrWrite]
    refine ⟨fun hsource => whenOn_setTs s _ _ hon (if_neg hsource), fun hsource => ?_⟩
    exact whenOn_setTs s (fun t => t.writeIncr v) (fun t => t) hon (if_pos hsource)
  case step =>
    intro s v hon hv
    rw [exec_tsStep]
    refine ⟨fun hs hle => whenOn_setTs s _ _ hon ?_, fun hs hle => whenOn_setTs s _ _ hon ?_, fun hs hrange => whenOn_setTs s _ _ hon ?_⟩
    · rw [signed32_small v (by omega), step_positive _ _ hs hle]
    · simp only [M32] at hle
      rw [signed32_negative v (by omega) hv, step_negative _ _ hs (by simp only [M32] at hv ⊢; omega) (by simp only [M32] at hv ⊢; omega),
        neg_neg, Int.toNat_natCast]
    · obtain hle | hle := hrange
      · rw [signed32_small v (by omega), step_refused _ _ hs (by omega) (by omega)]
      · simp only [M32] at hle
        rw [signed32_negative v (by omega) hv, step_refused _ _ hs (by simp only [M32] at hv ⊢; omega) (by simp only [M32] at hv ⊢; omega)]
  case absorbed =>
    intro s hon
    refine ⟨fun h => ?_, fun h => ?_⟩
    · exact whenOn_setTs s (fun t => if t.absorb = 0 then { t with stepping := false } else t) _ hon (if_pos h)
    · exact whenOn_setTs s (fun t => if t.absorb = 0 then { t with stepping := false } else t) (fun t => t) hon (if_neg h)

/-! ## The pulse servo and PPS_OUT (R352) -/

/-- How many of the last pulses lay within ±50 ns, with this one. -/
def TimeBase.good (t : TimeBase) : Nat := if -50 ≤ secondError t.count ∧ secondError t.count ≤ 50 then t.ppsGood + 1 else 0

/-- What the servo notes of a pulse, before it corrects the count. -/
def TimeBase.noted (t : TimeBase) : TimeBase :=
  { t with ppsError := secondError t.count, ppsGood := min t.good 3, locked := 3 ≤ t.good, holdover := false, ppsLast := some t.count }

theorem secondError_range (c : Nat) : -500000000 < secondError c ∧ secondError c ≤ 500000000 := by
  unfold secondError
  split <;> omega

theorem noted_locked (t : TimeBase) : t.noted.locked = true ↔ -50 ≤ secondError t.count ∧ secondError t.count ≤ 50 ∧ 2 ≤ t.ppsGood := by
  have hlocked : t.noted.locked = decide (3 ≤ t.good) := rfl
  rw [hlocked, decide_eq_true_eq, TimeBase.good]
  split <;> omega

/-- How the servo corrects a pulse's difference: by a step above 1 µs, and by a rate below (log entry 14). -/
theorem ppsEdge_cases {t : TimeBase} (h : t.servoOn = true) :
    (secondError t.count < -1000 → t.stepping = false →
      t.ppsEdge = { t.noted with stepAdd := t.stepAdd + (-secondError t.count).toNat }) ∧
    (1000 < secondError t.count → t.stepping = false →
      t.ppsEdge = { t.noted with absorb := (secondError t.count).toNat * M32, stepping := true }) ∧
    (secondError t.count < -1000 ∨ 1000 < secondError t.count → t.stepping = true → t.ppsEdge = t.noted) ∧
    (-1000 ≤ secondError t.count → secondError t.count ≤ 1000 →
      t.ppsEdge = { t.noted with ppsAdj := Config.servoRate (secondError t.count) }) := by
  have hedge : t.ppsEdge = if secondError t.count < -1000 ∨ 1000 < secondError t.count then
      (if t.stepping then t.noted else t.noted.step (-secondError t.count))
      else { t.noted with ppsAdj := Config.servoRate (secondError t.count) } := if_neg (by simp [h])
  obtain ⟨hlo, hhi⟩ := secondError_range t.count
  rw [hedge]
  refine ⟨fun hfar hs => ?_, fun hfar hs => ?_, fun hfar hs => ?_, fun hnear hnear' => if_neg (by omega)⟩
  · rw [if_pos (.inl hfar), if_neg (by simp [hs])]
    have hstep := step_positive t.noted (-secondError t.count).toNat hs (by omega)
    rwa [Int.toNat_of_nonneg (by omega)] at hstep
  · rw [if_pos (.inr hfar), if_neg (by simp [hs]), step_negative t.noted _ hs (by omega) (by omega), neg_neg]
  · rw [if_pos hfar, if_pos hs]

/-- Whatever the correction, a pulse leaves the count and its increment, and says whether the servo is locked. -/
theorem ppsEdge_keeps {t : TimeBase} (h : t.servoOn = true) : t.ppsEdge.ppsError = secondError t.count ∧
    (t.ppsEdge.count, t.ppsEdge.frac, t.ppsEdge.inc) = (t.count, t.frac, t.inc) ∧ t.ppsEdge.holdover = false ∧
    t.ppsEdge.locked = t.noted.locked := by
  obtain ⟨hlow, hhigh, hbusy, hnear⟩ := ppsEdge_cases h
  by_cases hfar : secondError t.count < -1000 ∨ 1000 < secondError t.count
  · cases hs : t.stepping with
    | true =>
      rw [hbusy hfar hs]
      exact ⟨rfl, rfl, rfl, rfl⟩
    | false =>
      obtain hfar | hfar := hfar
      · rw [hlow hfar hs]
        exact ⟨rfl, rfl, rfl, rfl⟩
      · rw [hhigh hfar hs]
        exact ⟨rfl, rfl, rfl, rfl⟩
  · rw [hnear (by omega) (by omega)]
    exact ⟨rfl, rfl, rfl, rfl⟩

theorem exec_ppsInEdge {s : State} (hon : s.on = true) : exec .ppsInEdge s = .next (s.setTs TimeBase.ppsEdge) :=
  whenOn_next s _ hon

theorem pulseServo : Claims.PulseServo := by
  refine ⟨?off, ?pulse, ?holdover, ?out, ?outOff⟩
  case off =>
    intro s hon hservo
    exact whenOn_setTs s TimeBase.ppsEdge (fun t => t) hon (if_pos (by simp [hservo]))
  case pulse =>
    intro s hon hservo
    obtain ⟨hlow, hhigh, -, hnear⟩ := ppsEdge_cases hservo
    obtain ⟨herror, hcount, hholdover, hlocked⟩ := ppsEdge_keeps hservo
    refine ⟨_, exec_ppsInEdge hon, rfl, herror, hcount, hholdover, ?_, fun hfar hs => ?_, fun hfar hs => ?_, fun hlo hhi => ?_⟩
    · rw [← noted_locked, ← hlocked]
      rfl
    · rw [State.setTs, hlow hfar hs]
      exact ⟨rfl, rfl⟩
    · rw [State.setTs, hhigh hfar hs]
      exact ⟨rfl, rfl, rfl⟩
    · rw [State.setTs, hnear hlo hhi]
      exact ⟨rfl, rfl, rfl⟩
  case holdover =>
    intro s a hon hlast hservo
    refine ⟨fun hlate => whenOn_setTs s _ _ hon (enterHoldover_late _ a hlast hservo hlate), fun hearly => ?_⟩
    refine whenOn_setTs s TimeBase.enterHoldover (fun t => t) hon ?_
    simp [TimeBase.enterHoldover, hlast, Nat.not_le.mpr hearly]
  case out =>
    intro s hon hout hcount
    have hrise : s.ts.ppsRise = { s.ts with ppsHigh := some (s.ts.count - s.ts.count % 1000000000 + 100000) } :=
      if_pos (by simp [hout, hcount])
    refine ⟨_, whenOn_setTs s TimeBase.ppsRise (fun _ => _) hon hrise, rfl, fun d hd => ?_, fun d hd => ?_⟩
    · simp only [TimeBase.ppsPin, State.setTs, decide_eq_true_eq]
      omega
    · simp only [TimeBase.ppsPin, State.setTs, decide_eq_false_iff_not]
      omega
  case outOff =>
    intro s hon hout
    exact whenOn_setTs s TimeBase.ppsRise (fun t => t) hon (if_neg (by simp [hout]))

/-- Settles O38: an edge adds what its tick adds with a positive step and passes triggers, and a pulse is noted and corrected. -/
theorem timeBaseRules : Obligations.TimeBaseRules := ⟨timeAndSteps, pulseServo⟩

end Sys2Proof.Machine

/-! SUPPORT. Proofs about the transactions of the USB port: their checks, what the attachment and a rescue open, and their effects. -/

namespace Sys2Proof.Machine

/-! ## Transactions of the USB port (R340, R384) -/

@[simp] theorem State.sameInputs_usbAnswer (s : State) (tag st : Nat) (d : List Byte) :
    s.sameInputs (s.usbAnswer tag st d) = s.usbAnswer tag st d := rfl

section
variable {s : State} (hon : s.on = true) (tag o a n p : Nat) (d : List Byte)
include hon

theorem exec_usbRegisterRead : exec (.usbRegisterRead tag o n) s = .next (s.sameInputs (s.usbRead tag o n)) := whenOn_next s _ hon

theorem exec_usbRegisterWrite : exec (.usbRegisterWrite tag o d) s = .next (s.sameInputs (s.usbWrite tag o d)) := whenOn_next s _ hon

theorem exec_usbDeviceRead : exec (.usbDeviceRead tag a n) s = .next (s.sameInputs (s.usbDevRead tag a n)) := whenOn_next s _ hon

theorem exec_usbDeviceWrite : exec (.usbDeviceWrite tag a d) s = .next (s.sameInputs (s.usbDevWrite tag a d)) := whenOn_next s _ hon

theorem exec_usbMailboxMessage : exec (.usbMailboxMessage tag p d) s = .next (s.sameInputs (s.usbMessage tag p d)) := whenOn_next s _ hon

end

section
variable {s : State} {tag o a n p : Nat} {d : List Byte}

/-! ### Register words -/

theorem usbRead_length (h : usbLength n = false) : s.usbRead tag o n = s.usbAnswer tag 2 [] := by
  simp [State.usbRead, h]

theorem usbRead_rescue (h : usbLength n = true) (hr : s.inRescue = true) (ho : 0x10000 < o + n) :
    s.usbRead tag o n = s.usbAnswer tag 1 [] := by
  simp [State.usbRead, h, hr, ho]

theorem usbRead_word (h : s.inRescue = false ∨ o + 4 ≤ 0x10000) :
    s.usbRead tag o 4 = (s.readReg 0 o).usbAnswer tag 0 (toLE 4 (s.regValue 0 o)) := by
  have hserved : ¬ (s.inRescue && decide (0x10000 < o + 4)) = true := by
    obtain h | h := h
    · simp [h]
    · simp [Nat.not_lt.mpr h]
  unfold State.usbRead
  rw [if_neg (by decide), if_neg hserved]
  simp only [State.readWords, List.append_nil]

theorem exec_usbRegisterRead_word (hon : s.on = true) (h : s.inRescue = false ∨ o + 4 ≤ 0x10000) :
    exec (.usbRegisterRead tag o 4) s = .next ((s.readReg 0 o).usbAnswer tag 0 (toLE 4 (s.regValue 0 o))) := by
  have hkeeps := congrArg (fun t : State => t.usbAnswer tag 0 (toLE 4 (s.regValue 0 o))) (sameInputs_readReg s 0 o)
  rw [exec_usbRegisterRead hon, usbRead_word h]
  exact congrArg Host.Outcome.next hkeeps

theorem usbWrite_length (h : usbLength d.length = false) : s.usbWrite tag o d = s.usbAnswer tag 2 [] := by
  simp [State.usbWrite, h]

theorem usbWrite_closed (h : usbLength d.length = true) (hclosed : s.inRescue = true ∨ s.fw.attach ≠ 1) :
    s.usbWrite tag o d = s.usbAnswer tag 1 [] := by
  simp [State.usbWrite, h, hclosed]

theorem usbWrite_word (hr : s.inRescue = false) (hattach : s.fw.attach = 1) (h : d.length = 4) :
    s.usbWrite tag o d = (s.writeReg 0 o (leNat d)).usbAnswer tag 0 [] := by
  have hword : fld d 0 4 = leNat d := by rw [fld, List.drop_zero, List.take_of_length_le h.le]
  simp [State.usbWrite, usbLength, h, hr, hattach, State.writeWords, hword]

/-! ### Device space -/

theorem usbDevRead_length (h : usbLength n = false ∨ (s.inRescue = false ∧ 0x1000000000 < a + n)) :
    s.usbDevRead tag a n = s.usbAnswer tag 2 [] := by
  unfold State.usbDevRead
  cases hlen : usbLength n with
  | false => rfl
  | true =>
    obtain ⟨hr, hbeyond⟩ := h.resolve_left (by simp [hlen])
    simp [hr, hbeyond]

theorem usbDevRead_rescue (h : usbLength n = true) (hr : s.inRescue = true) : s.usbDevRead tag a n = s.usbAnswer tag 1 [] := by
  simp [State.usbDevRead, h, hr]

theorem usbDevRead_bytes (h : usbLength n = true) (hr : s.inRescue = false) (ha : a + n ≤ 0x1000000000) :
    s.usbDevRead tag a n = ((s.touchAll a n).logBar2 0 a n false).usbAnswer tag 0 (s.bar2Bytes 0 a n) := by
  simp [State.usbDevRead, h, hr, Nat.not_lt.mpr ha]

theorem usbDevWrite_length (h : usbLength d.length = false ∨ (s.inRescue = false ∧ 0x1000000000 < a + d.length)) :
    s.usbDevWrite tag a d = s.usbAnswer tag 2 [] := by
  unfold State.usbDevWrite
  cases hlen : usbLength d.length with
  | false => split <;> rfl
  | true =>
    obtain ⟨hr, hbeyond⟩ := h.resolve_left (by simp [hlen])
    simp [hr, hbeyond]

theorem usbDevWrite_closed (h : usbLength d.length = true) (hr : s.inRescue = false) (ha : a + d.length ≤ 0x1000000000)
    (hattach : s.fw.attach ≠ 1) : s.usbDevWrite tag a d = s.usbAnswer tag 1 [] := by
  simp [State.usbDevWrite, h, hr, Nat.not_lt.mpr ha, hattach]

theorem usbDevWrite_bytes (h : usbLength d.length = true) (hr : s.inRescue = false) (ha : a + d.length ≤ 0x1000000000)
    (hattach : s.fw.attach = 1) :
    s.usbDevWrite tag a d = (((s.touchAll a d.length).logBar2 0 a d.length true).bar2Put 0 a d).usbAnswer tag 0 [] := by
  simp [State.usbDevWrite, h, hr, Nat.not_lt.mpr ha, hattach]

theorem usbDevWrite_rescue (h : usbLength d.length = true) (hr : s.inRescue = true) : s.usbDevWrite tag a d =
    if 0x1000000 < a + d.length then s.usbAnswer tag 1 [] else (s.rescuePut a d).usbAnswer tag 0 [] := by
  simp [State.usbDevWrite, h, hr]

theorem irq_usb (s : State) (f v : Nat) : (s.irq f v).out.usb = s.out.usb := by
  unfold State.irq
  split <;> rfl

theorem logE_usb (s : State) (code cls fn suite kind unit a b c : Nat) :
    (s.logE code cls fn suite kind unit a b c).out.usb = s.out.usb := by
  obtain ⟨e, h⟩ := logE_raises s code cls fn suite kind unit a b c
  rw [h]
  split
  · rw [irq_usb, irq_usb]
    rfl
  · rw [irq_usb]
    rfl

/-- A disallowed page of an access makes an entry in the event log, which leaves memory and the responses of the USB port. -/
theorem logBar2_leaves (s : State) (f a n : Nat) (w : Bool) :
    (s.logBar2 f a n w).hbm = s.hbm ∧ (s.logBar2 f a n w).hostMem = s.hostMem ∧ (s.logBar2 f a n w).out.usb = s.out.usb := by
  refine List.foldlRecOn (motive := fun t : State => t.hbm = s.hbm ∧ t.hostMem = s.hostMem ∧ t.out.usb = s.out.usb)
    (pagesOf a n) _ ⟨rfl, rfl, rfl⟩ ?_
  rintro t ⟨hhbm, hhost, husb⟩ v -
  split
  · exact ⟨hhbm, hhost, husb⟩
  · exact ⟨(State.logE_hbm ..).trans hhbm, (State.logE_hostMem ..).trans hhost, (logE_usb ..).trans husb⟩

/-- A read of device space answers its bytes and leaves memory as it is. -/
theorem exec_usbDeviceRead_bytes (hon : s.on = true) (h : usbLength n = true) (hr : s.inRescue = false) (ha : a + n ≤ 0x1000000000) :
    ∃ t : State, exec (.usbDeviceRead tag a n) s = .next t ∧
      t.out.usb = s.out.usb ++ [toLE 1 tag ++ [0, 0, 0] ++ s.bar2Bytes 0 a n] ∧ t.hbm = s.hbm ∧ t.hostMem = s.hostMem := by
  obtain ⟨c, m, x, htouch⟩ := touchAll_frame s a n
  obtain ⟨hhbm, hhost, husb⟩ := logBar2_leaves (s.touchAll a n) 0 a n false
  rw [htouch] at hhbm hhost husb
  rw [exec_usbDeviceRead hon, usbDevRead_bytes h hr ha, htouch]
  refine ⟨_, rfl, congrArg₂ (· ++ [·]) husb ?_, hhbm, hhost⟩
  simp only [List.append_assoc]
  rfl

/-! ### Mailbox messages -/

theorem usbMessage_length (h : usbLength d.length = false ∨ 256 < d.length) : s.usbMessage tag p d = s.usbAnswer tag 2 [] := by
  simp [State.usbMessage, h]

theorem usbMessage_rescue (h : usbLength d.length = true) (hlen : d.length ≤ 256) (hr : s.inRescue = true) (htype : fld d 2 2 ≠ 0x0048) :
    s.usbMessage tag p d = s.usbAnswer tag 1 [] := by
  simp [State.usbMessage, h, Nat.not_lt.mpr hlen, hr, htype]

/-- The attachment opens a pair of function 0 for a message over USB, and its last request has been taken. -/
def State.UsbOpen (s : State) (p : Nat) : Prop := (s.fw.attach = 1 ∨ p = 15) ∧ p < 16 ∧ (s.pair p).reqV = false

section
variable (h : usbLength d.length = true) (hlen : d.length ≤ 256) (hserved : s.inRescue = false ∨ fld d 2 2 = 0x0048)
include h hlen hserved

theorem usbMessage_open (hopen : s.UsbOpen p) :
    s.usbMessage tag p d = (s.setPair p (fun x => { x with req := padTo 256 d, reqV := true })).usbAnswer tag 0 [] := by
  obtain ⟨hattach, hp, hreq⟩ := hopen
  unfold State.usbMessage
  rw [if_neg (by simp [h, hlen]), if_neg (by simpa [imp_iff_or_not, or_comm] using hserved), if_neg (by simp [hp, hreq]; tauto)]

theorem exec_usbMailboxMessage_open (hon : s.on = true) (hopen : s.UsbOpen p) : exec (.usbMailboxMessage tag p d) s =
    .next ((s.setPair p (fun x => { x with req := padTo 256 d, reqV := true })).usbAnswer tag 0 []) := by
  rw [exec_usbMailboxMessage hon, usbMessage_open h hlen hserved hopen]
  rfl

theorem usbMessage_closed (hopen : ¬ s.UsbOpen p) : s.usbMessage tag p d = s.usbAnswer tag 1 [] := by
  have hclosed : (s.fw.attach != 1 && p != 15 || decide (16 ≤ p) || (s.pair p).reqV) = true := by
    rw [State.UsbOpen, not_and_or, not_and_or, not_or] at hopen
    obtain ⟨hattach, hp⟩ | hp | hreq := hopen
    · simp [hattach, hp]
    · simp [not_lt.mp hp]
    · simp [hreq]
  unfold State.usbMessage
  rw [if_neg (by simp [h, hlen]), if_neg (by simpa [imp_iff_or_not, or_comm] using hserved), if_pos hclosed]

end

end

/-- Settles O48: each transaction meets its checks in order, and past them it has its effect or is refused. -/
theorem usbTransactions : Obligations.UsbTransactions := by
  refine ⟨?length, ?attachment, ?readWord, ?writeWord, ?readBytes, ?writeBytes, ?rescue, ?message⟩
  case length =>
    intro s tag o n a p d hon
    refine ⟨fun h => ?_, fun h => ?_, fun h => ?_, fun h => ?_, fun h => ?_⟩
    · rw [exec_usbRegisterRead hon, usbRead_length h, State.sameInputs_usbAnswer]
    · rw [exec_usbDeviceRead hon, usbDevRead_length h, State.sameInputs_usbAnswer]
    · rw [exec_usbRegisterWrite hon, usbWrite_length h, State.sameInputs_usbAnswer]
    · rw [exec_usbDeviceWrite hon, usbDevWrite_length h, State.sameInputs_usbAnswer]
    · rw [exec_usbMailboxMessage hon, usbMessage_length h, State.sameInputs_usbAnswer]
  case attachment =>
    intro s tag o a d hon hattach h
    refine ⟨?_, fun hr ha => ?_⟩
    · rw [exec_usbRegisterWrite hon, usbWrite_closed h (.inr hattach), State.sameInputs_usbAnswer]
    · rw [exec_usbDeviceWrite hon, usbDevWrite_closed h hr ha hattach, State.sameInputs_usbAnswer]
  case readWord => exact fun s tag o hon h => exec_usbRegisterRead_word hon h
  case writeWord =>
    intro s tag o d hon hr hattach h
    rw [exec_usbRegisterWrite hon, usbWrite_word hr hattach h]
  case readBytes => exact fun s tag a n hon hr h ha => exec_usbDeviceRead_bytes hon h hr ha
  case writeBytes =>
    intro s tag a d hon hr hattach h ha
    rw [exec_usbDeviceWrite hon, usbDevWrite_bytes h hr ha hattach]
  case rescue =>
    intro s tag o n a d hon hr hn h
    refine ⟨fun ho => ?_, ?_, ?_, fun ha => ?_, fun ha => ?_, fun p hlen htype => ?_⟩
    · rw [exec_usbRegisterRead hon, usbRead_rescue hn hr ho, State.sameInputs_usbAnswer]
    · rw [exec_usbDeviceRead hon, usbDevRead_rescue hn hr, State.sameInputs_usbAnswer]
    · rw [exec_usbRegisterWrite hon, usbWrite_closed h (.inl hr), State.sameInputs_usbAnswer]
    · rw [exec_usbDeviceWrite hon, usbDevWrite_rescue h hr, if_neg (not_lt.mpr ha)]
    · rw [exec_usbDeviceWrite hon, usbDevWrite_rescue h hr, if_pos ha, State.sameInputs_usbAnswer]
    · rw [exec_usbMailboxMessage hon, usbMessage_rescue h hlen hr htype, State.sameInputs_usbAnswer]
  case message =>
    intro s tag p d hon h hlen hserved _
    exact ⟨fun hopen => exec_usbMailboxMessage_open h hlen hserved hon hopen, fun hclosed => by
      rw [exec_usbMailboxMessage hon, usbMessage_closed h hlen hserved hclosed, State.sameInputs_usbAnswer]⟩

end Sys2Proof.Machine

/-! SUPPORT. Proofs about Ethernet: the messages of packet queues and steering rules, doorbells, and frames that come and go. -/

namespace Sys2Proof.Machine

/-! ## Packet-queue messages (R347) -/

section
variable {s : State} {p : Nat} {r : Req} (h : s.accepts p 0x0034 r = true)
include h

/-- Set up and delete of an accepted request are served as any message of their type. -/
theorem exec_packetQueueSetup_accepted (hop : byteAt r.body 1 ≠ 1) : exec (.packetQueueSetup p) s = message p 0x0034 actPacketQueue s := by
  obtain ⟨-, hreq, -, -⟩ := accepts_elim s p _ r h
  simp only [exec, execPacketQueueSetup, message, hreq]
  rw [if_pos (by simpa using hop)]

theorem exec_packetQueueDelete_accepted (hop : byteAt r.body 1 = 1) : exec (.packetQueueDelete p) s = message p 0x0034 actPacketQueue s := by
  obtain ⟨-, hreq, -, -⟩ := accepts_elim s p _ r h
  simp only [exec, execPacketQueueDelete, message, hreq]
  rw [if_pos hop]

end

/-- The slots and the index word of a queue lie in its owner's windows (check 0x46). -/
def State.QueuePlaced (s : State) (b : List Byte) : Prop :=
  fld b 8 8 % 4096 = 0 ∧ 16 ≤ fld b 8 8 ∧ s.inFn (byteAt b 4) (fld b 8 8 - 16) (16 + 32 * 2 ^ byteAt b 5) = true

theorem pqPlaced_iff (s : State) (b : List Byte) : s.pqPlaced b = true ↔ s.QueuePlaced b := by
  simp only [State.pqPlaced, State.QueuePlaced, Bool.and_eq_true, decide_eq_true_eq, and_assoc]

theorem pqRange_iff (b : List Byte) : pqRange b = true ↔
    byteAt b 3 ≤ 1 ∧ byteAt b 4 ≤ 16 ∧ 1 ≤ byteAt b 5 ∧ byteAt b 5 ≤ 16 ∧ fld b 6 2 = 0 := by
  simp only [pqRange, Bool.and_eq_true, decide_eq_true_eq, and_assoc]

theorem pqEmpty_some {s : State} {q : Nat} {x : PktQ} (hx : s.pq? q = some x) : s.pqEmpty q = decide (x.p = x.c) := by
  simp only [State.pqEmpty, hx]

section
variable {s : State} {b : List Byte}

theorem pqStatus_portless (hport : portLanes s.fab.mode (byteAt b 2) = none) : s.pqStatus b = 0x45 := by
  simp [State.pqStatus, hport]

variable (hport : portLanes s.fab.mode (byteAt b 2) ≠ none)
include hport

theorem pqStatus_misplaced (hplaced : ¬ s.QueuePlaced b) : s.pqStatus b = 0x46 := by
  simp [State.pqStatus, hport, pqPlaced_iff, hplaced]

theorem pqStatus_out_of_range (hplaced : s.QueuePlaced b) (hrange : pqRange b = false) : s.pqStatus b = 0x48 := by
  simp [State.pqStatus, hport, pqPlaced_iff, hplaced, hrange]

theorem pqStatus_good (hplaced : s.QueuePlaced b) (hrange : pqRange b = true) (hop : byteAt b 1 ≤ 1) : s.pqStatus b = 0 := by
  have hplaced' := (pqPlaced_iff s b).mpr hplaced
  simp [State.pqStatus, hport, hplaced', hrange, hop]

end

section
variable {s : State} {r : Req}

/-- The queue that a set-up describes. -/
def askedQueue (b : List Byte) : PktQ :=
  { port := byteAt b 2, rx := decide (byteAt b 3 = 1), owner := byteAt b 4, log := byteAt b 5, base := fld b 8 8, p := 0, c := 0,
    stopped := false }

theorem actPacketQueue_setup (hop : byteAt r.body 1 = 0) : actPacketQueue s r = actPqSetup s r := if_pos hop

theorem actPqSetup_busy (hempty : s.pqEmpty (byteAt r.body 0) = false) : actPqSetup s r = (s, some (0x44, [])) := by
  simp [actPqSetup, hempty]

theorem actPqSetup_refused {st : Nat} (hempty : s.pqEmpty (byteAt r.body 0) = true) (hst : s.pqStatus r.body = st) (hne : st ≠ 0) :
    actPqSetup s r = (s, some (st, [])) := by
  simp [actPqSetup, hempty, hst, hne]

theorem actPqSetup_stands (hempty : s.pqEmpty (byteAt r.body 0) = true) (hst : s.pqStatus r.body = 0) : actPqSetup s r =
    (s.setFab (fun f => { f with queues := aSet f.queues (byteAt r.body 0) (askedQueue r.body) }), some (0, [])) := by
  simp [actPqSetup, hempty, hst, askedQueue]

theorem actPacketQueue_delete (hop : byteAt r.body 1 = 1) : actPacketQueue s r = actPqDelete s r := by
  simp [actPacketQueue, hop]

theorem actPqDelete_none (hq : s.pq? (byteAt r.body 0) = none) : actPqDelete s r = (s, some (0x44, [])) := by
  simp [actPqDelete, hq]

/-- The state without a queue, the rules of a receive queue disabled. -/
def State.dropQueue (s : State) (n : Nat) (x : PktQ) : State :=
  s.setFab (fun f => { f with queues := aErase f.queues n, rules := if x.rx then dropRules n f.rules else f.rules })

section
variable {x : PktQ} (hq : s.pq? (byteAt r.body 0) = some x)
include hq

theorem actPqDelete_busy (hheld : x.p ≠ x.c) : actPqDelete s r = (s, some (0x44, [])) := by
  simp [actPqDelete, hq, pqEmpty_some hq, hheld]

theorem actPqDelete_refused {st : Nat} (hempty : x.p = x.c) (hst : s.pqStatus r.body = st) (hne : st ≠ 0) :
    actPqDelete s r = (s, some (st, [])) := by
  simp [actPqDelete, hq, pqEmpty_some hq, hempty, hst, hne]

theorem actPqDelete_stands (hempty : x.p = x.c) (hst : s.pqStatus r.body = 0) :
    actPqDelete s r = (s.dropQueue (byteAt r.body 0) x, some (0, [])) := by
  simp [actPqDelete, hq, pqEmpty_some hq, hempty, hst, State.dropQueue]

end

end

theorem pq_dropQueue (s : State) (n m : Nat) (x : PktQ) : (s.dropQueue n x).pq? m = if m = n then none else s.pq? m :=
  aGet_aErase _ _ _

/-- A rule that names a queue that has gone is disabled. -/
theorem dropRules_disabled {l : AMap Steer} {n k : Nat} {x : Steer} (h : aGet (dropRules n l) k = some x) (hn : x.queue = n) :
    bit x.flags 7 = false := by
  have hmap := aGet_map_if l (fun y : Steer => y.queue = n) (fun y => { y with flags := y.flags % 128 }) k
  obtain ⟨y, -, hy⟩ := Option.map_eq_some_iff.mp (hmap.symm.trans h)
  split at hy
  · subst hy
    simp only [bit, decide_eq_false_iff_not]
    omega
  · next hother =>
    subst hy
    exact absurd hn hother

/-! ## Steering rules (R347) -/

section
variable {s : State} {r : Req}

/-- The queue that a rule names is a receive queue of the rule's port. -/
def State.RuleOwn (s : State) (b : List Byte) : Prop := ∃ x, s.pq? (fld b 6 2) = some x ∧ x.rx = true ∧ x.port = byteAt b 0

/-- The other fields of a rule are in range. -/
def RuleRange (b : List Byte) : Prop :=
  byteAt b 1 = 0 ∧ fld b 2 2 ≤ 255 ∧ bits (byteAt b 4) 6 4 = 0 ∧ byteAt b 5 = 0 ∧ fld b 14 2 < 4096 ∧ fld b 20 4 = 0

def ruleBad (b : List Byte) : Bool :=
  byteAt b 1 != 0 || 255 < fld b 2 2 || bits (byteAt b 4) 6 4 != 0 || byteAt b 5 != 0 || 4096 ≤ fld b 14 2 || fld b 20 4 != 0

theorem ruleBad_iff (b : List Byte) : ruleBad b = true ↔ ¬ RuleRange b := by
  rw [← Bool.not_eq_false, not_iff_not]
  simp only [ruleBad, RuleRange, Bool.or_eq_false_iff, bne_eq_false_iff_eq, decide_eq_false_iff_not, not_lt, not_le, and_assoc]

/-- The rule that a message describes. -/
def askedRule (b : List Byte) : Steer :=
  { flags := byteAt b 4, queue := fld b 6 2, mac := beNat ((b.drop 8).take 6), vlan := fld b 14 2, ether := fld b 16 2, udp := fld b 18 2 }

theorem actSteering_portless (hport : portLanes s.fab.mode (byteAt r.body 0) = none) : actSteering s r = (s, some (0x45, [])) := by
  simp [actSteering, hport]

variable (hport : portLanes s.fab.mode (byteAt r.body 0) ≠ none)
include hport

theorem actSteering_foreign (hown : ¬ s.RuleOwn r.body) : actSteering s r = (s, some (0x47, [])) := by
  cases hq : s.pq? (fld r.body 6 2) with
  | none => simp [actSteering, hport, hq]
  | some x =>
    have hother : x.rx = true → x.port ≠ byteAt r.body 0 := fun hrx hx => hown ⟨x, hq, hrx, hx⟩
    simp [actSteering, hport, hq]
    tauto

theorem actSteering_own (hown : s.RuleOwn r.body) : actSteering s r = if ruleBad r.body then (s, some (0x48, [])) else
    (s.setFab (fun f => { f with rules := aSet f.rules (byteAt r.body 0 * 256 + fld r.body 2 2) (askedRule r.body) }), some (0, [])) := by
  obtain ⟨x, hq, hrx, hx⟩ := hown
  unfold actSteering
  dsimp only
  rw [if_neg (by simpa using hport), hq, if_neg (by simp [hrx, hx])]
  rfl

end

/-! ## Doorbells (R248, R346) -/

/-- How many entries the queue holds once the doorbell's index is taken. -/
def PktQ.heldWith (x : PktQ) (v : Nat) : Nat := if x.rx = true then (x.p + M32 - v) % M32 else (v + M32 - x.c) % M32

/-- The queue with the index that the host moves. -/
def PktQ.rung (x : PktQ) (v : Nat) : PktQ := if x.rx = true then { x with c := v } else { x with p := v }

theorem exec_pqDoorbell {s : State} {f q v : Nat} (hon : s.on = true) (hf : f < 17) (hq : q < 256) (hv : v < M32) :
    exec (.pqDoorbell f q v) s = .next (s.sameInputs (s.pqDoorbell f q v)) := by
  have hexec : exec (.pqDoorbell f q v) s = .next (s.sameInputs (s.pqDoorbell f q (v % M32))) := on_next s _ hon _ (by simp [hf, hq])
  rwa [Nat.mod_eq_of_lt hv] at hexec

section
variable {s : State} {f q v : Nat} {x : PktQ} (hx : s.pq? q = some x)
include hx

theorem pqDoorbell_foreign (howner : x.owner ≠ f) : s.pqDoorbell f q v = s.logE 0x0020 4 f 0xff 0 q v x.p x.c := by
  simp [State.pqDoorbell, hx, howner]

theorem pqDoorbell_within (howner : x.owner = f) (h : x.heldWith v ≤ 2 ^ x.log) : s.pqDoorbell f q v = s.setPq q (PktQ.rung · v) := by
  have hfits : ¬ (x.owner != f || decide (x.slots < x.heldWith v)) = true := by
    rw [howner, bne_self_eq_false, Bool.false_or, decide_eq_true_eq]
    exact not_lt.mpr h
  simp only [State.pqDoorbell, hx]
  exact if_neg hfits

end

theorem pq_setPq (s : State) (q m : Nat) (f : PktQ → PktQ) : (s.setPq q f).pq? m = if m = q then (s.pq? m).map f else s.pq? m :=
  aGet_aMod _ _ _ _

theorem packetQueues : Claims.PacketQueues := by
  refine ⟨?setup, pqRange_iff, ?delete, ?deleteNone, ?rule, ?doorbell⟩
  case setup =>
    intro s p r h hop b refused empty port placed range q
    have hexec : ∀ {t : State} {st : Nat}, actPqSetup (s.accepted r) r = (t, some (st, [])) →
        exec (.packetQueueSetup p) s = .next (s.sameInputs (t.answer r st [])) := fun hact =>
      (exec_packetQueueSetup_accepted h (by omega)).trans (accepted_message_answer s p _ _ r _ _ _ h ((actPacketQueue_setup hop).trans hact))
    have hstatus : ∀ st, s.pqEmpty (byteAt b 0) = true → s.pqStatus b = st → st ≠ 0 → refused st := fun st hempty hst hne =>
      hexec (actPqSetup_refused (s := s.accepted r) hempty hst hne)
    refine ⟨fun hempty => hexec (actPqSetup_busy (s := s.accepted r) hempty),
      fun hempty hport => hstatus _ hempty (pqStatus_portless (not_not.mp hport)) (by decide),
      fun hempty hport hplaced => hstatus _ hempty (pqStatus_misplaced hport hplaced) (by decide),
      fun hempty hport hplaced hrange => hstatus _ hempty (pqStatus_out_of_range hport hplaced (Bool.not_eq_true _ ▸ hrange)) (by decide),
      fun hempty hport hplaced hrange => hexec (actPqSetup_stands (s := s.accepted r) hempty ?_)⟩
    exact pqStatus_good (s := s.accepted r) hport hplaced hrange (by omega)
  case delete =>
    intro s p r q h hop hq b refused port placed
    have hexec : ∀ {t : State} {st : Nat}, actPqDelete (s.accepted r) r = (t, some (st, [])) →
        exec (.packetQueueDelete p) s = .next (s.sameInputs (t.answer r st [])) := fun hact =>
      (exec_packetQueueDelete_accepted h hop).trans (accepted_message_answer s p _ _ r _ _ _ h ((actPacketQueue_delete hop).trans hact))
    have hstatus : ∀ st, q.p = q.c → s.pqStatus b = st → st ≠ 0 → refused st := fun st hempty hst hne =>
      hexec (actPqDelete_refused (s := s.accepted r) hq hempty hst hne)
    refine ⟨fun hempty hport => hstatus _ hempty (pqStatus_portless (not_not.mp hport)) (by decide),
      fun hempty hport hplaced => hstatus _ hempty (pqStatus_misplaced hport hplaced) (by decide),
      fun hempty hport hplaced hrange => hstatus _ hempty (pqStatus_out_of_range hport hplaced hrange) (by decide),
      fun hempty hport hplaced hrange => ?_, fun hheld => hexec (actPqDelete_busy (s := s.accepted r) hq hheld)⟩
    have hgood : (s.accepted r).pqStatus r.body = 0 := pqStatus_good (s := s.accepted r) hport hplaced hrange (by omega)
    refine ⟨_, hexec (actPqDelete_stands (s := s.accepted r) hq hempty hgood), ?_, fun m hm => ?_, fun hrx k x hk hname => ?_⟩
    · rw [pq_dropQueue, if_pos rfl]
    · rw [pq_dropQueue, if_neg hm]
      rfl
    · simp only [State.dropQueue, State.setFab, hrx, if_true] at hk
      exact dropRules_disabled hk hname
  case deleteNone =>
    intro s p r h hop hq
    exact (exec_packetQueueDelete_accepted h hop).trans (accepted_message_answer s p _ _ r _ _ _ h
      ((actPacketQueue_delete hop).trans (actPqDelete_none (s := s.accepted r) hq)))
  case rule =>
    intro s p r h b port own range refused x
    have hexec : ∀ {t : State} {st : Nat}, actSteering (s.accepted r) r = (t, some (st, [])) →
        exec (.steeringRule p) s = .next (s.sameInputs (t.answer r st [])) := fun hact => accepted_message_answer s p _ _ r _ _ _ h hact
    refine ⟨fun hport => hexec (actSteering_portless (s := s.accepted r) (not_not.mp hport)),
      fun hport hown => hexec (actSteering_foreign (s := s.accepted r) hport hown),
      fun hport hown hrange => hexec ((actSteering_own (s := s.accepted r) hport hown).trans (if_pos ((ruleBad_iff b).mpr hrange))),
      fun hport hown hrange => hexec ((actSteering_own (s := s.accepted r) hport hown).trans (if_neg ?_))⟩
    rw [ruleBad_iff]
    exact not_not.mpr hrange
  case doorbell =>
    intro s f q v x hon hf hq hv hx
    refine ⟨fun howner hfits => ?_, fun howner => ?_⟩
    · refine ⟨s.setPq q (PktQ.rung · v), ?_, rfl, fun m hm => ?_, ?_⟩
      · rw [exec_pqDoorbell hon hf hq hv, pqDoorbell_within hx howner hfits]
        rfl
      · rw [pq_setPq, if_neg hm]
      · rw [pq_setPq, if_pos rfl, hx]
        rfl
    · rw [exec_pqDoorbell hon hf hq hv, pqDoorbell_foreign hx howner]

/-! ## Look-ups leave what an access meets -/

section
variable (s : State) (a n : Nat)

theorem touchAll_fnWrites (f b m : Nat) : (s.touchAll a n).fnWrites f b m = s.fnWrites f b m := by
  obtain ⟨c, k, d, h⟩ := touchAll_frame s a n
  rw [h]
  rfl

theorem touchAll_devRead (b m : Nat) : (s.touchAll a n).devRead b m = s.devRead b m := by
  obtain ⟨c, k, d, h⟩ := touchAll_frame s a n
  rw [h]
  rfl

theorem touchAll_now : (s.touchAll a n).now = s.now := by
  obtain ⟨c, k, d, h⟩ := touchAll_frame s a n
  rw [h]
  rfl

theorem now_setOut (f : Out → Out) : (s.setOut f).now = s.now := rfl

theorem touchAll_portUp (p : Nat) : (s.touchAll a n).portUp p = s.portUp p := by
  obtain ⟨c, k, d, h⟩ := touchAll_frame s a n
  rw [h]
  rfl

end

/-! ## Received frames (R345, R346) -/

theorem exec_frameReceive {s : State} {port : Nat} (ok : Bool) (b : List Byte) (hon : s.on = true) (hp : port < 4) :
    exec (.frameReceive port ok b) s = .next (s.sameInputs (s.receive port ok b)) := on_next s _ hon _ (decide_eq_true hp)

section
variable {s : State} {port : Nat} {b : List Byte}

theorem receive_down (ok : Bool) (hup : s.portUp port = false) : s.receive port ok b = s := by
  simp [State.receive, hup]

variable (hup : s.portUp port = true)
include hup

theorem receive_bad {ok : Bool} (h : ok = false ∨ b.length < 60 ∨ 9212 < b.length) : s.receive port ok b = s.dropFrame port := by
  have hbad : (!ok || b.length < 60 || 9212 < b.length) = true := by simpa [or_assoc] using h
  unfold State.receive
  rw [if_neg (by simp [hup]), if_pos hbad]

variable (hlo : 60 ≤ b.length) (hhi : b.length ≤ 9212)
include hlo hhi

theorem receive_control (hether : (ethHead b).inner = 0x8808) : s.receive port true b = s := by
  simp [State.receive, hup, Nat.not_lt.mpr hlo, Nat.not_lt.mpr hhi, hether]

variable (hether : (ethHead b).inner ≠ 0x8808) (hpeer : s.udpPeer b = none)
include hether hpeer

theorem receive_unsteered (h : s.steer port b = none) : s.receive port true b = s.dropFrame port := by
  simp [State.receive, hup, Nat.not_lt.mpr hlo, Nat.not_lt.mpr hhi, hether, hpeer, h]

theorem receive_steered {q : Nat} (h : s.steer port b = some q) : s.receive port true b = s.receiveInto q port b := by
  simp [State.receive, hup, Nat.not_lt.mpr hlo, Nat.not_lt.mpr hhi, hether, hpeer, h]

end

section
variable {s : State} {q : Nat} {x : PktQ} (hx : s.pq? q = some x)
include hx

theorem receiveInto_full (port : Nat) (b : List Byte) (h : 2 ^ x.log ≤ (x.p + M32 - x.c) % M32) :
    s.receiveInto q port b = s.dropFrame port := by
  have hfull : (decide (x.slots ≤ x.held) || x.stopped) = true := by
    rw [Bool.or_eq_true, decide_eq_true_eq]
    exact .inl h
  simp only [State.receiveInto, hx, if_pos hfull]

/-- A buffer that takes the frame, or the part of it that its descriptor has room for: the descriptor is written back. -/
theorem receiveInto_buffer (port : Nat) (b : List Byte) (hroom : (x.p + M32 - x.c) % M32 < 2 ^ x.log) (hstop : x.stopped = false)
    (hreads : s.fnReads x.owner (x.slotAddr x.p) 32 = true) (hwrites : s.fnWrites x.owner (x.slotAddr x.p) 32 = true)
    (hbuf : s.fnWrites x.owner (fld (s.devRead (x.slotAddr x.p) 32) 0 8)
      (b.take (fld (s.devRead (x.slotAddr x.p) 32) 8 4)).length = true) :
    let d := s.devRead (x.slotAddr x.p) 32
    s.receiveInto q port b =
      ((((s.touchAll (x.slotAddr x.p) 32).hubWrite (fld d 0 8) (b.take (fld d 8 4))).hubWrite (x.slotAddr x.p + 8)
        (toLE 4 b.length ++ toLE 1 (2 * b2n (sumsGood b) + 4 * b2n (ethHead b).vlan.isSome) ++
          toLE 1 (b2n (decide (fld d 8 4 < b.length))) ++ (d.drop 14).take 2 ++ toLE 8 s.now)).setPq q
        (fun x => { x with p := (x.p + 1) % M32 })).pqAdvanced q (fld d 14 2) := by
  have hroom' : ¬ (decide (x.slots ≤ x.held) || x.stopped) = true := by
    rw [hstop, Bool.or_false, decide_eq_true_eq]
    exact not_le.mpr hroom
  simp only [State.receiveInto, hx, if_neg hroom', hreads, hwrites, touchAll_fnWrites, hbuf, touchAll_now, Bool.not_true, Bool.or_self,
    Bool.false_eq_true, if_false]

end

/-- The first enabled rule that matches steers a frame (R347). -/
theorem steer_first {s : State} {port i : Nat} {b : List Byte} {x : Steer} (hi : i < 256) (hx : aGet s.fab.rules (port * 256 + i) = some x)
    (hhits : x.hits b = true)
    (hfirst : ∀ j y, j < i → aGet s.fab.rules (port * 256 + j) = some y → y.hits b = false) : s.steer port b = some x.queue := by
  refine List.findSome?_eq_some_iff.mpr ⟨(List.range 256).take i, i, (List.range 256).drop (i + 1), ?_, ?_, fun j hj => ?_⟩
  · have hdrop := List.drop_eq_getElem_cons (l := List.range 256) (i := i) (by simpa using hi)
    rw [List.getElem_range] at hdrop
    rw [← hdrop, List.take_append_drop]
  · simp [hx, hhits]
  · rw [List.take_range, List.mem_range] at hj
    cases hy : aGet s.fab.rules (port * 256 + j) with
    | none => rfl
    | some y => simp [hfirst j y (by omega) hy]

/-! ## Transmitted frames (R346) -/

theorem exec_frameTransmit {s : State} {q : Nat} (hon : s.on = true) (hq : q < 256) :
    exec (.frameTransmit q) s = .next (s.sameInputs (s.transmit q)) := on_next s _ hon _ (decide_eq_true hq)

theorem transmit_none {s : State} {q : Nat} (hx : s.pq? q = none) : s.transmit q = s := by
  simp only [State.transmit, hx]

/-- A descriptor completes: its status and stamp are written back, and the queue's C advances. -/
def State.sent (t : State) (q a st : Nat) (d stamp : List Byte) : State :=
  ((t.hubWrite (a + 13) (toLE 1 st ++ (d.drop 14).take 2 ++ stamp)).setPq q (fun x => { x with c := (x.c + 1) % M32 })).pqAdvanced q
    (fld d 14 2)

/-- Something stands in a transmit queue that has not stopped, and its owner's next descriptor can be read and written. -/
structure State.CanTransmit (s : State) (q : Nat) (x : PktQ) : Prop where
  queue : s.pq? q = some x
  transmits : x.rx = false
  runs : x.stopped = false
  held : (x.p + M32 - x.c) % M32 ≠ 0
  reads : s.fnReads x.owner (x.slotAddr x.c) 32 = true
  writes : s.fnWrites x.owner (x.slotAddr x.c) 32 = true

section
variable {s : State} {q : Nat} {x : PktQ} (h : s.CanTransmit q x)
include h

/-- A frame that the port cannot send now, or that is too short or too long, completes with status 2. -/
theorem transmit_refused (hbad : s.portUp x.port = false ∨ fld (s.devRead (x.slotAddr x.c) 32) 8 4 < 60 ∨
      9212 < fld (s.devRead (x.slotAddr x.c) 32) 8 4) :
    let d := s.devRead (x.slotAddr x.c) 32
    s.transmit q = (s.touchAll (x.slotAddr x.c) 32).sent q (x.slotAddr x.c) 2 d ((d.drop 16).take 8) := by
  obtain ⟨hx, hrx, hstop, hheld, hreads, hwrites⟩ := h
  have hbad' : (!s.portUp x.port || decide (fld (s.devRead (x.slotAddr x.c) 32) 8 4 < 60) ||
      decide (9212 < fld (s.devRead (x.slotAddr x.c) 32) 8 4)) = true := by simpa [or_assoc] using hbad
  have hheld' : x.held ≠ 0 := hheld
  simp only [State.transmit, hx, hrx, hstop, hheld', hreads, hwrites, touchAll_portUp, if_pos hbad', Bool.not_true, Bool.or_self,
    Bool.false_eq_true, if_false, decide_false, State.sent]
  rfl

/-- A frame whose descriptor asks for a stamp and for no checksum leaves the port as it stands in its buffer. -/
theorem transmit_sends (hup : s.portUp x.port = true) (hlo : 60 ≤ fld (s.devRead (x.slotAddr x.c) 32) 8 4)
    (hhi : fld (s.devRead (x.slotAddr x.c) 32) 8 4 ≤ 9212)
    (hbuf : s.fnReads x.owner (fld (s.devRead (x.slotAddr x.c) 32) 0 8) (fld (s.devRead (x.slotAddr x.c) 32) 8 4) = true)
    (hstamp : bit (byteAt (s.devRead (x.slotAddr x.c) 32) 12) 0 = true)
    (hsums : bit (byteAt (s.devRead (x.slotAddr x.c) 32) 12) 1 = false) :
    let d := s.devRead (x.slotAddr x.c) 32
    s.transmit q = (((s.touchAll (x.slotAddr x.c) 32).touchAll (fld d 0 8) (fld d 8 4)).setOut (fun o =>
      { o with eth := o.eth ++ [(x.port, s.devRead (fld d 0 8) (fld d 8 4))] })).sent q (x.slotAddr x.c) 0 d (toLE 8 s.now) := by
  obtain ⟨hx, hrx, hstop, hheld, hreads, hwrites⟩ := h
  have hgood : ¬ (!s.portUp x.port || decide (fld (s.devRead (x.slotAddr x.c) 32) 8 4 < 60) ||
      decide (9212 < fld (s.devRead (x.slotAddr x.c) 32) 8 4)) = true := by simp [hup, hlo, hhi]
  have hheld' : x.held ≠ 0 := hheld
  simp only [State.transmit, hx, hrx, hstop, hheld', hreads, hwrites, touchAll_portUp, if_neg hgood, touchAll_fnReads, hbuf,
    touchAll_devRead, hsums, hstamp, Bool.not_true, Bool.or_self, Bool.false_eq_true, if_false, decide_false, decide_true,
    Bool.and_self, if_true, now_setOut, touchAll_now, State.sent]

end

theorem ethernetFrames : Claims.EthernetFrames := by
  refine ⟨?receive, ?down, ?steer, ?transmit, ?noQueue⟩
  case receive =>
    intro s port ok b hon hp hup lost
    have hlost : s.receive port ok b = s.dropFrame port → exec (.frameReceive port ok b) s = .next lost := fun h => by
      rw [exec_frameReceive ok b hon hp, h]
      rfl
    refine ⟨fun hbad => hlost (receive_bad hup hbad), fun hok hlo hhi hether => ?_, fun hok hlo hhi hether hpeer => ⟨fun hsteer => ?_,
      fun q x hsteer hx => ⟨fun hfull => ?_, fun hroom hstop hreads hwrites => ?_⟩⟩⟩
    · subst hok
      rw [exec_frameReceive true b hon hp, receive_control hup hlo hhi hether, State.sameInputs_self]
    · subst hok
      exact hlost (receive_unsteered hup hlo hhi hether hpeer hsteer)
    · subst hok
      exact hlost ((receive_steered hup hlo hhi hether hpeer hsteer).trans (receiveInto_full hx port b hfull))
    · intro d part hbuf back
      subst hok
      rw [exec_frameReceive true b hon hp, receive_steered hup hlo hhi hether hpeer hsteer,
        receiveInto_buffer hx port b hroom hstop hreads hwrites hbuf]
  case down =>
    intro s port ok b hp hup
    have hexec : exec (.frameReceive port ok b) s = onUnit (port < 4) s (s.receive port ok b) := rfl
    rw [hexec, receive_down ok hup, self_next s _ (decide_eq_true hp)]
  case steer =>
    intro s port i q b x hi hx hhits hq hfirst
    rw [steer_first hi hx hhits hfirst, hq]
  case transmit =>
    intro s q x hon hq hx hrx hstop hheld hreads hwrites a d s₁ done
    have h : s.CanTransmit q x := ⟨hx, hrx, hstop, hheld, hreads, hwrites⟩
    refine ⟨fun hbad => ?_, fun hup hlo hhi hbuf hstamp hsums => ?_⟩
    · rw [exec_frameTransmit hon hq, transmit_refused h hbad]
      rfl
    · rw [exec_frameTransmit hon hq, transmit_sends h hup hlo hhi hbuf hstamp hsums]
      rfl
  case noQueue =>
    intro s q hq hx
    have hexec : exec (.frameTransmit q) s = onUnit (q < 256) s (s.transmit q) := rfl
    rw [hexec, transmit_none hx, self_next s _ (decide_eq_true hq)]

/-- Settles O49: each message meets its checks in order, and a frame goes through its port, its rules and its queue. -/
theorem ethernetTraffic : Obligations.EthernetTraffic := ⟨packetQueues, ethernetFrames⟩

end Sys2Proof.Machine

/-! SUPPORT. Proofs about the Abapex link: the chip number and peers, received frames, timers, credits and hellos. -/

namespace Sys2Proof.Machine

/-! ## What a write of device memory can change -/

theorem irq_frame (s : State) (f v : Nat) : ∃ fs o, s.irq f v = { s with funcs := fs, out := o } := by
  unfold State.irq
  split
  · exact ⟨s.funcs, _, rfl⟩
  · exact ⟨_, _, rfl⟩

theorem logE_frame (s : State) (code cls fn suite kind unit a b c : Nat) :
    ∃ l fs o, s.logE code cls fn suite kind unit a b c = { s with log := l, funcs := fs, out := o } := by
  obtain ⟨e, h⟩ := logE_raises s code cls fn suite kind unit a b c
  obtain ⟨fs, o, h0⟩ := irq_frame (s.logged e) 0 1
  obtain ⟨fs', o', h1⟩ := irq_frame ((s.logged e).irq 0 1) fn 1
  rw [h]
  split
  · exact ⟨_, fs', o', by rw [h1, h0]; rfl⟩
  · exact ⟨_, fs, o, by rw [h0]; rfl⟩

theorem devPut_frame (s : State) (a : Nat) (b : Byte) : ∃ c h m, s.devPut a b = { s with chans := c, hbm := h, hostMem := m } := by
  unfold State.devPut
  split
  · unfold State.hbmPut
    dsimp only
    split
    · exact ⟨_, s.hbm, s.hostMem, rfl⟩
    · exact ⟨s.chans, _, s.hostMem, rfl⟩
  · split
    · exact ⟨s.chans, s.hbm, _, rfl⟩
    · exact ⟨s.chans, s.hbm, s.hostMem, rfl⟩
  · exact ⟨s.chans, s.hbm, s.hostMem, rfl⟩

theorem devWrite_frame (l : List Byte) (s : State) (a : Nat) :
    ∃ c h m, s.devWrite a l = { s with chans := c, hbm := h, hostMem := m } := by
  induction l generalizing s a with
  | nil => exact ⟨s.chans, s.hbm, s.hostMem, rfl⟩
  | cons b l ih =>
    obtain ⟨c, h, m, hput⟩ := devPut_frame s a b
    obtain ⟨c', h', m', hrest⟩ := ih (s.devPut a b) (a + 1)
    exact ⟨c', h', m', by rw [State.devWrite, hrest, hput]⟩

theorem logHostFail_frame (s : State) (a n : Nat) : ∃ l fs o, s.logHostFail a n = { s with log := l, funcs := fs, out := o } := by
  refine List.foldlRecOn (motive := fun t : State => ∃ l fs o, t = { s with log := l, funcs := fs, out := o }) (pagesOf a n) _
    ⟨s.log, s.funcs, s.out, rfl⟩ ?_
  rintro t ⟨l, fs, o, rfl⟩ v -
  split
  · split
    · exact ⟨l, fs, o, rfl⟩
    · exact logE_frame _ _ _ _ _ _ _ _ _ _
  · exact ⟨l, fs, o, rfl⟩

/-- A write of the firmware or of a hub-die unit changes memory, the look-ups, and what a failed host request leaves. -/
theorem hubWrite_frame (s : State) (a : Nat) (b : List Byte) : ∃ x d c h m l fs o, s.hubWrite a b =
    { s with xlt := x, free := d, chans := c, hbm := h, hostMem := m, log := l, funcs := fs, out := o } := by
  obtain ⟨k, n, d, htouch⟩ := touchAll_frame s a b.length
  obtain ⟨c, h, m, hwrite⟩ := devWrite_frame b (s.touchAll a b.length) a
  obtain ⟨l, fs, o, hlog⟩ := logHostFail_frame ((s.touchAll a b.length).devWrite a b) a b.length
  exact ⟨_, d, c, h, m, l, fs, o, by rw [State.hubWrite, hlog, hwrite, htouch]⟩

theorem hubWrite_fab (s : State) (a : Nat) (b : List Byte) : (s.hubWrite a b).fab = s.fab := by
  obtain ⟨x, d, c, h, m, l, fs, o, hwrite⟩ := hubWrite_frame s a b
  rw [hwrite]

/-! ## Chip number and peers (R354) -/

/-- The chip number may be set: no suite and no peer exists (log entry 43). -/
def State.ChipGood (s : State) (r : Req) : Prop := fld r.body 0 4 < 0xfffff ∧ s.fab.peers = [] ∧ ∀ k, k < 32 → (s.suite k).st = 0

section
variable {s : State} {r : Req}

theorem actChip_good (h : s.ChipGood r) : actChip s r = (s.setFab (fun f => { f with chip := fld r.body 0 4 }), some (0, [])) := by
  obtain ⟨hrange, hpeers, hsuites⟩ := h
  unfold actChip
  dsimp only
  rw [if_neg ?_]
  simpa [hpeers, hrange] using hsuites

theorem actChip_refused (h : ¬ s.ChipGood r) : actChip s r = (s, some (0x80, [])) := by
  unfold actChip
  dsimp only
  rw [if_pos ?_]
  by_contra hgood
  refine h ?_
  simpa [State.ChipGood, and_assoc] using hgood

/-- The peer's number and its chip are free. -/
def State.PeerTaken (s : State) (b : List Byte) : Prop := (s.peer? (byteAt b 0)).isSome = true ∨ (s.peerOf (fld b 4 4)).isSome = true

/-- The replay buffer of a UDP peer lies in the windows of function 0. -/
def State.PeerBuffer (s : State) (b : List Byte) : Prop := byteAt b 1 = 3 → s.inFn 0 (fld b 52 8) (fld b 60 4) = true

theorem actPeerSetup_taken (h : s.PeerTaken r.body) : actPeerSetup s r = (s, some (0x40, [])) :=
  if_pos (by simpa [State.PeerTaken] using h)

variable (htaken : ¬ s.PeerTaken r.body)
include htaken

theorem actPeerSetup_pathless (hpath : s.pathOk (byteAt r.body 1) (byteAt r.body 2) = false) :
    actPeerSetup s r = (s, some (0x41, [])) := by
  unfold actPeerSetup
  dsimp only
  rw [if_neg (by simpa [State.PeerTaken] using htaken), if_pos (by simp [hpath])]

variable (hpath : s.pathOk (byteAt r.body 1) (byteAt r.body 2) = true)
include hpath

theorem actPeerSetup_bufferless (hbuffer : ¬ s.PeerBuffer r.body) : actPeerSetup s r = (s, some (0x42, [])) := by
  unfold actPeerSetup
  dsimp only
  rw [if_neg (by simpa [State.PeerTaken] using htaken), if_neg (by simp [hpath]), if_pos (by simpa [State.PeerBuffer] using hbuffer)]

theorem actPeerSetup_placed (hbuffer : s.PeerBuffer r.body) : actPeerSetup s r = if s.peerRange r.body then
      (s.setFab (fun f => { f with peers := aSet f.peers (byteAt r.body 0) (peerOfBody r.body s.now) }), some (0, []))
    else (s, some (0x43, [])) := by
  unfold actPeerSetup
  dsimp only
  rw [if_neg (by simpa [State.PeerTaken] using htaken), if_neg (by simp [hpath]), if_neg (by simpa [State.PeerBuffer] using hbuffer)]
  cases s.peerRange r.body <;> rfl

end

theorem chipAndPeers : Claims.ChipAndPeers := by
  refine ⟨fun s p r h => ?chip, fun s p r h => ?peer⟩
  case chip =>
    exact ⟨fun hgood => accepted_message_answer s p _ _ r _ _ _ h (actChip_good (s := s.accepted r) hgood),
      fun hbad => accepted_message_answer s p _ _ r _ _ _ h (actChip_refused (s := s.accepted r) hbad)⟩
  case peer =>
    intro b taken path buffer refused
    have hexec : ∀ {t : State} {st : Nat}, actPeerSetup (s.accepted r) r = (t, some (st, [])) →
        exec (.peerSetup p) s = .next (s.sameInputs (t.answer r st [])) := fun hact => accepted_message_answer s p _ _ r _ _ _ h hact
    refine ⟨fun htaken => hexec (actPeerSetup_taken (s := s.accepted r) htaken),
      fun htaken hpath => hexec (actPeerSetup_pathless (s := s.accepted r) htaken hpath),
      fun htaken hpath hbuffer => hexec (actPeerSetup_bufferless (s := s.accepted r) htaken hpath hbuffer),
      fun htaken hpath hbuffer hrange => hexec ((actPeerSetup_placed (s := s.accepted r) htaken hpath hbuffer).trans (if_neg ?_)),
      fun htaken hpath hbuffer hrange => hexec ((actPeerSetup_placed (s := s.accepted r) htaken hpath hbuffer).trans (if_pos hrange)),
      rfl, rfl, rfl⟩
    exact fun hgood => Bool.false_ne_true (hrange.symm.trans hgood)

/-! ## Received frames (R355 to R358) -/

theorem peer_setPeer (s : State) (n m : Nat) (f : Peer → Peer) :
    (s.setPeer n f).peer? m = if m = n then (s.peer? m).map f else s.peer? m := aGet_aMod _ _ _ _

section
variable {s : State} {n : Nat} (b : List Byte) (hon : s.on = true) (hn : n < 256)
include hon hn

theorem exec_dataFrame : exec (.dataFrame n b) s = .next (s.sameInputs (s.linkIn n 1 b)) := on_next s _ hon _ (decide_eq_true hn)

theorem exec_creditFrame : exec (.creditFrame n b) s = .next (s.sameInputs (s.linkIn n 2 b)) := on_next s _ hon _ (decide_eq_true hn)

theorem exec_acknowledge : exec (.acknowledge n b) s = .next (s.sameInputs (s.linkIn n 3 b)) := on_next s _ hon _ (decide_eq_true hn)

theorem exec_negativeAcknowledge : exec (.negativeAcknowledge n b) s = .next (s.sameInputs (s.linkIn n 4 b)) :=
  on_next s _ hon _ (decide_eq_true hn)

theorem exec_hello : exec (.hello n b) s = .next (s.sameInputs (s.linkIn n 5 b)) := on_next s _ hon _ (decide_eq_true hn)

end

section
variable {s : State} {n : Nat} {p : Peer} {b : List Byte}

theorem serialLt_ne {x y : Nat} (h : serialLt x y = true) : y ≠ x := by
  rintro rfl
  simp [serialLt] at h

theorem inSequence_earlier (hne : fld b 12 4 ≠ p.rxSeq) (h : serialLt p.rxSeq (fld b 12 4) = false) : s.inSequence n p b = s := by
  simp [State.inSequence, hne, h]

theorem inSequence_gap (hpath : p.path = 3) (h : serialLt p.rxSeq (fld b 12 4) = true) : s.inSequence n p b = s.sendNak n p := by
  simp [State.inSequence, serialLt_ne h, h, hpath]

theorem inSequence_held (hpath : p.path ≠ 3) (h : serialLt p.rxSeq (fld b 12 4) = true)
    (hnear : (fld b 12 4 + M32 - p.rxSeq) % M32 < 64) (hheld : p.held = []) :
    s.inSequence n p b = s.setPeer n (fun q => { q with held := q.held ++ [{ sn := fld b 12 4, bytes := b }] }) := by
  simp [State.inSequence, serialLt_ne h, h, hpath, hnear, hheld]

theorem sendNak_first (h : p.nakAt = none) :
    s.sendNak n p = (s.setPeer n (fun q => { q with nakAt := some s.now })).sendPlain n 4 [] := by
  simp only [State.sendNak, h]

/-- The state after a hello, before its versions are compared. -/
def State.greeted (s : State) (n : Nat) (b : List Byte) : State := s.setPeer n (fun q => q.newEpoch (fld (b.drop 32) 0 8))

theorem takeHello_none (hst : p.st = 1) (h : (helloPairs (b.drop 32)).find? (fun v => v.1 = 1) = none) :
    ∃ c, s.takeHello n p b = ((s.greeted n b).setPeer n (fun q => { q with st := 4 })).logE 0x0041 0 0xff 0xff 10 n p.chip c 0 := by
  simp [State.takeHello, hst, h]
  exact ⟨_, rfl⟩

theorem newEpoch_sent (hsent : p.sent = []) (e : Nat) : (p.newEpoch e).sent = [] := by
  unfold Peer.newEpoch
  split
  · split
    · exact hsent
    · rfl
  · exact hsent

variable (hp : s.peer? n = some p)
include hp

theorem linkIn_bad (type : Nat) (h : s.frameGood p b = false) : s.linkIn n type b = if p.st = 2 then s.sendNak n p else s := by
  simp [State.linkIn, hp, h]

/-- Nothing is acknowledged by a frame that finds nothing kept. -/
theorem applyAck_eq (sn : Nat) : s.applyAck n sn =
    let rest := p.sent.filter (fun f => !serialLt f.sn sn)
    if rest.length = p.sent.length then s
    else s.setPeer n (fun q => { q with sent := rest, acked := sn, ackedAt := s.now, sentAt := s.now }) := by
  simp only [State.applyAck, hp]

/-- The peer after what a frame acknowledges. -/
theorem peer_applyAck (sn : Nat) : ∃ q, (s.applyAck n sn).peer? n = some q ∧ q.st = p.st := by
  rw [applyAck_eq hp]
  dsimp only
  split
  · exact ⟨p, hp, rfl⟩
  · rw [peer_setPeer, if_pos rfl, hp]
    exact ⟨_, rfl, rfl⟩

theorem revive_up (h : p.st = 2) : s.revive n = s := by
  simp [State.revive, hp, h]

section
variable (hgood : s.frameGood p b = true)
include hgood

/-- A frame of a peer that waits for its hello, or that has none in common, is no event (R358). -/
theorem linkIn_not_up {type : Nat} (htype : type ≠ 5) (h2 : p.st ≠ 2) (h3 : p.st ≠ 3) : s.linkIn n type b = s := by
  simp [State.linkIn, hp, hgood, htype, h2, h3]

theorem linkIn_hello (htype : byteAt b 0 = 5) : s.linkIn n 5 b = s.takeHello n p b := by
  simp [State.linkIn, hp, hgood, htype]

section
variable (hst : p.st = 2)
include hst

theorem linkIn_acknowledge (htype : byteAt b 0 = 3) : s.linkIn n 3 b = s.applyAck n (fld b 16 4) := by
  obtain ⟨q, hq, hqst⟩ := peer_applyAck hp (fld b 16 4)
  simp [State.linkIn, hp, hgood, htype, hst, revive_up hq (hqst.trans hst), hq]

theorem linkIn_negative (htype : byteAt b 0 = 4) : s.linkIn n 4 b = (s.applyAck n (fld b 16 4)).resend n (fld b 16 4) := by
  obtain ⟨q, hq, hqst⟩ := peer_applyAck hp (fld b 16 4)
  simp [State.linkIn, hp, hgood, htype, hst, revive_up hq (hqst.trans hst), hq]

variable (hsent : p.sent = [])
include hsent

theorem linkIn_data (htype : byteAt b 0 = 1) : s.linkIn n 1 b = s.inSequence n p b := by
  have hack : s.applyAck n (fld b 16 4) = s := by simp [applyAck_eq hp, hsent]
  simp [State.linkIn, hp, hgood, htype, hst, hack, revive_up hp hst]

theorem linkIn_credits (htype : byteAt b 0 = 2) : s.linkIn n 2 b = s.inSequence n p b := by
  have hack : s.applyAck n (fld b 16 4) = s := by simp [applyAck_eq hp, hsent]
  simp [State.linkIn, hp, hgood, htype, hst, hack, revive_up hp hst]

end

end

/-- A peer that has taken the expected frame. -/
def Peer.took (now : Nat) (q : Peer) : Peer :=
  { q with rxSeq := (q.rxSeq + 1) % M32, rxSince := q.rxSince + 1, rxAt := if q.rxSince = 0 then now else q.rxAt, nakAt := none }

theorem inSequence_expected (h : fld b 12 4 = p.rxSeq) : s.inSequence n p b =
    (if byteAt b 0 = 1 then (s.setPeer n (Peer.took s.now)).takeData n p b
      else (s.setPeer n (Peer.took s.now)).takeCredits p b).drainHeld n 64 := by
  simp only [State.inSequence, if_pos h, State.takeKept, hp]
  rfl

/-- A hello with a common major brings up a peer that waits for it and keeps no frame. -/
theorem takeHello_common {m : Nat} (hst : p.st = 1) (hsent : p.sent = [])
    (h : (helloPairs (b.drop 32)).find? (fun v => v.1 = 1) = some (1, m)) :
    s.takeHello n p b = (s.greeted n b).setPeer n (fun q => { q with major := 1, minor := 0, st := 2, ackedAt := s.now }) := by
  have hnone : (((s.greeted n b).setPeer n (fun q => { q with major := 1, minor := 0, st := 2, ackedAt := s.now })).peer? n).bind
      (fun q => q.sent.head?) = none := by
    simp [State.greeted, peer_setPeer, hp, newEpoch_sent hsent]
  simp only [State.greeted] at hnone
  simp [State.takeHello, State.greeted, hst, h, hnone]

end

theorem linkFrames : Claims.LinkFrames := by
  refine ⟨?bad, ?sequence, ?acknowledge, ?notUp, ?hello, ?epoch⟩
  case bad =>
    intro s n p b hon hn hp hbad t
    refine ⟨?_, ?_, ?_, ?_, ?_⟩
    · rw [exec_dataFrame b hon hn, linkIn_bad hp 1 hbad]
    · rw [exec_creditFrame b hon hn, linkIn_bad hp 2 hbad]
    · rw [exec_acknowledge b hon hn, linkIn_bad hp 3 hbad]
    · rw [exec_negativeAcknowledge b hon hn, linkIn_bad hp 4 hbad]
    · rw [exec_hello b hon hn, linkIn_bad hp 5 hbad]
  case sequence =>
    intro s n p b hon hn hp hgood hst hsent hheld hnak u
    have hdata : byteAt b 0 = 1 → exec (.dataFrame n b) s = .next (s.sameInputs (s.inSequence n p b)) := fun htype => by
      rw [exec_dataFrame b hon hn, linkIn_data hp hgood hst hsent htype]
    refine ⟨fun htype hsn => ?_, fun htype hsn => ?_, fun htype hne hlt => ?_, fun htype hpath hlt => ?_,
      fun htype hpath hlt hnear => ?_⟩
    · rw [hdata htype, inSequence_expected hp hsn, if_pos htype]
      rfl
    · rw [exec_creditFrame b hon hn, linkIn_credits hp hgood hst hsent htype, inSequence_expected hp hsn, if_neg (by omega)]
      rfl
    · rw [hdata htype, inSequence_earlier hne hlt, State.sameInputs_self]
    · rw [hdata htype, inSequence_gap hpath hlt, sendNak_first hnak]
    · rw [hdata htype, inSequence_held hpath hlt hnear hheld]
      rfl
  case acknowledge =>
    intro s n p b hon hn hp hgood hst rest t
    refine ⟨fun htype => ?_, fun htype => ?_⟩
    · rw [exec_acknowledge b hon hn, linkIn_acknowledge hp hgood hst htype, applyAck_eq hp]
    · rw [exec_negativeAcknowledge b hon hn, linkIn_negative hp hgood hst htype, applyAck_eq hp]
  case notUp =>
    intro s n p b hon hn hp hgood hst
    refine ⟨fun _ => ?_, fun _ => ?_⟩
    · rw [exec_dataFrame b hon hn, linkIn_not_up hp hgood (by decide) (by omega) (by omega), State.sameInputs_self]
    · rw [exec_acknowledge b hon hn, linkIn_not_up hp hgood (by decide) (by omega) (by omega), State.sameInputs_self]
  case hello =>
    intro s n m p b hon hn hp hgood htype hst hsent
    rw [exec_hello b hon hn, linkIn_hello hp hgood htype]
    refine ⟨fun h => ?_, fun h => ?_⟩
    · rw [takeHello_common hp hst hsent h]
      rfl
    · obtain ⟨c, hc⟩ := takeHello_none hst h
      exact ⟨c, by rw [hc]; rfl⟩
  case epoch =>
    intro p e o ho hne
    simp [Peer.newEpoch, ho, hne]

/-! ## Timers and credits (R356 to R358) -/

/-- An acknowledgement is due: 16 frames, or 2 µs since the first. -/
def Peer.OwesAck (now : Nat) (p : Peer) : Prop := 16 ≤ p.rxSince ∨ (p.rxSince ≠ 0 ∧ p.rxAt + 2000 ≤ now)

/-- Credits are owed and their frame fits into the replay buffer. -/
def Peer.CreditsFit (p : Peer) : Prop := p.credOut ≠ [] ∧ p.buffered + 32 + 8 * min 64 p.credOut.length ≤ p.capacity

section
variable {s : State} {n : Nat} {p : Peer} (hp : s.peer? n = some p)
include hp

section
variable (hst : p.st = 2)
include hst

theorem ackDue_due (h : p.OwesAck s.now) : s.ackDue n = s.sendPlain n 3 [] := by
  unfold Peer.OwesAck at h
  simp [State.ackDue, hp, hst, h]

theorem ackDue_early (h : ¬ p.OwesAck s.now) : s.ackDue n = s := by
  unfold Peer.OwesAck at h
  simp [State.ackDue, hp, hst, h]

section
variable {f : SentFrame} {l : List SentFrame} (hsent : p.sent = f :: l)
include hsent

theorem replayDue_kept : s.replayDue n = if p.sentAt + p.timeout * 1000 ≤ s.now then s.resend n f.sn else s := by
  simp [State.replayDue, hp, hst, hsent]

theorem lossDue_kept : s.lossDue n = if p.ackedAt + p.loss * 1000000 ≤ s.now then
    (s.setPeer n (fun q => { q with st := 3 })).logE 0x0040 0 0xff 0xff 10 n p.chip 0 0 else s := by
  simp [State.lossDue, hp, hst, hsent]

end

theorem sendCredits_fit (h : p.CreditsFit) : s.sendCredits n =
    (s.setPeer n (fun q => { q with credOut := q.credOut.drop 64 })).sendKept n 2 0
      ((p.credOut.take 64).flatMap (fun r => toLE 4 r.1 ++ toLE 4 r.2)) := by
  obtain ⟨hsome, hroom⟩ := h
  simp [State.sendCredits, hp, hst, hsome, hroom]

theorem sendCredits_waiting (h : ¬ p.CreditsFit) : s.sendCredits n = s := by
  have hwaits : p.credOut = [] ∨ p.capacity < p.buffered + 32 + 8 * min 64 p.credOut.length := by
    unfold Peer.CreditsFit at h
    by_cases hnone : p.credOut = []
    · exact .inl hnone
    · exact .inr (by simpa [hnone] using h)
  simp only [State.sendCredits, hp]
  rw [if_pos (by simpa [hst] using hwaits)]

end

theorem replayDue_empty (hsent : p.sent = []) : s.replayDue n = s := by simp [State.replayDue, hp, hsent]

theorem lossDue_empty (hsent : p.sent = []) : s.lossDue n = s := by simp [State.lossDue, hp, hsent]

end

theorem peer_keepUdp (s : State) (p : Peer) (b : List Byte) (m : Nat) : (s.keepUdp p b).peer? m = s.peer? m := by
  unfold State.keepUdp
  split
  · exact congrArg (fun f => aGet (Fab.peers f) m) (hubWrite_fab _ _ _)
  · rfl

theorem peer_emit (s : State) (n : Nat) (p : Peer) (b : List Byte) (m : Nat) : (s.emit n p b).peer? m = s.peer? m := by
  unfold State.emit
  split <;> rfl

/-- A kept frame takes the next sequence, joins the kept ones and carries the acknowledgement. -/
theorem peer_sendKept {s : State} {n : Nat} {p : Peer} (hp : s.peer? n = some p) (type word : Nat) (l : List Byte) :
    ∃ q, (s.sendKept n type word l).peer? n = some q ∧ q.txSeq = (p.txSeq + 1) % M32 ∧ q.rxSince = 0 ∧ q.rxSeq = p.rxSeq ∧
      ∃ f, q.sent = p.sent ++ [f] ∧ f.sn = p.txSeq := by
  simp only [State.sendKept, hp, peer_emit, peer_keepUdp, peer_setPeer, if_pos]
  exact ⟨_, rfl, rfl, rfl, rfl, _, rfl, rfl⟩

theorem linkTimers : Claims.LinkTimers := by
  refine ⟨?peer, fun s hon hnone => ?noPeer, fun s n p hon hone => ?onePeer, fun s n type word l p hp => peer_sendKept hp type word l⟩
  case peer =>
    intro s n p hon hn hp hst
    have hack : exec (.ackTimer n) s = .next (s.sameInputs (s.ackDue n)) := on_next s _ hon _ (decide_eq_true hn)
    have hreplay : exec (.replayTimeout n) s = .next (s.sameInputs (s.replayDue n)) := on_next s _ hon _ (decide_eq_true hn)
    have hloss : exec (.peerLossLimit n) s = .next (s.sameInputs (s.lossDue n)) := on_next s _ hon _ (decide_eq_true hn)
    have hcredit : exec (.creditFrameSend n) s = .next (s.sameInputs (s.sendCredits n)) := on_next s _ hon _ (decide_eq_true hn)
    refine ⟨fun h => ?_, fun h => ?_, fun f l hsent => ⟨fun h => ?_, fun h => ?_, fun h => ?_, fun h => ?_⟩,
      fun hsent => ⟨?_, ?_⟩, fun hsome hroom => ?_, fun h => ?_⟩
    · rw [hack, ackDue_due hp hst h]
    · rw [hack, ackDue_early hp hst (by unfold Peer.OwesAck; omega), State.sameInputs_self]
    · rw [hreplay, replayDue_kept hp hst hsent, if_pos h]
    · rw [hreplay, replayDue_kept hp hst hsent, if_neg (by omega), State.sameInputs_self]
    · rw [hloss, lossDue_kept hp hst hsent, if_pos h]
    · rw [hloss, lossDue_kept hp hst hsent, if_neg (by omega), State.sameInputs_self]
    · rw [hreplay, replayDue_empty hp hsent, State.sameInputs_self]
    · rw [hloss, lossDue_empty hp hsent, State.sameInputs_self]
    · rw [hcredit, sendCredits_fit hp hst ⟨hsome, hroom⟩]
    · rw [hcredit, sendCredits_waiting hp hst ?_, State.sameInputs_self]
      rintro ⟨hsome, hroom⟩
      exact h.elim hsome (by omega)
  case noPeer =>
    have hall : s.helloAll = s := by simp [State.helloAll, hnone]
    exact (whenOn_next s _ hon).trans (by rw [hall, State.sameInputs_self])
  case onePeer =>
    have hall : s.helloAll = s.sendPlain n 5 s.helloBody := by simp [State.helloAll, hone]
    exact (whenOn_next s _ hon).trans (by rw [hall]; rfl)

/-- Settles O50: the checks of the set-up in order, then each frame and timer of the link as its peer's state has it. -/
theorem abapexLink : Obligations.AbapexLink := ⟨chipAndPeers, linkFrames, linkTimers⟩

end Sys2Proof.Machine

/-! SUPPORT. Proofs about function resets, link events, a request without a completion and the start of the host cores, and the commands
of the host interface, the ports and the Abapex link together. -/

namespace Sys2Proof.Machine

/-! ## Function level reset of a virtual function (R336) -/

theorem exec_flrVf {s : State} {n : Nat} (hon : s.on = true) (hlo : 1 ≤ n) (hhi : n ≤ 16) :
    exec (.flrVf n) s = .next (s.sameInputs (s.flrOf n)) := on_next s _ hon _ (by simp [hlo, hhi])

/-- With 15 virtual functions left, the last one is reset. -/
theorem exec_vfEnableClear_last {s : State} (hon : s.on = true) : exec (.vfEnableClear 15) s = .next (s.sameInputs (s.flrOf 16)) :=
  on_next s _ hon _ rfl

theorem flrOf_pcie {s : State} {n : Nat} (hattach : s.fw.attach = 0) (hfw : s.fwOn = true) : s.flrOf n = s.flr n :=
  if_pos (by simp [hattach, hfw])

/-- The rings of a function go, all of them. -/
theorem owner_freeRingsOf {s : State} {f r : Nat} {g : Ring} (h : (s.freeRingsOf f).ring? r = some g) : g.owner ≠ f := by
  intro hown
  have hkept : (r, g) ∈ s.rings.filter (fun e => !((s.ringsOf f).map Prod.fst).contains e.1) := mem_of_aGet h
  obtain ⟨hmem, hother⟩ := List.mem_filter.mp hkept
  have hmine : (r, g) ∈ s.ringsOf f := List.mem_filter.mpr ⟨hmem, decide_eq_true hown⟩
  rw [List.contains_iff_mem.mpr (List.mem_map_of_mem (f := Prod.fst) hmine)] at hother
  exact Bool.false_ne_true hother

theorem rings_emptyPairs (l : List Nat) (s : State) : (l.foldl (fun (t : State) p => t.setPair p Pair.emptied) s).rings = s.rings :=
  foldl_keeps State.rings (fun (t : State) p => t.setPair p Pair.emptied) (fun _ _ => rfl) l s

/-- The state of an FLR before the function's rings go: its suites are released, its media units are free. -/
def State.stopped (s : State) (n : Nat) : State := ((s.suitesOf n).foldl (fun (t : State) k => t.freeSuite k 0x02 0x66) s).stopMediaOf n

theorem rings_flr (s : State) (n : Nat) : (s.flr n).rings = ((s.stopped n).freeRingsOf n).rings := by
  unfold State.flr
  dsimp only
  rw [State.setFunc_rings, rings_emptyPairs, State.freeQueuesOf, State.setFab_rings, State.stopped]

/-- The reset function has no ring. -/
theorem owner_flr {s : State} {n r : Nat} {g : Ring} (h : (s.flr n).ring? r = some g) : g.owner ≠ n := by
  rw [State.ring?, rings_flr] at h
  exact owner_freeRingsOf h

theorem owner_sameInputs_flr {s u : State} {n r : Nat} {g : Ring} (h : (u.sameInputs (s.flr n)).ring? r = some g) : g.owner ≠ n :=
  owner_flr h

/-- The reset function is no orphan and has no heartbeat. -/
theorem func_flr (s : State) (n : Nat) : ((s.flr n).func n).orphan = false ∧ ((s.flr n).func n).beat = none :=
  ⟨getD_lMod_part _ _ _ _ Func.orphan rfl, getD_lMod_part _ _ _ _ Func.beat rfl⟩

/-! ## Resets and link events of the host (R335, R336) -/

/-- A function under the reset values of its configuration. -/
def Func.unset (f : Func) : Func := { f with d3 := false, held := [], bar2 := 36 }

theorem func_resetConfig (s : State) (f : Nat) : s.resetConfig.func f = (s.func f).unset := List.getD_map s.funcs Func.reset Func.unset

theorem resetHost_pcie {s : State} (hattach : s.fw.attach = 0) : s.resetHost .hotReset =
    (s.resetConfig.setFw (fun f => { f with linkUp := false })).setHealth (fun h => { h with pcieDepth := 0 }) :=
  if_neg (by simp [hattach])

theorem flushIrq_fw (s : State) (f : Nat) : (s.flushIrq f).fw = s.fw := by
  unfold State.flushIrq
  split <;> rfl

theorem linkTrained_pcie {s : State} (hattach : s.fw.attach = 0) : s.linkTrained.fw = { s.fw with linkUp := true } := by
  unfold State.linkTrained
  rw [if_neg (by simp [hattach])]
  exact foldl_keeps State.fw _ flushIrq_fw _ _

/-- In D3hot no interrupt of the function can leave. -/
theorem powerState_d3 {s : State} {f : Nat} (hattach : s.fw.attach = 0) (hf : f < s.funcs.length) :
    s.powerState f true = s.setFunc f (fun x => { x with d3 := true }) := by
  have hclosed : ¬ (s.setFunc f (fun x => { x with d3 := true })).irqOpen f = true := by
    rw [State.irqOpen, State.func_setFunc s f _ hf]
    simp [State.setFunc, hattach]
  unfold State.powerState
  rw [if_neg (by simp [hattach])]
  exact if_neg hclosed

theorem hostTimeout_hub {s : State} {f page p : Nat} {w : Bool} (hattach : s.fw.attach = 0) (h : s.xentry page = .host p f w) :
    s.hostTimeout f page .hub = s.logE 0x0023 4 f 0xff 0 0 page 0 0 := by
  simp [State.hostTimeout, h, hattach]

/-! ## The start of the host cores (R343) -/

theorem actHostStart_starts {s : State} {r : Req} (hrun : s.fw.hostRun = false) (hattach : s.fw.attach ≠ 2)
    (hentry : s.inFn 0 (fld r.body 0 8) 1 = true) (hblob : s.inFn 0 (fld r.body 8 8) 1 = true) :
    actHostStart s r = (s.startHost (fld r.body 0 8) (fld r.body 8 8), some (0, [])) :=
  if_neg (by simp [hrun, hattach, hentry, hblob])

/-! ## The commands together -/

/-- Settles O58: each command takes the effect of its own lemma, or of the claim about its unit. -/
theorem hostAndLinkCommandsComplete : Obligations.HostAndLinkCommandsComplete := by
  obtain ⟨-, -, readWord, writeWord, readBytes, writeBytes, -, -⟩ := usbTransactions
  obtain ⟨setup, -, delete, -, rule, doorbell⟩ := packetQueues
  obtain ⟨receive, -, -, transmit, -⟩ := ethernetFrames
  obtain ⟨-, -, training, loss, -, -⟩ := lanesAndBounds
  obtain ⟨chip, peer⟩ := chipAndPeers
  obtain ⟨-, sequence, acknowledge, -, hello, -⟩ := linkFrames
  obtain ⟨timers, -, onePeer, -⟩ := linkTimers
  refine ⟨?ack, ?flr, ?vfEnable, ?hotReset, ?timeout, ?trained, ?power, ?usbRead, writeWord, ?usbBytes, writeBytes, ?usbMessage, ?hostStart,
    ?queue, ?rule, ?doorbell, ?receive, ?transmit, fun s n c hon hn hup => (loss s n c hon hn hup).2, ?training, ?chip, ?peer, ?sequence,
    ?acknowledge, ?hello, ?timers, onePeer⟩
  case ack =>
    intro s f p hon hf hp howner hv hdue
    rw [exec_mbxReplyAck s f p hon hf hp, if_pos howner, ackReply_last hv hdue, State.sameInputs_setPair]
  case flr =>
    intro s n hlo hhi hattach hfw
    refine ⟨s.sameInputs (s.flr n), ?_, fun r g h => owner_sameInputs_flr h, fun _ => func_flr s n⟩
    rw [exec_flrVf (on_of_fwOn s hfw) hlo hhi, flrOf_pcie hattach hfw]
  case vfEnable =>
    intro s hattach hfw
    refine ⟨s.sameInputs (s.flr 16), ?_, fun r g h => owner_sameInputs_flr h⟩
    rw [exec_vfEnableClear_last (on_of_fwOn s hfw), flrOf_pcie hattach hfw]
  case hotReset =>
    intro s hon hattach
    refine ⟨_, whenOn_next s _ hon, ?_, fun f _ => ?_⟩
    · rw [resetHost_pcie hattach]
      rfl
    · rw [resetHost_pcie hattach]
      exact ⟨congrArg Func.d3 (func_resetConfig s f), congrArg Func.held (func_resetConfig s f)⟩
  case timeout =>
    intro s f page p w hon hf hattach h
    have hexec : exec (.completionTimeout f page .hub) s = .next (s.sameInputs (s.hostTimeout f page .hub)) :=
      on_next s _ hon _ (decide_eq_true hf)
    rw [hexec, hostTimeout_hub hattach h]
  case trained =>
    exact fun s hon hattach => ⟨_, whenOn_next s _ hon, congrArg Fw.linkUp (linkTrained_pcie hattach)⟩
  case power =>
    intro s f hon hattach hf hlen
    have hexec : exec (.powerStateChange f true) s = .next (s.sameInputs (s.powerState f true)) :=
      on_next s _ hon _ (decide_eq_true hf)
    rw [hexec, powerState_d3 hattach hlen, State.sameInputs_setFunc]
  case usbRead => exact fun s tag o hon hr => readWord s tag o hon (.inl hr)
  case usbBytes =>
    intro s tag a n hon hr h ha
    obtain ⟨t, hexec, husb, -, -⟩ := readBytes s tag a n hon hr h ha
    exact ⟨t, hexec, husb⟩
  case usbMessage =>
    exact fun s tag p d hon h hlen hr hattach hp hreq => exec_usbMailboxMessage_open h hlen (.inl hr) hon ⟨hattach, hp, hreq⟩
  case hostStart =>
    intro s p r h hrun hattach hentry hblob
    exact ⟨_, accepted_message_answer s p _ _ r _ _ _ h (actHostStart_starts (s := s.accepted r) hrun hattach hentry hblob), rfl, rfl⟩
  case queue =>
    intro s p r h b hempty hport hpage hlo hin hrange
    refine ⟨fun hop => ?_, fun q hop hq => ?_⟩
    · obtain ⟨-, -, -, -, stands⟩ := setup s p r h hop
      exact stands hempty hport ⟨hpage, hlo, hin⟩ hrange
    · have hnone : q.p = q.c := of_decide_eq_true ((pqEmpty_some hq).symm.trans hempty)
      obtain ⟨-, -, -, gone, -⟩ := delete s p r q h hop hq
      obtain ⟨t, hexec, ht, -⟩ := gone hnone hport ⟨hpage, hlo, hin⟩ hrange
      exact ⟨t, hexec, ht⟩
  case rule =>
    intro s p r x h b hport hq hrx hx h1 h2 h3 h4 h5 h6
    obtain ⟨-, -, -, stands⟩ := rule s p r h
    exact stands hport ⟨x, hq, hrx, hx⟩ ⟨h1, h2, h3, h4, h5, h6⟩
  case doorbell =>
    intro s f q v x hon hf hq hv hx howner hrx hfits
    obtain ⟨within, -⟩ := doorbell s f q v x hon hf hq hv hx
    have hheld : x.heldWith v ≤ 2 ^ x.log := by
      rw [PktQ.heldWith, if_neg (by simp [hrx])]
      exact hfits
    obtain ⟨t, hexec, -, -, ht⟩ := within howner hheld
    exact ⟨t, hexec, ht.trans (congrArg some (if_neg (by simp [hrx])))⟩
  case receive =>
    intro s port q x b hon hp hup hlo hhi hether hpeer hsteer hx hroom hstop hreads hwrites d part hbuf
    obtain ⟨-, -, steered⟩ := receive s port true b hon hp hup
    obtain ⟨-, into⟩ := steered rfl hlo hhi hether hpeer
    obtain ⟨-, taken⟩ := into q x hsteer hx
    exact ⟨_, taken hroom hstop hreads hwrites hbuf, rfl⟩
  case transmit =>
    intro s q x hon hq hx hrx hstop hheld hreads hwrites a d hup hlo hhi hbuf hstamp hsums
    exact (transmit s q x hon hq hx hrx hstop hheld hreads hwrites).2 hup hlo hhi hbuf hstamp hsums
  case training =>
    exact fun s n e hon hn hmode hpresent hretired hup hfails he => (training s n e hon hn hmode hpresent hretired hup hfails).1 he
  case chip => exact fun s p r h hrange hpeers hsuites => (chip s p r h).1 ⟨hrange, hpeers, hsuites⟩
  case peer =>
    intro s p r h b hfree hchip hpath hdirect hrange
    obtain ⟨-, -, -, -, stands, -⟩ := peer s p r h
    have hnot : ¬ s.PeerTaken b := by simp [State.PeerTaken, hfree, hchip]
    exact stands hnot hpath (fun hudp => absurd hudp hdirect) hrange
  case sequence =>
    intro s n p b hon hn hp hgood hst hsent hheld hnak
    obtain ⟨data, credits, -⟩ := sequence s n p b hon hn hp hgood hst hsent hheld hnak
    exact ⟨data, credits⟩
  case acknowledge =>
    intro s n p b hon hn hp hgood hst rest hfreed
    obtain ⟨acks, naks⟩ := acknowledge s n p b hon hn hp hgood hst
    rw [if_neg hfreed] at acks naks
    exact ⟨acks, naks⟩
  case hello =>
    exact fun s n m p b hon hn hp hgood htype hst hsent hpairs => (hello s n m p b hon hn hp hgood htype hst hsent).1 hpairs
  case timers =>
    intro s n p hon hn hp hst
    obtain ⟨acks, -, keeps, -, credits, -⟩ := timers s n p hon hn hp hst
    exact ⟨credits, fun hrx => acks (.inl hrx), fun f l hsent => (keeps f l hsent).1, fun f l hsent => (keeps f l hsent).2.2.1⟩

end Sys2Proof.Machine

/-! SUPPORT. Proofs about the services of the firmware: reports, images that are written, and fuses, in order and refused. -/

namespace Sys2Proof.Machine

/-! ## Identity and attestation (R373, R374) -/

/-- The buffer takes the certificate chain. -/
def State.chainFits (s : State) (r : Req) : Bool :=
  s.inFn r.fn (fld r.body 0 8) (max 16384 s.certChain.length) && s.writable (fld r.body 0 8) s.certChain.length

theorem actIdentity_unfit {s : State} {r : Req} (h : s.chainFits r = false) : actIdentity s r = (s, some (0x80, [])) :=
  if_neg (ne_true_of_eq_false h)

theorem chainFits_accepted (s : State) (r : Req) : (s.accepted r).chainFits r = s.chainFits r := by
  rw [State.chainFits, certChain_accepted]
  rfl

/-- A report may be made: the nonce's length, the reserved bytes and the buffer are in order (R382). -/
def State.ReportFits (s : State) (r : Req) : Prop :=
  1 ≤ byteAt r.body 0 ∧ byteAt r.body 0 ≤ 64 ∧ fld r.body 1 7 = 0 ∧ allZero (r.body.drop (16 + byteAt r.body 0)) = true ∧
    s.inFn r.fn (fld r.body 8 8) 8192 = true ∧
    s.writable (fld r.body 8 8) ((s.attestBody r.fn (byteAt r.body 0) ((r.body.drop 16).take (byteAt r.body 0))).length + 96) = true

theorem actAttestation_unfit {s : State} {r : Req} (h : ¬ s.ReportFits r) : actAttestation s r = (s, some (0x80, [])) := by
  unfold actAttestation
  dsimp only
  by_cases hrange : (byteAt r.body 0 < 1 || 64 < byteAt r.body 0 || fld r.body 1 7 != 0 ||
      !allZero (r.body.drop (16 + byteAt r.body 0)) || !s.inFn r.fn (fld r.body 8 8) 8192) = true
  · rw [if_pos hrange]
  · rw [if_neg hrange, if_pos ?_]
    simp only [Bool.or_eq_true, decide_eq_true_eq, bne_iff_ne, ne_eq, Bool.not_eq_true', not_or, not_lt, not_not,
      Bool.not_eq_false] at hrange
    obtain ⟨⟨⟨⟨hlo, hhi⟩, hres⟩, hzero⟩, hin⟩ := hrange
    rw [Bool.not_eq_true', ← Bool.not_eq_true]
    exact fun hw => h ⟨hlo, hhi, hres, hzero, hin, hw⟩

/-- A report begins with its magic, nine bytes before the nonce. -/
theorem attestBody_head (s : State) (f n : Nat) (nonce : List Byte) : ∃ a rest : List Byte, a.length = 5 ∧
    s.attestBody f n nonce = [0x4d, 0x59, 0x41, 0x54] ++ a ++ (padTo 64 nonce ++ rest) := by
  refine ⟨toLE 2 1 ++ toLE 2 (s.attestList f).length ++ toLE 1 n, ?_⟩
  apply Exists.intro
  refine ⟨by simp, ?_⟩
  simp only [State.attestBody, List.append_assoc]
  rfl

theorem attestBody_nonce (s : State) (f n : Nat) (nonce sig : List Byte) :
    (s.attestBody f n nonce ++ sig).take 4 = [0x4d, 0x59, 0x41, 0x54] ∧
      ((s.attestBody f n nonce ++ sig).drop 9).take 64 = padTo 64 nonce := by
  obtain ⟨a, rest, ha, hbody⟩ := attestBody_head s f n nonce
  have hhead : ([0x4d, 0x59, 0x41, 0x54] ++ a : List Byte).length = 9 := by simp [ha]
  rw [hbody, List.append_assoc _ _ sig, List.drop_append_of_le_length hhead.ge, List.drop_eq_nil_of_le hhead.le, List.nil_append,
    List.append_assoc (padTo 64 nonce), List.take_append_of_le_length (length_padTo 64 nonce).ge,
    List.take_of_length_le (length_padTo 64 nonce).le]
  exact ⟨rfl, rfl⟩

theorem firmwareReports : Claims.FirmwareReports := by
  refine ⟨fun s p r h => ⟨fun hgood => ?fits, fun hbad => ?unfit⟩, fun s p r h => ⟨fun hgood => ?signs, fun hbad => ?refused⟩,
    fun s p r h => accepted_message_answer s p _ _ r _ _ _ h rfl⟩
  case fits =>
    obtain ⟨hin, hw⟩ := Bool.and_eq_true_iff.mp hgood
    exact exec_identity_fits h hin hw
  case unfit =>
    exact accepted_message_answer s p _ _ r _ _ _ h (actIdentity_unfit (s := s.accepted r) ((chainFits_accepted s r).trans hbad))
  case signs =>
    obtain ⟨hlo, hhi, hres, hzero, hin, hw⟩ := hgood
    obtain ⟨sig, hlen, hact⟩ := actAttestation_signs (s := s.accepted r) hlo hhi hres hzero hin hw
    obtain ⟨hmagic, hnonce⟩ := attestBody_nonce s r.fn (byteAt r.body 0) ((r.body.drop 16).take (byteAt r.body 0)) sig
    exact ⟨_, _, accepted_message_answer s p _ _ r _ _ _ h hact, rfl, hmagic, hnonce, sig, rfl, hlen⟩
  case refused => exact accepted_message_answer s p _ _ r _ _ _ h (actAttestation_unfit (s := s.accepted r) hbad)

/-! ## Images that are written (R368, R382, R385) -/

/-- The image is in the slot that is not active, and the other copy of the directory lists it as staged. -/
def State.storeImage (s : State) (r : Req) (b : List Byte) : State :=
  let d := s.directory.1
  ((s.touchImage r).flashWrite (if d.active = 0 then slotB else slotA) b).writeDirectory
    (if d.active = 0 then { d with b := 1 } else { d with a := 1 })

theorem length_dirBytes (d : Dir) : d.bytes.length = 16 := by simp [Dir.bytes]

theorem touchImage_frame (s : State) (r : Req) :
    ∃ c m d, s.touchImage r = { s with xlt := { s.xlt with cache := c, misses := m }, free := d } := touchAll_frame s _ _

theorem storeImage_frame (s : State) (r : Req) (b : List Byte) : ∃ l c m d, s.storeImage r b =
    { s with flash := l, xlt := { s.xlt with cache := c, misses := m }, free := d } := by
  obtain ⟨c, m, d, h⟩ := touchImage_frame s r
  refine ⟨(s.storeImage r b).flash, c, m, d, ?_⟩
  simp only [State.storeImage, State.writeDirectory, State.flashWrite, h]

/-- A write of the directory leaves the slots as they are. -/
theorem memGet_writeDirectory {s : State} (hwf : Mem.wf flashDefault s.flash = true) (d : Dir) {x : Nat} (hx : 0x10010 ≤ x) :
    memGet flashDefault (s.writeDirectory d).flash x = memGet flashDefault s.flash x := by
  have houtside : ∀ a, a ≤ 0x10000 → ∀ e : Dir, memGet flashDefault (s.flashWrite a e.bytes).flash x = memGet flashDefault s.flash x := by
    intro a ha e
    rw [State.flashWrite, memGet_memWrite _ _ _ _ _ hwf, length_dirBytes, if_neg (by omega)]
  unfold State.writeDirectory
  dsimp only
  exact houtside _ (by split <;> omega) _

/-- The slot that is not active holds the image. -/
theorem memGet_storeImage {s : State} (hwf : Mem.wf flashDefault s.flash = true) (r : Req) (b : List Byte) {x : Nat} (hx : x < b.length) :
    let slot := if s.directory.1.active = 0 then slotB else slotA
    memGet flashDefault (s.storeImage r b).flash (slot + x) = b.getD x 0 := by
  intro slot
  obtain ⟨c, m, d, h⟩ := touchImage_frame s r
  have hwf' : Mem.wf flashDefault (s.touchImage r).flash = true := by rw [h]; exact hwf
  have hslot : 0x10010 ≤ slot + x := by
    simp only [slot, slotA, slotB]
    split <;> omega
  refine (memGet_writeDirectory (Mem.wf_flashWrite _ _ _ hwf') _ hslot).trans ?_
  rw [State.flashWrite, memGet_memWrite _ _ _ _ _ hwf', if_pos (by omega), Nat.add_sub_cancel_left]

section
variable {s : State} {r : Req} (k : Bool)

theorem actStage_updating (h : s.updating = true) : actStage k s r = (s, some (0x54, [])) := if_pos h

theorem actRecoveryWrite_updating (h : s.updating = true) : actRecoveryWrite k s r = (s, some (0x54, [])) := if_pos h

theorem actHostImage_unreadable (h : s.messageImage r 1 0x1000000 = none) : actHostImage k s r = (s, some (0x80, [])) := by
  simp only [actHostImage, h]

theorem actHostImage_failed {b : List Byte} (h : s.messageImage r 1 0x1000000 = some b) : actHostImage false s r = (s, some (0x56, [])) := by
  simp only [actHostImage, h, Bool.false_eq_true, if_false]

section
variable (hupdating : s.updating = false)
include hupdating

theorem actStage_unreadable (h : s.messageImage r 512 0x1000000 = none) : actStage k s r = (s, some (0x51, [])) := by
  simp only [actStage, hupdating, h, Bool.false_eq_true, if_false]

theorem actRecoveryWrite_unreadable (h : s.messageImage r 512 0x800000 = none) : actRecoveryWrite k s r = (s, some (0x51, [])) := by
  simp only [actRecoveryWrite, hupdating, h, Bool.false_eq_true, if_false]

section
variable {b : List Byte} (hb : s.messageImage r 512 0x1000000 = some b)
include hb

theorem actStage_unacceptable (h : acceptImage s.fuses 0 b = none) : actStage k s r = (s, some (0x51, [])) := by
  simp only [actStage, hupdating, hb, h, Bool.false_eq_true, if_false]

variable {i j : Image} (hi : acceptImage s.fuses 0 b = some i) (hrun : s.fw.run = some j)
include hi hrun

theorem actStage_unread (h : readsHandoff i j = false) : actStage k s r = (s, some (0x52, [])) := by
  simp only [actStage, hupdating, hb, hi, hrun, Option.getD_some, h, Bool.false_eq_true, Bool.not_false, if_true, if_false]

theorem actStage_read (h : readsHandoff i j = true) : actStage k s r =
    if k then ((s.storeImage r b).setFw (fun f => { f with staged := some i, update := 2 }), some (0, [])) else (s, some (0x56, [])) := by
  simp only [actStage, hupdating, hb, hi, hrun, Option.getD_some, h, Bool.false_eq_true, Bool.not_true, if_false]
  cases k <;> rfl

end

section
variable {b : List Byte} (hb : s.messageImage r 512 0x800000 = some b)
include hb

theorem actRecoveryWrite_unacceptable (h : acceptImage s.fuses 1 b = none) : actRecoveryWrite k s r = (s, some (0x51, [])) := by
  simp only [actRecoveryWrite, hupdating, hb, h, Bool.false_eq_true, if_false]

variable {i j : Image} (hi : acceptImage s.fuses 1 b = some i) (hrun : s.fw.run = some j)
include hi hrun

theorem actRecoveryWrite_unread (h : readsHandoff i j = false) : actRecoveryWrite k s r = (s, some (0x52, [])) := by
  simp only [actRecoveryWrite, hupdating, hb, hi, hrun, Option.getD_some, h, Bool.false_eq_true, Bool.not_false, if_true, if_false]

theorem actRecoveryWrite_failed (h : readsHandoff i j = true) : actRecoveryWrite false s r = (s, some (0x56, [])) := by
  simp only [actRecoveryWrite, hupdating, hb, hi, hrun, Option.getD_some, h, Bool.false_eq_true, Bool.not_true, if_false]

end

end

end

/-- An acceptable image stands under a usable key, at the least security version or above, with the digest of its body (R368). -/
theorem acceptImage_sound {f : Fuses} {kind : Nat} {b : List Byte} {i : Image} (h : acceptImage f kind b = some i) :
    i.key = byteAt b 5 ∧ usableKey f i.key = true ∧ f.minSec ≤ i.secVer ∧ i.secVer = fld b 6 2 ∧ byteAt b 13 = kind ∧
      sha384 ((b.drop 512).take (fld b 16 4)) = (b.drop 24).take 48 := by
  unfold acceptImage at h
  dsimp only at h
  split at h
  · next hchecks =>
    simp only [Bool.and_eq_true, decide_eq_true_eq, beq_iff_eq] at hchecks
    obtain ⟨⟨⟨⟨⟨⟨⟨⟨⟨⟨⟨⟨-, -⟩, -⟩, -⟩, hkind⟩, hkey⟩, -⟩, hsec⟩, -⟩, -⟩, hdigest⟩, -⟩, -⟩ := hchecks
    cases h
    exact ⟨rfl, hkey, hsec, rfl, hkind, hdigest⟩
  · cases h

theorem usableKey_iff (f : Fuses) (k : Nat) : usableKey f k = true ↔ k < 4 ∧ f.keys.getD k [] ≠ [] ∧ f.revoked.getD k true = false := by
  simp only [usableKey, Bool.and_eq_true, decide_eq_true_eq, Bool.not_eq_true', List.isEmpty_eq_false_iff, ne_eq, and_assoc]

theorem imageWrites : Claims.ImageWrites := by
  refine ⟨?stage, ?recovery, ?host, ?acceptable⟩
  case stage =>
    intro s p r h refused
    have hexec : ∀ {k : Bool} {t : State} {st : Nat}, actStage k (s.accepted r) r = (t, some (st, [])) →
        exec (.stage p k) s = .next (s.sameInputs (t.answer r st [])) := fun hact => accepted_message_answer s p _ _ r _ _ _ h hact
    refine ⟨fun hup k => hexec (actStage_updating (s := s.accepted r) k hup),
      fun hup hb k => hexec (actStage_unreadable (s := s.accepted r) k hup hb),
      fun b hup hb hi k => hexec (actStage_unacceptable (s := s.accepted r) k hup hb hi),
      fun b i j hup hb hi hrun hwf => ⟨fun hreads k => hexec (actStage_unread (s := s.accepted r) k hup hb hi hrun hreads), fun hreads => ?_,
        fun hreads => ?_⟩⟩
    · exact hexec ((actStage_read (s := s.accepted r) false hup hb hi hrun hreads).trans (if_neg Bool.false_ne_true))
    · obtain ⟨l, c, m, d, hframe⟩ := storeImage_frame (s.accepted r) r b
      have hheld := fun x hx => memGet_storeImage (s := s.accepted r) hwf r b (x := x) hx
      refine ⟨_, hexec ((actStage_read (s := s.accepted r) true hup hb hi hrun hreads).trans (if_pos rfl)), ?_, ?_, fun hactive x hx _ => ?_,
        fun hactive x hx _ => ?_⟩
      · rw [hframe]
        rfl
      · rw [hframe]
        rfl
      · exact (congrArg (fun a => memGet flashDefault ((s.accepted r).storeImage r b).flash (a + x)) (if_pos hactive)).symm.trans (hheld x hx)
      · exact (congrArg (fun a => memGet flashDefault ((s.accepted r).storeImage r b).flash (a + x)) (if_neg hactive)).symm.trans (hheld x hx)
  case recovery =>
    intro s p r h refused
    have hexec : ∀ {k : Bool} {t : State} {st : Nat}, actRecoveryWrite k (s.accepted r) r = (t, some (st, [])) →
        exec (.recoveryWrite p k) s = .next (s.sameInputs (t.answer r st [])) := fun hact => accepted_message_answer s p _ _ r _ _ _ h hact
    exact ⟨fun hup k => hexec (actRecoveryWrite_updating (s := s.accepted r) k hup),
      fun hup hb k => hexec (actRecoveryWrite_unreadable (s := s.accepted r) k hup hb),
      fun b hup hb hi k => hexec (actRecoveryWrite_unacceptable (s := s.accepted r) k hup hb hi),
      fun b i j hup hb hi hrun => ⟨fun hreads k => hexec (actRecoveryWrite_unread (s := s.accepted r) k hup hb hi hrun hreads),
        fun hreads => ⟨hexec (actRecoveryWrite_stands (s := s.accepted r) hup hb hi hrun hreads),
          hexec (actRecoveryWrite_failed (s := s.accepted r) hup hb hi hrun hreads)⟩⟩⟩
  case host =>
    intro s p r h
    have hexec : ∀ {k : Bool} {t : State} {st : Nat}, actHostImage k (s.accepted r) r = (t, some (st, [])) →
        exec (.hostImageWrite p k) s = .next (s.sameInputs (t.answer r st [])) := fun hact => accepted_message_answer s p _ _ r _ _ _ h hact
    exact ⟨fun hb k => hexec (actHostImage_unreadable (s := s.accepted r) k hb),
      fun b hb => ⟨hexec (actHostImage_stands (s := s.accepted r) hb), hexec (actHostImage_failed (s := s.accepted r) hb)⟩⟩
  case acceptable =>
    intro f kind b i h
    obtain ⟨hkey, husable, hsec, hver, hkind, hdigest⟩ := acceptImage_sound h
    obtain ⟨hk, hprogrammed, hrevoked⟩ := (usableKey_iff f i.key).mp husable
    exact ⟨hkey, hk, hprogrammed, hrevoked, hsec, hver, hkind, hdigest⟩

/-! ## Fuses (R371) -/

/-- A key slot may be revoked: no image that the device runs or holds needs it, and another one stays usable. -/
def State.MayRevoke (s : State) (r : Req) : Prop :=
  byteAt r.body 0 ≤ 3 ∧ fld r.body 1 3 = 0 ∧ (∀ i, i ∈ s.images → i.1 ≠ byteAt r.body 0) ∧
    (List.range 4).filter (usableKey s.fuses) ≠ [byteAt r.body 0]

/-- The least security version may rise: no image that the device runs or holds falls short of it. -/
def State.MayAdvance (s : State) (r : Req) : Prop :=
  1 ≤ fld r.body 0 2 ∧ fld r.body 0 2 ≤ 64 ∧ fld r.body 2 2 = 0 ∧ s.fuses.minSec < fld r.body 0 2 ∧
    ∀ i, i ∈ s.images → fld r.body 0 2 ≤ i.2

section
variable {s : State} {r : Req}

theorem actRevoke_refused (h : ¬ s.MayRevoke r) : actRevoke s r = (s, some (0x57, [])) := by
  refine if_pos (by_contra fun hmay => h ?_)
  obtain ⟨hk, hres, himages, hlast⟩ : byteAt r.body 0 ≤ 3 ∧ fld r.body 1 3 = 0 ∧ (∀ x, (byteAt r.body 0, x) ∉ s.images) ∧
      (List.range 4).filter (usableKey s.fuses) ≠ [byteAt r.body 0] := by simpa [and_assoc] using hmay
  exact ⟨hk, hres, fun ⟨key, sec⟩ hi hused => himages sec (hused ▸ hi), hlast⟩

theorem actAdvance_refused (h : ¬ s.MayAdvance r) : actAdvance s r = (s, some (0x58, [])) := by
  refine if_pos (by_contra fun hmay => h ?_)
  simpa [State.MayAdvance, and_assoc, Nat.one_le_iff_ne_zero] using hmay

end

theorem fuseMessages : Claims.FuseMessages := by
  refine ⟨fun s p r h => ⟨fun hgood => ?revoke, fun hbad => ?kept⟩, fun s p r h => ⟨fun hgood => ?advance, fun hbad => ?stays⟩⟩
  case revoke =>
    obtain ⟨hk, hres, himages, hlast⟩ := hgood
    exact accepted_message_answer s p _ _ r _ _ _ h (actRevoke_stands (s := s.accepted r) hk hres himages hlast)
  case kept => exact accepted_message_answer s p _ _ r _ _ _ h (actRevoke_refused (s := s.accepted r) hbad)
  case advance =>
    obtain ⟨hlo, hhi, hres, hmin, himages⟩ := hgood
    exact accepted_message_answer s p _ _ r _ _ _ h (actAdvance_stands (s := s.accepted r) hlo hhi hres hmin himages)
  case stays => exact accepted_message_answer s p _ _ r _ _ _ h (actAdvance_refused (s := s.accepted r) hbad)

/-- Settles O51: each message of the firmware meets its checks in order, and past them it has its effect. -/
theorem firmwareServices : Obligations.FirmwareServices := ⟨firmwareReports, imageWrites, fuseMessages⟩

end Sys2Proof.Machine

/-! SUPPORT. Proofs about the live update and the rescue: how an activation is answered, what a takeover and a rollback leave, and what a
rescue keeps. -/

namespace Sys2Proof.Machine

/-! ## What a message or a notice can change -/

/-- Suites, cores, rings, memory and translation stand as they were. -/
structure State.SameWork (s t : State) : Prop where
  suites : t.suites = s.suites
  cores : t.cores = s.cores
  rings : t.rings = s.rings
  hbm : t.hbm = s.hbm
  xlt : t.xlt = s.xlt

theorem State.SameWork.trans {s t u : State} (h : s.SameWork t) (g : t.SameWork u) : s.SameWork u :=
  ⟨g.suites.trans h.suites, g.cores.trans h.cores, g.rings.trans h.rings, g.hbm.trans h.hbm, g.xlt.trans h.xlt⟩

/-- Messages, notices and log entries change the mailboxes, the notices and vectors that functions hold, the log and what leaves; `fw` is
free for the pair that waits for an answer. No heartbeat moves. -/
structure State.Speaks (s t : State) : Prop where
  frame : ∃ p f l o w, t = { s with pairs := p, funcs := f, log := l, out := o, fw := w }
  beats : ∀ f, (t.func f).beat = (s.func f).beat

namespace State.Speaks

theorem keeps {s t : State} (h : s.Speaks t) : s.SameWork t ∧ t.flash = s.flash := by
  obtain ⟨p, f, l, o, w, rfl⟩ := h.frame
  exact ⟨⟨rfl, rfl, rfl, rfl, rfl⟩, rfl⟩

theorem refl (s : State) : s.Speaks s := ⟨⟨s.pairs, s.funcs, s.log, s.out, s.fw, rfl⟩, fun _ => rfl⟩

theorem trans {s t u : State} (h : s.Speaks t) (g : t.Speaks u) : s.Speaks u := by
  obtain ⟨p, f, l, o, w, rfl⟩ := h.frame
  obtain ⟨p', f', l', o', w', rfl⟩ := g.frame
  exact ⟨⟨p', f', l', o', w', rfl⟩, fun n => (g.beats n).trans (h.beats n)⟩

theorem foldl {α : Type} (l : List α) (f : State → α → State) (hf : ∀ t a, State.Speaks t (f t a)) (s : State) : s.Speaks (l.foldl f s) :=
  List.foldlRecOn (motive := State.Speaks s) l f (refl s) (fun t ht a _ => ht.trans (hf t a))

theorem setPair (s : State) (p : Nat) (f : Pair → Pair) : s.Speaks (s.setPair p f) := ⟨⟨_, s.funcs, s.log, s.out, s.fw, rfl⟩, fun _ => rfl⟩

theorem setFw (s : State) (f : Fw → Fw) : s.Speaks (s.setFw f) := ⟨⟨s.pairs, s.funcs, s.log, s.out, _, rfl⟩, fun _ => rfl⟩

theorem irq (s : State) (f v : Nat) : s.Speaks (s.irq f v) := by
  unfold State.irq
  split
  · exact ⟨⟨s.pairs, s.funcs, s.log, _, s.fw, rfl⟩, fun _ => rfl⟩
  · exact ⟨⟨s.pairs, _, s.log, _, s.fw, rfl⟩, fun n => State.func_setFunc_keeps s f n _ Func.beat (fun _ => rfl)⟩

theorem logE (s : State) (code cls fn suite kind unit a b c : Nat) : s.Speaks (s.logE code cls fn suite kind unit a b c) := by
  obtain ⟨e, h⟩ := logE_raises s code cls fn suite kind unit a b c
  have hlogged : s.Speaks (s.logged e) := ⟨⟨s.pairs, s.funcs, _, s.out, s.fw, rfl⟩, fun _ => rfl⟩
  have hraised := hlogged.trans (irq (s.logged e) 0 1)
  rw [h]
  split
  · exact hraised.trans (irq _ fn 1)
  · exact hraised

theorem notice (s : State) (f type suite : Nat) (body : List Byte) : s.Speaks (s.notice f type suite body) := by
  refine State.Speaks.trans ⟨⟨s.pairs, _, s.log, s.out, s.fw, rfl⟩, fun n => ?_⟩ (logE _ _ _ _ _ _ _ _ _ _)
  refine State.func_setFunc_keeps s f n _ Func.beat (fun x => ?_)
  split <;> rfl

theorem noticeAll (s : State) (type : Nat) (body : List Byte) : s.Speaks (s.noticeAll type body) :=
  foldl _ _ (fun t f => notice t f type _ body) s

theorem deliver (s : State) (p : Nat) (m : List Byte) : s.Speaks (s.deliver p m) := by
  unfold State.deliver
  split
  · exact setPair s p _
  · exact (setPair s p _).trans (irq _ _ _)

theorem answer (s : State) (r : Req) (st : Nat) (e : List Byte) : s.Speaks (s.answer r st e) := (setPair s r.pair _).trans (deliver _ _ _)

theorem answerActivate (s : State) (st : Nat) : s.Speaks (s.answerActivate st) := by
  unfold State.answerActivate State.answerLate
  split
  · split
    · exact (answer _ _ _ _).trans (setFw _ _)
    · exact setFw _ _
  · exact refl s

theorem refuseActivates (s : State) : s.Speaks s.refuseActivates := by
  refine foldl _ _ (fun t p => ?_) s
  split
  · next r _ =>
    split
    · unfold State.serveReq
      split
      · exact (setPair t r.pair _).trans ((setPair _ r.pair _).trans (answer _ r _ _))
      · exact (setPair t r.pair _).trans (deliver _ _ _)
      · exact (setPair t r.pair _).trans (deliver _ _ _)
    · exact refl t
  · exact refl t

end State.Speaks

/-- With no fault held the end of an activation is talk only. -/
theorem closeActivation_speaks {s : State} (h : s.health.heldFault = []) (st version : Nat) (rolled : Bool) :
    s.Speaks (s.closeActivation st version rolled) := by
  have htalk := (State.Speaks.answerActivate s st).trans
    ((State.Speaks.noticeAll _ 0x4006 (toLE 4 version ++ toLE 1 (b2n rolled) ++ zeros 3)).trans (State.Speaks.refuseActivates _))
  obtain ⟨p, f, l, o, w, hframe⟩ := htalk.frame
  rw [State.closeActivation, releaseFaults_none]
  · exact htalk
  · rw [State.noticeFirmware, hframe]
    exact h

/-! ## Activation (R386 to R389) -/

section
variable {s : State} {r : Req}

theorem actActivate_updating (h : s.updating = true) : actActivate s r = (s, some (0x54, [])) := if_pos h

variable (hupdating : s.updating = false)
include hupdating

theorem actActivate_unstaged (h : s.fw.staged = none) : actActivate s r = (s, some (0x50, [])) := by
  simp [actActivate, hupdating, h]

theorem actActivate_defers (hstaged : s.fw.staged ≠ none) (h : s.emergency = true) : actActivate s r =
    (s.setFw (fun f => { f with actPair := some r.pair, update := 3, deferAt := s.now, deferMs := 0 }), none) := by
  have hstage : ¬ s.fw.staged.isNone = true := by simpa using hstaged
  unfold actActivate
  dsimp only
  rw [if_neg (ne_true_of_eq_false hupdating), if_neg hstage, if_pos h]
  rfl

end

section
variable {s : State} (hfw : s.fwOn = true) (hupdate : s.fw.update = 3) (hemergency : s.emergency = true)
include hfw hupdate hemergency

theorem recheckActivation_waits (h : s.now < s.fw.deferAt + 10000000000) :
    s.recheckActivation = s.setFw (fun f => { f with deferMs := (s.now - s.fw.deferAt) / 1000000 }) := by
  have hms : min ((s.now - s.fw.deferAt) / 1000000) 10000 = (s.now - s.fw.deferAt) / 1000000 := by omega
  have hearly : (s.now - s.fw.deferAt) / 1000000 ≠ 10000 := by omega
  simp [State.recheckActivation, hfw, hupdate, hemergency, hms, hearly]

theorem recheckActivation_expires (h : s.fw.deferAt + 10000000000 ≤ s.now) : s.recheckActivation =
    ((s.setFw (fun f => { f with deferMs := 10000 })).setFw (fun f => { f with update := 2 })).answerActivate 0x53 := by
  have hms : min ((s.now - s.fw.deferAt) / 1000000) 10000 = 10000 := by omega
  simp [State.recheckActivation, hfw, hupdate, hemergency, hms]

end

/-- A function whose heartbeat moves later by the length of the pause. -/
def Func.delayed (pause : Nat) (f : Func) : Func := { f with beat := f.beat.map (· + pause) }

theorem beat_handedOver (s : State) (d : Dir) (path : Nat) (i : Image) (pause f : Nat) :
    ((s.handedOver d path i pause).func f).beat = (s.func f).beat.map (· + pause) :=
  congrArg Func.beat (List.getD_map s.funcs Func.reset (Func.delayed pause))

theorem handedOver_boot (s : State) (d : Dir) (path : Nat) (i : Image) (pause : Nat) :
    (s.handedOver d path i pause).fw.updated = true ∧ (s.handedOver d path i pause).fw.bootPath = path := ⟨rfl, rfl⟩

theorem newAlias_keeps (s : State) : s.SameWork s.newAlias := by
  constructor <;> rfl

theorem writeDirectory_keeps (s : State) (d : Dir) : s.SameWork (s.writeDirectory d) := by
  constructor <;> rfl

theorem handedOver_keeps (s : State) (d : Dir) (path : Nat) (i : Image) (pause : Nat) : s.SameWork (s.handedOver d path i pause) := by
  unfold State.handedOver
  dsimp only
  refine (writeDirectory_keeps s d).trans (State.SameWork.trans ?_ (newAlias_keeps _))
  exact ⟨rfl, rfl, rfl, rfl, rfl⟩

theorem takeover_closes {s : State} {a : Nat} {i : Image} (hon : s.on = true) (hupdate : s.fw.update = 4) (hpause : s.fw.pause = some a)
    (hstaged : s.fw.staged = some i) (hreads : s.handoffReads = true) :
    ∃ d, s.takeover = (s.handedOver d (1 - min s.directory.1.active 1) i (s.now - a)).closeActivation 0x00 i.version false := by
  have hmay : ¬ (s.fw.update != 4 || !s.on) = true := by simp [hupdate, hon]
  have hread : ¬ (!s.handoffReads) = true := by simp [hreads]
  simp only [State.takeover, hpause, hstaged]
  rw [if_neg hmay, if_neg hread]
  exact ⟨_, rfl⟩

/-- An image that finds no copy of the handoff block leaves the old one to resume. -/
theorem takeover_unread {s : State} {a : Nat} {i : Image} (hpause : s.fw.pause = some a) (hstaged : s.fw.staged = some i)
    (hreads : s.handoffReads = false) : s.takeover = s.rollback := by
  simp only [State.takeover, hpause, hstaged, hreads, Bool.not_false, if_true]
  split
  · next hmay => rw [State.rollback, if_pos hmay]
  · rfl

theorem takeover_idle {s : State} (h : s.fw.update ≠ 4) : s.takeover = s := by
  unfold State.takeover
  split
  · exact if_pos (by simp [h])
  · rfl

theorem rollback_idle {s : State} (h : s.fw.update ≠ 4) : s.rollback = s := if_pos (by simp [h])

theorem rollback_closes {s : State} (hon : s.on = true) (hupdate : s.fw.update = 4) : ∃ v, s.rollback =
    (s.setFw (fun f => { f with update := 5, rolled := true, pause := none, handoff := none })).closeActivation 0x55 v true := by
  have hmay : ¬ (s.fw.update != 4 || !s.on) = true := by simp [hupdate, hon]
  rw [State.rollback, if_neg hmay]
  exact ⟨_, rfl⟩

theorem handoffReads_iff {s : State} {h : Handoff} {i j : Image} (hh : s.fw.handoff = some h) (hi : s.fw.staged = some i)
    (hj : s.fw.run = some j) : s.handoffReads = true ↔ readsHandoff i j = true ∧ ∃ c ∈ h.copies, s.copyReads h c = true := by
  simp only [State.handoffReads, hh, hi, hj, Option.getD_some, Bool.and_eq_true, List.any_eq_true]

theorem activations : Claims.Activation := by
  refine ⟨?activate, ?recheck, ?notDeferred, ?takeover, ?unread, fun s h i j hh hi hj => handoffReads_iff hh hi hj, ?rollback, ?idle⟩
  case activate =>
    intro s p r h
    obtain ⟨-, hreq, -, -⟩ := accepts_elim s p _ r h
    obtain ⟨-, rfl, -⟩ := request_eq s p r hreq
    refine ⟨fun hup => accepted_message_answer s r.pair _ _ r _ _ _ h (actActivate_updating (s := s.accepted r) hup),
      fun hup hnone => accepted_message_answer s r.pair _ _ r _ _ _ h (actActivate_unstaged (s := s.accepted r) hup hnone),
      fun hup hstaged hem => accepted_message_silent s r.pair _ _ r _ h (actActivate_defers (s := s.accepted r) hup hstaged hem),
      fun hup hstaged hem => ⟨_, accepted_message_silent s r.pair _ _ r _ h (actActivate_begins (s := s.accepted r) hup hstaged hem), rfl, rfl,
        ?_⟩⟩
    simp [State.firmwareActs, beginActivation_fw]
  case recheck =>
    intro s hfw hupdate
    have hexec : exec .activationRecheck s = .next (s.sameInputs s.recheckActivation) := whenOn_next s _ (on_of_fwOn s hfw)
    refine ⟨fun hem => ?_, fun hem hearly => ?_, fun hem hlate => ?_⟩
    · obtain ⟨ms, hbegins⟩ := recheckActivation_begins hfw hupdate hem
      obtain ⟨hfour, hpause, -⟩ := beginActivation_fw (s.setFw (fun f => { f with deferMs := ms }))
      exact ⟨_, by rw [hexec, hbegins], hfour, hpause⟩
    · rw [hexec, recheckActivation_waits hfw hupdate hem hearly]
      rfl
    · rw [hexec, recheckActivation_expires hfw hupdate hem hlate]
  case notDeferred =>
    intro s h
    have hself : s.recheckActivation = s := if_pos (by simp [h])
    have hexec : exec .activationRecheck s = whenOn s s.recheckActivation := rfl
    rw [hexec, hself, whenOn_self]
  case takeover =>
    intro s a i hon hupdate hpause hstaged hheld hreads
    obtain ⟨d, hcloses⟩ := takeover_closes hon hupdate hpause hstaged hreads
    have hheld' : (s.handedOver d (1 - min s.directory.1.active 1) i (s.now - a)).health.heldFault = [] := by
      rw [handedOver_health, hheld]
    obtain ⟨b, hfw⟩ := closeActivation_fw hheld' 0x00 i.version false
    have htalk := closeActivation_speaks hheld' 0x00 i.version false
    obtain ⟨hrun, hnone, hidle⟩ := takeover_runs hon hupdate hpause hstaged hheld hreads
    obtain ⟨hupdated, hboot⟩ := handedOver_boot s d (1 - min s.directory.1.active 1) i (s.now - a)
    obtain ⟨hsuites, hcores, hrings, hhbm, hxlt⟩ := (handedOver_keeps s d _ i _).trans htalk.keeps.1
    refine ⟨s.takeover, whenOn_next s _ hon, hrun, hnone, hidle, ?_⟩
    rw [hcloses]
    exact ⟨(congrArg Fw.updated hfw).trans hupdated, (congrArg Fw.bootPath hfw).trans hboot,
      fun n => (htalk.beats n).trans (beat_handedOver s d _ i _ n), hsuites, hcores, hrings, hhbm, hxlt⟩
  case unread =>
    intro s a i hpause hstaged hreads
    exact congrArg (whenOn s) (takeover_unread hpause hstaged hreads)
  case rollback =>
    intro s hon hupdate hheld
    obtain ⟨v, hcloses⟩ := rollback_closes hon hupdate
    obtain ⟨⟨hsuites, hcores, hrings, -, -⟩, hflash⟩ := (closeActivation_speaks
      (s := s.setFw (fun f => { f with update := 5, rolled := true, pause := none, handoff := none })) hheld 0x55 v true).keeps
    obtain ⟨hrun, hfive, hrolled⟩ := rollback_resumes hon hupdate hheld
    refine ⟨s.rollback, whenOn_next s _ hon, hrun, hfive, hrolled, ?_⟩
    rw [hcloses]
    exact ⟨hsuites, hcores, hrings, hflash⟩
  case idle =>
    intro s h
    have htakeover : exec .activationTakeover s = whenOn s s.takeover := rfl
    have hrollback : exec .activationRollback s = whenOn s s.rollback := rfl
    rw [htakeover, hrollback, takeover_idle h, rollback_idle h, whenOn_self]
    exact ⟨rfl, rfl⟩

/-! ## What the tests of a bring-up keep of memory and flash (R277, R297, R298) -/

/-- Memory and flash are as they were. -/
structure State.KeepsStores (s t : State) : Prop where
  hbm : t.hbm = s.hbm
  flash : t.flash = s.flash

namespace State.KeepsStores

theorem refl (s : State) : s.KeepsStores s := ⟨rfl, rfl⟩

theorem trans {s t u : State} (h : s.KeepsStores t) (g : t.KeepsStores u) : s.KeepsStores u := ⟨g.hbm.trans h.hbm, g.flash.trans h.flash⟩

theorem foldl {α : Type} (l : List α) (f : State → α → State) (hf : ∀ t a, State.KeepsStores t (f t a)) (s : State) :
    s.KeepsStores (l.foldl f s) :=
  List.foldlRecOn (motive := State.KeepsStores s) l f (refl s) (fun t ht a _ => ht.trans (hf t a))

theorem logRet (s : State) (kind unit index : Nat) : s.KeepsStores (s.logRet kind unit index) :=
  ⟨State.logE_hbm _ _ _ _ _ _ _ _ _ _, State.logE_flash _ _ _ _ _ _ _ _ _ _⟩

theorem noticeUnit (s : State) (kind unit logical spare : Nat) (pages : List Nat) :
    s.KeepsStores (s.noticeUnit kind unit logical spare pages) := by
  have hsend : ∀ (t : State) (f : Nat) (ps : List Nat),
      t.KeepsStores ((unitBodies kind unit logical spare ps).foldl (fun t b => t.notice f 0x4003 0xffffffff b) t) := fun t f ps =>
    foldl _ _ (fun t _ => ⟨State.notice_hbm t _ _ _ _, State.notice_flash t _ _ _ _⟩) t
  exact (hsend s 0 pages).trans (foldl _ _ (fun t _ => hsend t _ _) _)

theorem loseEntries (s : State) (pages : List Nat) (lost : Nat) : s.KeepsStores (s.loseEntries pages lost) :=
  (foldl pages (fun t v => t.setEntry v (.lost lost)) (fun _ _ => ⟨rfl, rfl⟩) s).trans ⟨rfl, rfl⟩

theorem placeTable (s : State) (t : Nat) : s.KeepsStores (s.placeTable t) := by
  unfold State.placeTable
  dsimp only
  split
  · exact ⟨rfl, rfl⟩
  · split
    · split <;> exact ⟨rfl, rfl⟩
    · split
      · split
        · refine State.KeepsStores.trans ?_ (loseEntries _ _ 3)
          exact ⟨rfl, rfl⟩
        · exact refl s
      · exact refl s

theorem buildTable (s : State) : s.KeepsStores s.buildTable := foldl _ _ placeTable s

theorem loseDie (s : State) (d : Nat) : s.KeepsStores (s.loseDie d) := by
  unfold State.loseDie
  split
  · exact refl s
  · refine State.KeepsStores.trans ?_ (noticeUnit _ 13 d 0xff 0 [])
    refine State.KeepsStores.trans (t := s.setHealth _) ⟨rfl, rfl⟩ (foldl (List.range 4) _ (fun t i => ?_) _)
    exact ⟨State.setCluster_hbm t _ _, State.setCluster_flash t _ _⟩

end State.KeepsStores

/-! ### Retirements, which the flash records -/

theorem flashWrite_hbm (s : State) (a : Nat) (b : List Byte) : (s.flashWrite a b).hbm = s.hbm := rfl

theorem appendRet_hbm (s : State) (e : RetEntry) (copy : Nat) : (s.appendRet e copy).hbm = s.hbm := by
  simp only [State.appendRet, apply_ite State.hbm, flashWrite_hbm, ite_self]

theorem recordRet_hbm (s : State) (kind unit index : Nat) : (s.recordRet kind unit index).hbm = s.hbm := by
  unfold State.recordRet
  dsimp only
  rw [appendRet_hbm, appendRet_hbm]

/-- A retirement is recorded, its notices go out and the log names it. -/
theorem retired_hbm (s : State) (kind unit index logical spare : Nat) (pages : List Nat) :
    (((s.recordRet kind unit index).noticeUnit kind unit logical spare pages).logRet kind unit index).hbm = s.hbm := by
  rw [(State.KeepsStores.logRet _ _ _ _).hbm, (State.KeepsStores.noticeUnit _ _ _ _ _ _).hbm, recordRet_hbm]

theorem retireChan_hbm (s : State) (ch : Nat) : (s.retireChan ch).hbm = s.hbm := by
  unfold State.retireChan
  split
  · rfl
  · dsimp only
    rw [(State.KeepsStores.logRet _ _ _ _).hbm, (State.KeepsStores.noticeUnit _ _ _ _ _ _).hbm, State.placeCopies, State.setXlt_hbm,
      (State.KeepsStores.foldl _ _ State.KeepsStores.placeTable _).hbm, (State.KeepsStores.loseEntries _ _ _).hbm, recordRet_hbm,
      State.setChan_hbm]

theorem retireD2d_hbm (s : State) (l : Nat) : (s.retireD2d l).hbm = s.hbm := by
  unfold State.retireD2d
  split
  · rfl
  · exact retired_hbm s 5 l 0 0xff 0 []

theorem retireLane_hbm (s : State) (n : Nat) : (s.retireLane n).hbm = s.hbm := by
  unfold State.retireLane
  dsimp only
  split
  · rfl
  · rw [retired_hbm, State.setFab_hbm]

theorem loseCluster_hbm (s : State) (x : Nat) : (s.loseCluster x).hbm = s.hbm := by
  unfold State.loseCluster
  split
  · rfl
  · refine (State.KeepsStores.noticeUnit _ _ _ _ _ _).hbm.trans (foldl_keeps State.hbm _ (fun t i => ?_) (List.range 5) _)
    dsimp only
    split
    · rfl
    · exact (State.KeepsStores.logRet _ _ _ _).hbm.trans (recordRet_hbm _ _ _ _)

theorem retireCore_hbm (s : State) (n : Nat) : (s.retireCore n).hbm = s.hbm := by
  unfold State.retireCore
  split
  · rfl
  · dsimp only
    split
    · rw [retired_hbm, State.setPhys_hbm]
    · rw [(State.KeepsStores.logRet _ _ _ _).hbm, (State.KeepsStores.noticeUnit _ _ _ _ _ _).hbm, State.setHealth_hbm, recordRet_hbm,
        State.setPhys_hbm]

theorem bringupTests_hbm (s : State) (r : TestResults) : (s.bringupTests r).hbm = s.hbm := by
  unfold State.bringupTests State.placeCopies State.readStacks
  dsimp only
  rw [State.setXlt_hbm, State.setXlt_hbm]
  dsimp only
  rw [foldl_keeps State.hbm _ retireCore_hbm, foldl_keeps State.hbm _ loseCluster_hbm,
    foldl_keeps State.hbm _ (fun t d => (State.KeepsStores.loseDie t d).hbm), foldl_keeps State.hbm _ retireLane_hbm,
    foldl_keeps State.hbm _ retireD2d_hbm, foldl_keeps State.hbm _ retireChan_hbm]

/-- Tests that find nothing to retire write no retirement; a compute die that does not answer is absent without one (R409). -/
theorem bringupTests_flash {s : State} {r : TestResults} (hpcs : r.pcs = []) (hd2d : r.d2dLanes = []) (hlanes : r.lanes = [])
    (hshelves : r.shelves = []) (hcores : r.cores = []) : (s.bringupTests r).flash = s.flash := by
  simp only [State.bringupTests, hpcs, hd2d, hlanes, hshelves, hcores, List.foldl_nil, List.filter_nil]
  exact (State.KeepsStores.foldl _ _ State.KeepsStores.loseDie s).flash

/-! ## Rescue (R370) -/

theorem rescued_hbm (s : State) (i : Image) (r : TestResults) : (s.rescued i r).hbm = s.hbm := by
  rw [State.rescued, State.setHealth_hbm, (State.KeepsStores.buildTable _).hbm, bringupTests_hbm]
  rfl

theorem rescued_flash {s : State} {r : TestResults} (i : Image) (hpcs : r.pcs = []) (hd2d : r.d2dLanes = []) (hlanes : r.lanes = [])
    (hshelves : r.shelves = []) (hcores : r.cores = []) : (s.rescued i r).flash = s.flash := by
  rw [State.rescued, State.setHealth_flash, (State.KeepsStores.buildTable _).flash, bringupTests_flash hpcs hd2d hlanes hshelves hcores]
  rfl

/-- The boot ROM has a rescue message to serve, on a pair whose last reply has been taken. -/
structure State.RescueAsked (s : State) (p : Nat) : Prop where
  pair : p < 64
  waits : s.inRescue = true
  asked : (s.pair p).reqV = true
  answered : (s.pair p).due = none
  type : (parseReq p (s.pair p).req).type = 0x0048

/-- The answer of the boot ROM to the message of a pair. -/
def State.rescueReply (s t : State) (p st : Nat) : State := (t.take p).deliver p (t.replyBytes (parseReq p (s.pair p).req) st [])

section
variable {s : State} {p : Nat} {r₀ : TestResults} (h : s.RescueAsked p)
include h

theorem rescue_served : ¬ (!s.inRescue || !(s.pair p).reqV || (s.pair p).due.isSome || (parseReq p (s.pair p).req).type != 0x0048 ||
    64 ≤ p) = true := by
  obtain ⟨hp, hwaits, hreq, hdue, htype⟩ := h
  simp [hp, hwaits, hreq, hdue, htype]

theorem rescue_bad_check (hcrc : (parseReq p (s.pair p).req).crcOk = false) : s.rescue p r₀ = s.rescueReply s p 0xf0 := by
  unfold State.rescue
  dsimp only
  rw [if_neg (rescue_served h), if_pos (by simp [hcrc])]
  rfl

variable (hcrc : (parseReq p (s.pair p).req).crcOk = true)
include hcrc

theorem rescue_bad_length (hlen : (parseReq p (s.pair p).req).len ≠ 4) : s.rescue p r₀ = s.rescueReply s p 0xf3 := by
  unfold State.rescue
  dsimp only
  rw [if_neg (rescue_served h), if_neg (by simp [hcrc]), if_pos (by simpa using hlen)]
  rfl

variable (hlen : (parseReq p (s.pair p).req).len = 4)
include hlen

theorem rescue_out_of_range (hn : fld (parseReq p (s.pair p).req).body 0 4 < 512 ∨ 0x800000 < fld (parseReq p (s.pair p).req).body 0 4) :
    s.rescue p r₀ = s.rescueReply s p 0x80 := by
  unfold State.rescue
  dsimp only
  rw [if_neg (rescue_served h), if_neg (by simp [hcrc]), if_neg (by simp [hlen]), if_pos (by simpa using hn)]
  rfl

theorem rescue_unacceptable (hlo : 512 ≤ fld (parseReq p (s.pair p).req).body 0 4) (hhi : fld (parseReq p (s.pair p).req).body 0 4 ≤ 0x800000)
    (hi : acceptImage s.fuses 1 ((List.range (fld (parseReq p (s.pair p).req).body 0 4)).map
      (fun i => s.hbmGet (frameKey s.rescueChan 0 * 4096 + i))) = none) : s.rescue p r₀ = s.rescueReply s p 0x51 := by
  unfold State.rescue
  dsimp only
  rw [if_neg (rescue_served h), if_neg (by simp [hcrc]), if_neg (by simp [hlen]), if_neg (by simp [hlo, hhi]), hi]
  rfl

end

theorem rescueOutcomes : Claims.RescueOutcomes := by
  refine ⟨?waits, ?runs⟩
  case waits =>
    intro s p r₀ hp hon hrun hpath hreq hdue r htype n image said
    have h : s.RescueAsked p := ⟨hp, by simp [State.inRescue, hon, hrun, hpath], hreq, hdue, htype⟩
    have hexec : exec (.rescue ⟨p, r₀⟩) s = .next (s.sameInputs (s.rescue p r₀)) := on_next s _ hon _ (decide_eq_true hp)
    refine ⟨fun hcrc => ?_, fun hcrc hlen => ?_, fun hcrc hlen hn => ?_, fun hcrc hlen hlo hhi hi => ?_, fun i hcrc hlen hlo hhi hi => ?_⟩
    · exact hexec.trans (congrArg (fun t => Host.Outcome.next (s.sameInputs t)) (rescue_bad_check h hcrc))
    · exact hexec.trans (congrArg (fun t => Host.Outcome.next (s.sameInputs t)) (rescue_bad_length h hcrc hlen))
    · exact hexec.trans (congrArg (fun t => Host.Outcome.next (s.sameInputs t)) (rescue_out_of_range h hcrc hlen hn))
    · exact hexec.trans (congrArg (fun t => Host.Outcome.next (s.sameInputs t)) (rescue_unacceptable h hcrc hlen hlo hhi hi))
    · obtain ⟨hruns, hphase⟩ := rescued_runs s i r₀
      refine ⟨s.rescued i r₀, ?_, hruns, hphase, rescued_hbm s i r₀, rescued_flash i⟩
      exact hexec.trans (congrArg (fun t => Host.Outcome.next (s.sameInputs t))
        (rescue_accepts hp hon hrun hpath hreq hdue htype hcrc hlen hlo hhi hi))
  case runs =>
    intro s p r₀ hp hrun
    have hruns : s.fw.run.isNone = false := by simpa [Option.isSome_iff_ne_none] using hrun
    have hself : s.rescue p r₀ = s := if_pos (by simp [State.inRescue, hruns])
    have hexec : exec (.rescue ⟨p, r₀⟩) s = onUnit (p < 64) s (s.rescue p r₀) := rfl
    rw [hexec, hself, self_next s _ (decide_eq_true hp)]

/-- Settles O52: an activation goes through its states as its conditions have it, and a rescue meets its checks in order. -/
theorem firmwareUpdate : Obligations.FirmwareUpdate := ⟨activations, rescueOutcomes⟩

end Sys2Proof.Machine
